-- ==== Sys2Proof/Syntax.lean ====
section
/-! DEFINITION. The commands of the block: one constructor for each of the 180 rows of spec/opcode_table.json, with the operands the row's rule gives it. A value that only the world can supply (a sensor reading, an error pattern, a part's stored facts) is an operand too. -/
namespace Sys2Proof

/-- One Rhoic command as it reaches the W36 (12 R297, R298): the submitting queue pair, the 64-byte packet, and the inline buffer of the management path. -/
structure Rhoic where
  qp : Nat
  pkt : BitVec 512
  inl : List Byte := []
  /-- for a command that rim firmware starts again after a wait (12 R309): the submission head after its fetch and its place in the order of fetches; none for one that is fetched now -/
  fetched : Option (Nat × Nat) := none
  /-- the pair to which the reply of an accepted command goes (12 R299); none for a command that reaches the W36 now -/
  pair : Option Nat := none
  deriving DecidableEq, Repr

/-- What the issue of a descriptor met (06 R165 DESC_ECC, 20 R437): an uncorrectable descriptor fetch; the lowest local offset of a working-SRAM word that SEC-DED could not correct. -/
structure Met where
  descEcc : Bool := false
  /-- a single-bit error of the descriptor fetch was corrected (06 R138) -/
  descCorr : Bool := false
  sramBad : Option Nat := none
  deriving DecidableEq, Repr

/-- Who makes an access (01 R34, 22 R472). -/
inductive Requester where
  | pcie
  | rimCore (c : Nat)
  | queuePair (q : Nat)
  | ring (r : Nat)
  deriving DecidableEq, Repr

/-- An access to a register: byte offset in BAR0, size in bytes and, for a write, the value (22 R470). -/
structure RegAcc where
  off : Nat
  size : Nat := 8
  val : Word := 0
  who : Requester := .pcie
  deriving DecidableEq, Repr

/-- An access to a window or aperture: start, and either a read of `len` bytes or a write of bytes. -/
structure WinAcc where
  addr : Nat
  len : Nat := 0
  data : Option (List Byte) := none
  who : Requester := .pcie
  deriving DecidableEq, Repr

/-- A flit as it reaches a router port (07 R171, R173): the receiving logical tile, the link direction it came over, what it carries and whether its CRC holds. -/
inductive FlitKind where
  | channel (c : Nat)
  | packet (id : Nat)
  deriving DecidableEq, Repr

/-- A flit at a router port. -/
structure Flit where
  tile : Nat
  dir : Nat
  kind : FlitKind
  crcOk : Bool := true
  /-- the partial words a kind-1 node of a peer device brings (04 R107), as (slot, words) -/
  peer : Option (Nat × List Nat) := none
  deriving DecidableEq, Repr

/-- A sample that is due (05 R133): its tile, and the errors of the tile's own partials, row by row, where its array or lanes have computed wrong without a sign. -/
structure SampleInfo where
  tile : Nat
  err : List Int := []
  deriving DecidableEq, Repr

/-- A check of a sample (05 R134, R135): the errors of the first and of the second checker's results, row by row, in their last place. -/
structure CheckInfo where
  first : List Int := []
  second : List Int := []
  deriving DecidableEq, Repr

/-- What a memory-tier page read found (19 R427, 20 R438). -/
inductive PageRead where
  | clean
  /-- a failed column of a macro was corrected -/
  | corrected (macroIx col : Nat)
  | uncorrectable (retestOk : Bool)
  deriving DecidableEq, Repr

/-- Facts of a part that bring-up reads from its records, and the addresses at which its firmware places the device's own structures (19 R419–R421, 21 R451–R455, 14 R348). -/
structure PartInfo where
  stepping : Nat := 1
  serial : List Byte := []
  deviceKey : List Byte := []
  deviceCert : List Byte := []
  /-- the factory repair map: (segment, bypass table) pairs whose table is not zero -/
  bypass : List (Nat × BitVec 128) := []
  /-- its spare column assignments (site, macro, column), and its spare bond assignments (site, failed bond) -/
  columns : List (Nat × Nat × Nat) := []
  bonds : List (Nat × Nat) := []
  fwVersion : Nat := 0
  fwSvn : Nat := 0
  streamTableBase : Nat := 0
  faultLogBase : Nat := 0
  telemBase : Nat := 0
  stripeStateBase : Nat := 0
  reserveMapBase : Nat := 0
  rth : List (Nat × Nat) := []
  deriving DecidableEq, Repr

/-- The end of a bring-up stage (19 R419): its duration, a stall cause if its work failed that way, and what it found. -/
structure StageInfo where
  ms : Nat := 0
  stall : Nat := 0
  part : PartInfo := {}
  /-- slot A of the rim firmware failed (21 R453) -/
  slotAFailed : Bool := false
  /-- B3: fields that did not start or lock -/
  fieldsOut : List Nat := []
  /-- B2: configuration records found damaged, as (flash package, sequence) (19 R421) -/
  recordsOut : List (Nat × Nat) := []
  /-- B4: failed signal bonds, as (site, bond) (01 R10) -/
  bondsOut : List (Nat × Nat) := []
  /-- B4: failing macro columns, as (site, macro, column) (01 R24) -/
  columnsOut : List (Nat × Nat × Nat) := []
  /-- B4: logical tiles whose site failed its march test or retest -/
  tilesOut : List Nat := []
  /-- B4: the droop per ampere of field current measured at each site, as (site, µV) (17 R394) -/
  droops : List (Nat × Nat) := []
  /-- B5: data lanes that training found faulty, as (stack, lane) (14 R335) -/
  lanesOut : List (Nat × Nat) := []
  /-- B5: stacks that failed -/
  stacksOut : List Nat := []
  /-- B6: ports that came up, with their PHY type -/
  portsUp : List (Nat × Nat) := []
  /-- B6: the PCIe link trained -/
  pcieUp : Bool := true
  /-- B3: inlet in 0.1 °C and flow in 0.1 L/min (23 R490) -/
  inlet : Nat := 250
  flow : Nat := 300
  deriving DecidableEq, Repr

/-- A hold-up module: its serial number, certificate, whether certificate and key answer genuinely (21 R464), and its counters. -/
structure Hum where
  serial : List Byte := []
  cert : List Byte := []
  genuine : Bool := true
  cycles : Nat := 0
  hours : Nat := 0
  deriving DecidableEq, Repr

/-- A Narlas packet (15 R354): the 32-byte header, the payload, and whether its GCM tag verifies under the key it selects. -/
structure NPkt where
  hdr : BitVec 256
  payload : List Byte := []
  tagOk : Bool := true
  /-- the tag verifies under the key before the present one (21 R463) -/
  prevOk : Bool := false
  port : Nat := 0
  /-- an Ethernet Congestion Experienced mark -/
  ce : Bool := false
  deriving DecidableEq, Repr

/-- One entry of the membership table (15 R360). -/
structure Member where
  dev : Nat
  state : Nat
  role : Nat := 3
  seg : Nat := 0
  imageHash : Nat := 0
  version : Nat := 0
  deriving DecidableEq, Repr

/-- System control messages (15 R361, R365, R367, R369; 16 R383; 19 R425). -/
inductive Ctl where
  | joinRequest (dev version : Nat)
  | joinForward (dev version : Nat)
  | joinRefused
  | proposal (epoch : Nat) (table : List Member)
  | proposalAck (epoch dev : Nat)
  | commit (epoch : Nat)
  | joinReady (m : Member)
  | roleRequest (dev role : Nat)
  | leaveRequest (dev : Nat)
  | unreachable (dev by_ : Nat)
  | swapOrder (phase version : Nat)
  | swapReport (dev phase : Nat)
  | powerOrder (state : Nat)
  | dropUnit (owner block : Nat)
  | askDrop (stream : Nat)
  | tokensBack (toks : List (Nat × Nat))
  deriving DecidableEq, Repr

/-- The exchange messages of association keys (21 R461): the step, whether signatures and chains verify, and the peer. -/
structure AssocMsg where
  peer : Nat
  step : Nat
  ok : Bool := true
  tenant : Option Nat := none
  kem : List Byte := []
  deriving DecidableEq, Repr

/-- A PTP message of the timeTransmitter that the best-clock algorithm selects, on a port (15 R359): the offset in ns, and the time in ns of the PTP timescale. -/
structure PtpSample where
  port : Nat
  offset : Int
  time : Nat
  deriving DecidableEq, Repr

/-- A wave record handed between segments (15 R364): the rim channel, its data, and the columns (stream, rank, position, token). -/
structure Handoff where
  src : Nat
  chan : Nat
  data : List Byte
  cols : List (Nat × Nat × Nat × Nat)
  deriving DecidableEq, Repr

/-- A journal record (15 R368): the sender, the stream, its record number, its entry of R273 (128 bytes as a number) and the tokens added. -/
structure JRec where
  src : Nat
  stream : Nat
  num : Nat
  entry : Nat
  toks : List Nat
  deriving DecidableEq, Repr

/-- One tile's temperature reading in 0.1 °C (18 R412). -/
structure TempRead where
  tile : Nat
  t : Nat
  deriving DecidableEq, Repr

/-- One tile's voltage reading in mV (17 R391). -/
structure VoltRead where
  tile : Nat
  mv : Nat
  deriving DecidableEq, Repr

/-- The readings of one field and of the coolant at a temperature sample (18 R410, R412). -/
structure TempSample where
  field : Nat
  tiles : List TempRead
  inlet : Nat
  outlet : Nat
  flow : Nat
  dp : Nat
  deriving DecidableEq, Repr

/-- The measurements from which a field's duty is set (18 R413, R415). -/
structure DutySample where
  field : Nat
  /-- VLnn and VMnn power of the last 100 µs, W -/
  watts : Nat
  /-- power that does not scale with the duty, W -/
  staticWatts : Nat
  /-- τ_n, 100 µs units -/
  tau : Nat
  /-- module input power averaged over 1 s and over 10 ms, W -/
  module1s : Nat
  module10ms : Nat
  deriving DecidableEq, Repr

/-- What a MCTP control message does (21 R465). -/
structure MctpCtl where
  binding : Nat
  cmd : Nat
  eid : Nat
  deriving DecidableEq, Repr

/-- An SPDM request message of MCTP type 0x05 on the management path (21 R458). -/
structure Spdm where
  msg : List Byte
  deriving DecidableEq, Repr

/-- The commands: one constructor per row of spec/opcode_table.json. -/
inductive Instr where
  | identify (r : Rhoic)
  | status (r : Rhoic)
  | setModeSplit (r : Rhoic)
  | setPowerState (r : Rhoic)
  | createQueue (r : Rhoic)
  | deleteQueue (r : Rhoic)
  | loadImage (r : Rhoic)
  | patch (r : Rhoic)
  | activateImage (r : Rhoic)
  | imageActivated
  | stageWeights (r : Rhoic)
  | weightsStaged
  | swapWeights (r : Rhoic)
  | swapCopyDone
  | weightCopyDone
  | registerSeed (r : Rhoic)
  | openStream (r : Rhoic)
  | appendTokens (r : Rhoic)
  | appendText (r : Rhoic)
  | generate (r : Rhoic)
  | cancel (r : Rhoic)
  | closeStream (r : Rhoic)
  | definePrefix (r : Rhoic)
  | releasePrefix (r : Rhoic)
  | streamSet (r : Rhoic)
  | streamRead (r : Rhoic)
  | scheduleWave (r : Rhoic)
  | setBudget (r : Rhoic)
  | queryUsage (r : Rhoic)
  | readDram (r : Rhoic)
  | writeDram (r : Rhoic)
  | pageMigrate (r : Rhoic)
  | pageDrop (r : Rhoic)
  | join (r : Rhoic)
  | foundSystem
  | leave (r : Rhoic)
  | setRole (r : Rhoic)
  | forwardWeights (r : Rhoic)
  | loupeRun (r : Rhoic)
  | inclusionReport (r : Rhoic)
  | faultRead (r : Rhoic)
  | attest (r : Rhoic)
  | rotateKey (r : Rhoic)
  | humAuth (r : Rhoic)
  | opcodeUnknown (r : Rhoic)
  | getVersion (m : Spdm)
  | getCapabilities (m : Spdm)
  | negotiateAlgorithms (m : Spdm)
  | getDigests (m : Spdm)
  | getCertificate (m : Spdm)
  | challenge (m : Spdm)
  | getMeasurements (m : Spdm)
  | spdmUnsupportedRequest (m : Spdm)
  | pldmFirmwareUpdate (image : List Byte)
  | activateFirmware (selfContained : Bool)
  | pldmMonitoring (sensor : Nat)
  | mctpControl (m : MctpCtl)
  | matmulTable (t : Nat) (d : Desc) (m : Met)
  | matmulDirect (t : Nat) (d : Desc) (m : Met)
  | logProduct (t : Nat) (d : Desc) (m : Met)
  | reduce (t : Nat) (d : Desc) (m : Met)
  | requant (t : Nat) (d : Desc) (m : Met)
  | facetOp (t : Nat) (d : Desc) (m : Met)
  | sample (t : Nat) (d : Desc) (m : Met)
  | send (t : Nat) (d : Desc) (m : Met)
  | recv (t : Nat) (d : Desc) (m : Met)
  | dramRead (t : Nat) (d : Desc) (m : Met)
  | dramWrite (t : Nat) (d : Desc) (m : Met)
  | kvFetch (t : Nat) (d : Desc) (m : Met)
  | kvStore (t : Nat) (d : Desc) (m : Met)
  | residLoad (t : Nat) (d : Desc) (m : Met)
  | residStore (t : Nat) (d : Desc) (m : Met)
  | waitToken (t : Nat) (d : Desc) (m : Met)
  | fenceFormat (t : Nat) (d : Desc) (m : Met)
  | endSection (t : Nat) (d : Desc) (m : Met)
  | opcodeInvalid (t : Nat) (d : Desc) (m : Met)
  | tokenDone (t token : Nat) (badLine : Option Nat)
  | beatWatchdog (t : Nat)
  | flitReceive (f : Flit)
  | linkDown (t dir : Nat)
  | packetAgePromote (id : Nat)
  | livenessFlit (t dir : Nat) (heard : Bool)
  | tileDead (t : Nat) (linksDown : Bool)
  | issueResumed (us : Nat)
  | beatBoundary (cycle : Nat)
  | freqChanged (failed : List Nat)
  | inclusionSample (x : SampleInfo)
  | inclusionCheck (t : Nat) (x : CheckInfo)
  | inclusionSkipped (t : Nat)
  | rebuildChunk (stripe : Nat) (copyBad : Bool)
  | girdleRebuilt (stripe : Nat)
  | girdleAudit (stripe chunk : Nat) (copyBad : Bool)
  | memoryTierScrub (site : Nat) (found : PageRead)
  | hbmPatrolScrub (stack : Nat) (raw : List Byte) (miscorrected : Option (List Byte))
  | hbmStackLost (stack cause : Nat)
  | hbmRemapDone
  | telemetry
  | oscCalibration (field trim : Nat)
  | sensorCalibration (field : Nat)
  | journalAppend (bytes : Nat)
  | journalPackageLost (pkg : Nat)
  | rimCoreLost (core : Nat)
  | doorbell (path qp : Nat) (val : Word)
  | queueEnable (qp : Nat) (a : RegAcc)
  | completionRecordWrite (qp : Nat)
  | evtEoi (a : RegAcc)
  | bankEoi (core : Nat) (a : RegAcc)
  | evtRaise (a : RegAcc)
  | eventRingEnable (ring : Nat) (a : RegAcc)
  | eventRingHeadWrite (ring : Nat) (a : RegAcc)
  | routeWrite (source : Nat) (a : RegAcc)
  | aonEdge (bit : Nat)
  | rcRead (a : RegAcc)
  | registerWrite (a : RegAcc)
  | deviceReset (a : RegAcc)
  | freqStepWrite (a : RegAcc)
  | mirrorGibWrite (a : RegAcc)
  | bar4BaseWrite (a : RegAcc)
  | hostWinBaseWrite (a : RegAcc)
  | tileWindowAccess (a : WinAcc)
  | bar4Access (a : WinAcc)
  | diagSlotAccess (a : WinAcc)
  | powerOn (feed : Nat)
  | stageReached (info : StageInfo)
  | pcieReset (kind : Nat)
  | pcieLinkTrained
  | p1Entry
  | pstateChanged
  | feedLost (feed : Nat) (overVolt : Bool) (energyJ watts : Nat)
  | feedRestored (feed : Nat)
  | preserve
  | fieldTrip (field cause : Nat)
  | fieldUndervolt (field : Nat)
  | regPhaseLost (rail phase : Nat)
  | voltageUpdate (field : Nat) (tiles : List VoltRead) (amps : Nat)
  | suspectedBondCrack (t excess : Nat)
  | humChanged (inserted : Option Hum)
  | humAlarm
  | humHealth (mf esrUohm energyJ days : Nat)
  | humChallenge
  | oscUnlock (field : Nat)
  | oscInjectLost (field : Nat)
  | oscRelock (field : Nat) (ok : Bool)
  | tempSample (x : TempSample)
  | sensorFault (t : Nat)
  | throttleUpdate (x : DutySample)
  | rthUpdate (field : Nat)
  | fieldOvertemp (t : Nat)
  | coolantLost (which : Nat)
  | stepSyncPulse (cycle : Nat)
  | stepSyncLost
  | ppsIn (highNs : Nat)
  | alertNAttention (lowNs : Nat)
  | ptpMessage (x : PtpSample)
  | portDown (port : Nat) (fec : Bool)
  | portUp (port : Nat)
  | narlasData (p : NPkt)
  | ack (p : NPkt)
  | nack (p : NPkt)
  | probe (p : NPkt)
  | control (p : NPkt) (m : Ctl)
  | ackTimer (peer : Nat)
  | pathRetransmit (peer path : Nat)
  | peerUnreachable (peer : Nat)
  | peerLost (peer : Nat)
  | coordinatorUnreachable
  | assocKeyExchange (m : AssocMsg)
  | rekey (peer : Nat)
  | waveHandoff (h : Handoff)
  | journalRecord (j : JRec)
  | journalAcknowledge (src stream num : Nat)
  | streamMigrated (stream target index : Nat)
  | weightChunk (src version offset : Nat) (data : List Byte)
  | prefixLeaseExpiry (index : Nat)
  | probeReply (peer path : Nat)
  | humAlarmReleased
  | loupeReferenceDone
  | patchCopyDone
  | previousKeyExpiry (peer : Nat)
  | cableModuleDetected (port kind watts : Nat)
  deriving DecidableEq, Repr

end Sys2Proof
end

