-- ==== Sys2Proof/Machine/Codes.lean ====
section
/-! DEFINITION. The codes of the records (the record tables of the chapters, 13 R322, 01 R34) and the status codes of replies (12 R315), and the packing of fields into a record. -/
namespace Sys2Proof.Machine

namespace Rc

/-- SILENT_DATA_MISMATCH (05 R495). -/
def silentDataMismatch : Nat := 0x2110
/-- SEED_ALIAS (05 R495). -/
def seedAlias : Nat := 0x2111
/-- OPCODE_INVALID (06 R165). -/
def opcodeInvalid : Nat := 0x2001
/-- DESC_INVALID (06 R165). -/
def descInvalid : Nat := 0x2002
/-- ACC_CAPACITY (06 R165). -/
def accCapacity : Nat := 0x2003
/-- TABLE_STALE (06 R165). -/
def tableStale : Nat := 0x2004
/-- BLOCK_MISALIGNED (06 R165). -/
def blockMisaligned : Nat := 0x2005
/-- FORMAT_MISMATCH (06 R165). -/
def formatMismatch : Nat := 0x2006
/-- TOKEN_NOT_ISSUED (06 R165). -/
def tokenNotIssued : Nat := 0x2007
/-- TOKEN_BUSY (06 R165). -/
def tokenBusy : Nat := 0x2008
/-- BUFFER_HAZARD (06 R165). -/
def bufferHazard : Nat := 0x2009
/-- LOCAL_RANGE (06 R165). -/
def localRange : Nat := 0x200A
/-- DRAM_RANGE (06 R165). -/
def dramRange : Nat := 0x200B
/-- CHANNEL_OVERRUN (06 R165). -/
def channelOverrun : Nat := 0x200C
/-- REDUCTION_UNEXPECTED (06 R165). -/
def reductionUnexpected : Nat := 0x200D
/-- STRAY_DATA (06 R165). -/
def strayData : Nat := 0x200E
/-- BEAT_WATCHDOG (06 R165). -/
def beatWatchdog : Nat := 0x200F
/-- WEIGHT_CODE_INVALID (06 R165). -/
def weightCodeInvalid : Nat := 0x2010
/-- OPERAND_CODE_INVALID (06 R165). -/
def operandCodeInvalid : Nat := 0x2011
/-- DESC_ECC (06 R165). -/
def descEcc : Nat := 0x2012
/-- LOG_SIGN (06 R165). -/
def logSign : Nat := 0x2020
/-- FORMAT_NONFINITE (06 R165). -/
def formatNonfinite : Nat := 0x2021
/-- ACC_SATURATED (06 R165). -/
def accSaturated : Nat := 0x2022
/-- LINK_DOWN (07 R191). -/
def linkDown : Nat := 0x2030
/-- LINK_RETRY (07 R191). -/
def linkRetry : Nat := 0x2031
/-- PACKET_UNROUTABLE (07 R191). -/
def packetUnroutable : Nat := 0x2032
/-- DRAM_UNCORRECTABLE (07 R191). -/
def dramUncorrectable : Nat := 0x2033
/-- DRAM_HAZARD (07 R191). -/
def dramHazard : Nat := 0x2034
/-- DETOUR_ACTIVE (07 R191). -/
def detourActive : Nat := 0x2035
/-- IMAGE_LOADED (08 R494). -/
def imageLoaded : Nat := 0x2100
/-- IMAGE_LOAD_REFUSED (08 R494). -/
def imageLoadRefused : Nat := 0x2103
/-- IMAGE_ACTIVATED (08 R494). -/
def imageActivated : Nat := 0x2101
/-- IMAGE_STOPPED (08 R494). -/
def imageStopped : Nat := 0x2102
/-- GIRDLE_RECOVERY (09 R238). -/
def girdleRecovery : Nat := 0x2040
/-- GIRDLE_REBUILT (09 R238). -/
def girdleRebuilt : Nat := 0x2041
/-- GIRDLE_INCONSISTENT (09 R238). -/
def girdleInconsistent : Nat := 0x2042
/-- DEGRADED_UNPROTECTED (09 R238). -/
def degradedUnprotected : Nat := 0x2043
/-- STRIPE_LOST (09 R238). -/
def stripeLost : Nat := 0x2044
/-- KV_PAGE_MISSING (10 R268). -/
def kvPageMissing : Nat := 0x2050
/-- KV_GEOMETRY (10 R268). -/
def kvGeometry : Nat := 0x2051
/-- KV_PRESSURE (10 R268). -/
def kvPressure : Nat := 0x2052
/-- KV_DROPPED (10 R268). -/
def kvDropped : Nat := 0x2053
/-- PREFIX_RECOMPUTE (10 R268). -/
def prefixRecompute : Nat := 0x2054
/-- SPEC_BACKOFF (11 R296). -/
def specBackoff : Nat := 0x2060
/-- TENANT_THROTTLED (11 R296). -/
def tenantThrottled : Nat := 0x2061
/-- SAMPLE_DEGENERATE (11 R296). -/
def sampleDegenerate : Nat := 0x2062
/-- STEP_SYNC_RANGE (11 R296). -/
def stepSyncRange : Nat := 0x2063
/-- STEP_SYNC_LOST (11 R296). -/
def stepSyncLost : Nat := 0x2064
/-- HBM_UNCORRECTABLE (14 R349). -/
def hbmUncorrectable : Nat := 0x2080
/-- HBM_STACK_LOST (14 R349). -/
def hbmStackLost : Nat := 0x2081
/-- HBM_REMAP_DONE (14 R349). -/
def hbmRemapDone : Nat := 0x2082
/-- HBM_SECOND_LOSS (14 R349). -/
def hbmSecondLoss : Nat := 0x2083
/-- PORT_DOWN (15 R373). -/
def portDown : Nat := 0x2090
/-- PORT_UP (15 R373). -/
def portUp : Nat := 0x2091
/-- PATH_DOWN (15 R373). -/
def pathDown : Nat := 0x2092
/-- PEER_LOST (15 R373). -/
def peerLost : Nat := 0x2093
/-- EPOCH_CHANGE (15 R373). -/
def epochChange : Nat := 0x2094
/-- STREAM_MIGRATED (15 R373). -/
def streamMigrated : Nat := 0x2095
/-- HANDOFF_LATE (15 R373). -/
def handoffLate : Nat := 0x2096
/-- PTP_UNLOCKED (15 R373). -/
def ptpUnlocked : Nat := 0x2097
/-- WEIGHTS_STAGED (16 R386). -/
def weightsStaged : Nat := 0x20A0
/-- SWAP_BARRIER (16 R386). -/
def swapBarrier : Nat := 0x20A1
/-- SWAP_RELEASED (16 R386). -/
def swapReleased : Nat := 0x20A2
/-- WEIGHT_COPY_DONE (16 R386). -/
def weightCopyDone : Nat := 0x20A3
/-- FEED_LOST (17 R404). -/
def feedLost : Nat := 0x20B0
/-- FEED_RESTORED (17 R404). -/
def feedRestored : Nat := 0x20B1
/-- RIDE_THROUGH (17 R404). -/
def rideThrough : Nat := 0x20B2
/-- RIDE_END (17 R404). -/
def rideEnd : Nat := 0x20B3
/-- PRESERVE_RESUMED (17 R404). -/
def preserveResumed : Nat := 0x20B4
/-- FIELD_TRIP (17 R404). -/
def fieldTrip : Nat := 0x20B5
/-- REG_PHASE_LOST (17 R404). -/
def regPhaseLost : Nat := 0x20B6
/-- SUSPECTED_BOND_CRACK (17 R404). -/
def suspectedBondCrack : Nat := 0x20B7
/-- HUM_CHANGED (17 R404). -/
def humChanged : Nat := 0x20B8
/-- HUM_REPLACE (17 R404). -/
def humReplace : Nat := 0x20B9
/-- OSC_UNLOCK (18 R418). -/
def oscUnlock : Nat := 0x20C0
/-- OSC_RELOCK (18 R418). -/
def oscRelock : Nat := 0x20C1
/-- OSC_INJECT_LOST (18 R418). -/
def oscInjectLost : Nat := 0x20C2
/-- FREQ_CHANGED (18 R418). -/
def freqChanged : Nat := 0x20C3
/-- THERMAL_THROTTLE (18 R418). -/
def thermalThrottle : Nat := 0x20C4
/-- FIELD_OVERTEMP (18 R418). -/
def fieldOvertemp : Nat := 0x20C5
/-- SENSOR_FAULT (18 R418). -/
def sensorFault : Nat := 0x20C6
/-- COOLANT_RANGE (18 R418). -/
def coolantRange : Nat := 0x20C7
/-- COOLANT_LOST (18 R418). -/
def coolantLost : Nat := 0x20C8
/-- STAGE_REACHED (19 R430). -/
def stageReached : Nat := 0x20D0
/-- BRINGUP_STALLED (19 R430). -/
def bringupStalled : Nat := 0x20D1
/-- PSTATE_CHANGED (19 R430). -/
def pstateChanged : Nat := 0x20D2
/-- WAKE_ABANDONED (19 R430). -/
def wakeAbandoned : Nat := 0x20D3
/-- TILE_DEAD (20 R450). -/
def tileDead : Nat := 0x20E0
/-- TILE_QUARANTINED (20 R450). -/
def tileQuarantined : Nat := 0x20E1
/-- TILE_SUBSTITUTED (20 R450). -/
def tileSubstituted : Nat := 0x20E2
/-- TILE_RETIRED (20 R450). -/
def tileRetired : Nat := 0x20E3
/-- WSRAM_UNCORRECTABLE (20 R450). -/
def wsramUncorrectable : Nat := 0x20E4
/-- RIM_CORE_LOST (20 R450). -/
def rimCoreLost : Nat := 0x20E5
/-- JOURNAL_PACKAGE_LOST (20 R450). -/
def journalPackageLost : Nat := 0x20E6
/-- ISSUE_RESUMED (20 R450). -/
def issueResumed : Nat := 0x20E7
/-- DOUBLE_FAULT (20 R450). -/
def doubleFault : Nat := 0x20E8
/-- FW_FALLBACK (21 R468). -/
def fwFallback : Nat := 0x20F0
/-- KEY_ENROLLED (21 R468). -/
def keyEnrolled : Nat := 0x20F1
/-- KEY_REVOKED (21 R468). -/
def keyRevoked : Nat := 0x20F2
/-- MIN_SVN_RAISED (21 R468). -/
def minSvnRaised : Nat := 0x20F3
/-- ASSOC_AUTH_FAILED (21 R468). -/
def assocAuthFailed : Nat := 0x20F4
/-- EVT_SOFTWARE (13 R322). -/
def evtSoftware : Nat := 0x2070
/-- QUEUE_NOTIFY (13 R322). -/
def queueNotify : Nat := 0x2071
/-- AON_EDGE (13 R322). -/
def aonEdge : Nat := 0x2072
/-- W1C_SET (13 R322). -/
def w1cSet : Nat := 0x2073
/-- UNMAPPED_ACCESS (01 R34). -/
def unmappedAccess : Nat := 0x2112

end Rc

namespace St

/-- SUCCESS (12 R315). -/
def success : Nat := 0x0000
/-- OPCODE_UNKNOWN (12 R315). -/
def opcodeUnknown : Nat := 0x0001
/-- PARAM_RESERVED (12 R315). -/
def paramReserved : Nat := 0x0002
/-- PARAM_RANGE (12 R315). -/
def paramRange : Nat := 0x0003
/-- NOT_PERMITTED (12 R315). -/
def notPermitted : Nat := 0x0004
/-- NOT_READY (12 R315). -/
def notReady : Nat := 0x0005
/-- POWER_STATE (12 R315). -/
def powerState : Nat := 0x0006
/-- MODE_HOST (12 R315). -/
def modeHost : Nat := 0x0007
/-- MODE_DEVICE (12 R315). -/
def modeDevice : Nat := 0x0008
/-- UNMAPPED_ADDRESS (12 R315). -/
def unmappedAddress : Nat := 0x0009
/-- WRITE_PROTECTED (12 R315). -/
def writeProtected : Nat := 0x000A
/-- TILE_REBUILDING (12 R315). -/
def tileRebuilding : Nat := 0x000B
/-- UNCORRECTABLE (12 R315). -/
def uncorrectable : Nat := 0x000C
/-- IMAGE_REFUSED (12 R315). -/
def imageRefused : Nat := 0x0010
/-- IMAGE_STOPPED (12 R315). -/
def imageStopped : Nat := 0x0011
/-- PATCH_OVERLAP (12 R315). -/
def patchOverlap : Nat := 0x0012
/-- NO_IMAGE (12 R315). -/
def noImage : Nat := 0x0013
/-- SEED_ALIAS (12 R315). -/
def seedAlias : Nat := 0x0014
/-- SEED_MISSING (12 R315). -/
def seedMissing : Nat := 0x0015
/-- LOUPE_RANGE (12 R315). -/
def loupeRange : Nat := 0x0016
/-- NOT_STAGED (12 R315). -/
def notStaged : Nat := 0x0017
/-- STREAM_UNKNOWN (12 R315). -/
def streamUnknown : Nat := 0x0020
/-- STREAM_LIMIT (12 R315). -/
def streamLimit : Nat := 0x0021
/-- TENANT_LIMIT (12 R315). -/
def tenantLimit : Nat := 0x0022
/-- DRAM_CAPACITY (12 R315). -/
def dramCapacity : Nat := 0x0023
/-- CONTEXT_FULL (12 R315). -/
def contextFull : Nat := 0x0024
/-- TOKEN_RANGE (12 R315). -/
def tokenRange : Nat := 0x0025
/-- BUSY (12 R315). -/
def busy : Nat := 0x0026
/-- EMPTY_STREAM (12 R315). -/
def emptyStream : Nat := 0x0027
/-- NOT_ACTIVE (12 R315). -/
def notActive : Nat := 0x0028
/-- PREFIX_UNKNOWN (12 R315). -/
def prefixUnknown : Nat := 0x0029
/-- PREFIX_EXISTS (12 R315). -/
def prefixExists : Nat := 0x002A
/-- WAVE_REFUSED (12 R315). -/
def waveRefused : Nat := 0x002B
/-- QUEUE_INVALID (12 R315). -/
def queueInvalid : Nat := 0x0030
/-- QUEUE_IN_USE (12 R315). -/
def queueInUse : Nat := 0x0031
/-- PEER_UNREACHABLE (12 R315). -/
def peerUnreachable : Nat := 0x0040
/-- AUTH_FAILED (12 R315). -/
def authFailed : Nat := 0x0050

end St

/-- Packs fields (low bit, width, value) into one number (00 R5). -/
def pack : List (Nat × Nat × Nat) → Nat
  | [] => 0
  | (lo, w, v) :: fs => v % 2 ^ w * 2 ^ lo + pack fs

end Sys2Proof.Machine
end

