-- ==== Sys2Proof/Config.lean ====
section
/-! DEFINITION. What the spec leaves free or takes from a named standard as an uninterpreted function, and the fixed sizes of the part. An opaque constant has no body: no proof can see a value of it. -/
namespace Sys2Proof.Config

/-- A fresh value for draws the spec leaves to the firmware's own generator (11 R288) and for nonces (21 R458, R464), applied to the counter `freeCtr` of the state. DESIGN CHOICE: a free value, log entry 3. -/
opaque freeWord : Nat → BitVec 64

/-- The error, in units in the last place from −2 to +2 (value minus 2), of EXP, LOG, RECIP, RSQRT, SIGMOID and SILU on an operand (06 R157). Free within the bound; log entry 5. -/
opaque ulpError : Nat → BitVec 32 → Fin 5

/-- The F32 code of a facet function on an operand for which the spec states no result (the logarithm of 0 or of a negative number, the reciprocal of 0, the exponential of +∞ ...): function code and operand code (06 R157). DESIGN CHOICE: a free value, log entry 17. -/
opaque freeFacet : Nat → BitVec 32 → BitVec 32

/-- Whether a quotient that a register or a counter holds in whole units, and whose rounding the spec does not state, is rounded up: what it is, numerator, denominator. DESIGN CHOICE: free, log entry 50. -/
opaque roundsUp : Nat → Int → Int → Bool

/-- The value of a quantity for which the spec states none (a resistance outside its register, a quotient by 0): what it is, and what it is taken from. DESIGN CHOICE: free, log entry 50. -/
opaque freeReading : Nat → Int → Nat

/-- Where the sensor registers lie in the tile control page (01 R31), whose layout the spec does not give: the byte of the voltage (true) or temperature reading that an offset outside the registers of 06 R140 shows; none where it is reserved. DESIGN CHOICE: free, log entry 107. -/
opaque sensorAt : Nat → Option (Bool × Nat)

/-- ML-DSA-87 verification (FIPS 204): key, message, signature (08 R198, 16 R374, 21). Log entry 7. -/
opaque mldsaVerify : List (BitVec 8) → List (BitVec 8) → List (BitVec 8) → Bool

/-- The signature of Alahorn's manufacturing key over a factory record (19 R421). Log entry 7. -/
opaque factorySign : List (BitVec 8) → List (BitVec 8)

/-- The SPDM request selects an entry that the W36 offers (21 R459); DSP0274, which lays the message down, is not in the spec. Log entry 8. -/
opaque spdmSelects : List (BitVec 8) → Bool

/-- ML-DSA-87 signature of the device's identity key over a message (21 R451, R459). Log entry 7. -/
opaque mldsaSign : List (BitVec 8) → List (BitVec 8) → List (BitVec 8)

/-- The SHAKE256 value of the boot ROM (21 R460 block 1). Log entry 7. -/
opaque bootRomHash : List (BitVec 8)

/-- The SHAKE256 value of the rim firmware image with which the part left manufacture (21 R460 block 2). Log entry 7. -/
opaque factoryFirmwareHash : List (BitVec 8)

/-- The hash of Alahorn's firmware key that the boot ROM holds (21 R453). Log entry 7. -/
opaque firmwareKeyHash : List (BitVec 8)

/-- The certificates of Alahorn's root and manufacturing intermediate (21 R458). Log entry 7. -/
opaque rootCert : List (BitVec 8)

/-- As `rootCert`, the intermediate. -/
opaque intermediateCert : List (BitVec 8)

/-- The ML-KEM-1024 ciphertext or key that a step of a key exchange sends, from a free counter (21 R461). Log entry 7. -/
opaque kemBytes : Nat → List (BitVec 8)

/-- Bytes a response carries that DSP0274, DSP0240 or DSP0236 lay down and this spec does not: message, counter (21 R458, R465). Log entry 8. -/
opaque standardBytes : Nat → List (BitVec 8) → List (BitVec 8)

/-- A sensor value that PLDM monitoring reports beyond the registers (21 R465). Log entry 8. -/
opaque pldmBytes : Nat → List (BitVec 8)

/-- The layout of a telemetry record, which the spec does not give (19 R427): what it holds, byte. Log entry 9. -/
opaque telemetryByte : List Nat → Nat → BitVec 8

/-- The layout of the reply buffer of INCLUSION_REPORT, which the spec does not give (05 R136): stage, field index, value. Log entry 9. -/
opaque reportBytes : Nat → List Nat → List (BitVec 8)

/-- The 16-bit CRC of a flit, whose polynomial the spec does not give (07 R171): data, channel or destination, traffic class, sequence number. Log entry 111. -/
opaque flitCrc : List (BitVec 8) → Nat → Nat → Nat → BitVec 16

/-- What the meter of FEED_A, FEED_B or the bus (0, 1, 2) shows at a tick, in mV: free (17 R403, log entry 78). -/
opaque supplyMv : Nat → Nat → BitVec 16

/-- The temperature that a stack reports at a tick, in °C: free (14 R348, log entry 78). -/
opaque stackTemp : Nat → Nat → BitVec 8

/-- The rim channel input of the first stage in a single-segment system, whose format the spec does not give (15 R364): column, token, position. Log entry 9. -/
opaque rimInput : Nat → Nat → Nat → List (BitVec 8)

/-- Tiles: columns × rows (01 R13). -/
def tileCols : Nat := 180
/-- Rows of tiles (01 R13). -/
def tileRows : Nat := 192
/-- Weight store bytes (01 R24). -/
def weightBytes : Nat := 2097152
/-- Working SRAM bytes (01 R25). -/
def sramBytes : Nat := 0x60000
/-- Start of the table file, end of the general region (01 R25). -/
def tableBase : Nat := 0x50C00
/-- Block accumulator entries of a tile (03 R70). -/
def accEntries : Nat := 8192
/-- End of DRAM without a stack loss (01 R30). -/
def dramEnd : Nat := 0x6000000000
/-- End of DRAM after a stack loss (14 R346). -/
def dramEndLost : Nat := 0x5800000000
/-- Start of the yielding range (14 R344). -/
def yieldBase : Nat := 0x5800000000
/-- Queue pairs (12 R303). -/
def queuePairs : Nat := 16384
/-- Where queue pair 0's submission ring of 16 entries lies in rim SRAM, its completion ring of 16 behind it: the spec gives neither place nor size (12 R303). DESIGN CHOICE, log entry 25. -/
def zeroRings : Nat := 0x200010000000
/-- Event rings (13 R323). -/
def eventRings : Nat := 4096
/-- Stream table entries (11 R273). -/
def streamCount : Nat := 32768
/-- Tenants. -/
def tenantCount : Nat := 4096
/-- 25 MHz ticks in a second (11 R280). -/
def ticksPerSecond : Nat := 25000000

end Sys2Proof.Config
end

