-- ==== Sys2Proof/Machine/AMap.lean ====
section
/-! DEFINITION. Sparse maps as lists of (key, value) pairs in one canonical form: keys strictly rising, no value equal to what an unlisted key reads as. -/
namespace Sys2Proof.Machine.AMap

/-- The value at a key; `d` where the key is not listed. -/
def get {α : Type} (d : α) : List (Nat × α) → Nat → α
  | [], _ => d
  | p :: m, k => if p.1 = k then p.2 else get d m k

/-- The value at a key, if it is listed. -/
def find {α : Type} : List (Nat × α) → Nat → Option α
  | [], _ => none
  | p :: m, k => if p.1 = k then some p.2 else find m k

/-- Lists a value at a key, keeping the keys in rising order. -/
def insert {α : Type} (k : Nat) (v : α) : List (Nat × α) → List (Nat × α)
  | [] => [(k, v)]
  | p :: m => if k < p.1 then (k, v) :: p :: m else if p.1 = k then (k, v) :: m else p :: insert k v m

/-- Takes a key out. -/
def erase {α : Type} (k : Nat) : List (Nat × α) → List (Nat × α)
  | [] => []
  | p :: m => if p.1 = k then erase k m else p :: erase k m

/-- Writes a value at a key; writing what an unlisted key reads as takes the entry out. -/
def set {α : Type} [DecidableEq α] (d : α) (m : List (Nat × α)) (k : Nat) (v : α) : List (Nat × α) :=
  if v = d then erase k m else insert k v m

/-- Changes the value at a key. -/
def modify {α : Type} [DecidableEq α] (d : α) (m : List (Nat × α)) (k : Nat) (f : α → α) : List (Nat × α) :=
  set d m k (f (get d m k))

/-- Every key of the map is above `k`. -/
def above {α : Type} (k : Nat) (m : List (Nat × α)) : Bool := m.all (fun p => decide (k < p.1))

/-- The canonical form. -/
def wf {α : Type} [DecidableEq α] (d : α) : List (Nat × α) → Bool
  | [] => true
  | p :: m => above p.1 m && decide (p.2 ≠ d) && wf d m

end Sys2Proof.Machine.AMap

namespace Sys2Proof.Machine

/-- The byte of a sparse memory at an address; a byte nothing has written reads 0x00 (DESIGN CHOICE, log entry 1). -/
def memGet (m : Mem) (a : Nat) : Byte := AMap.get 0 m a

/-- Writes one byte. -/
def memSet (m : Mem) (a : Nat) (b : Byte) : Mem := AMap.set 0 m a b

/-- Reads `n` bytes from an address. -/
def memRead (m : Mem) (a : Nat) : Nat → List Byte
  | 0 => []
  | n + 1 => memGet m a :: memRead m (a + 1) n

/-- The cells of bytes from an address: those that are not 0x00. -/
def cellsOf (a : Nat) : List Byte → Mem
  | [] => []
  | b :: bs => if b = 0 then cellsOf (a + 1) bs else (a, b) :: cellsOf (a + 1) bs

/-- Replaces the `n` bytes from address `a` by those of `cells`, which lie there in rising order. -/
def memSplice (m : Mem) (a n : Nat) (cells : Mem) : Mem :=
  m.filter (fun e => e.1 < a) ++ cells ++ m.filter (fun e => a + n ≤ e.1)

/-- Writes bytes from an address. -/
def memWrite (m : Mem) (a : Nat) (bs : List Byte) : Mem := memSplice m a bs.length (cellsOf a bs)

/-- The little-endian number of `n` bytes (00 R5). -/
def memNat (m : Mem) (a n : Nat) : Nat := leNat (memRead m a n)

/-- The canonical form of a memory. -/
abbrev Mem.wf (m : Mem) : Bool := AMap.wf (0 : Byte) m

/-- Inserts by an order that says which of two comes first. -/
def insertBy {α : Type} (before : α → α → Bool) (x : α) : List α → List α
  | [] => [x]
  | y :: ys => if before x y then x :: y :: ys else y :: insertBy before x ys

/-- Sorts by an order; of two that tie the earlier stays first. -/
def sortBy {α : Type} (before : α → α → Bool) (xs : List α) : List α := xs.foldl (fun acc x => insertBy before x acc) []

end Sys2Proof.Machine
end

