-- ==== Sys2Proof/Machine/State.lean ====
section
/-! DEFINITION. The state of the W36 as plain data: every register (by field), the rings, the memories, the tiles, the mesh, the images, the serving loop, the weights in transit, power, fabric and security, and the queue of waiting commands. Each field cites the rule of spec/ that names it. -/
namespace Sys2Proof.Machine

/-- Why the block would stop. No command of the model ends so: every fault of the spec is a record and a state the part goes on from (06 R164, 20 R431). The type is kept for the interface; nobody raises `none_`; safe. -/
inductive Fault where
  /-- raised by no command; safe -/
  | none_
  deriving DecidableEq, Repr

/-- Why a command would have no meaning. -/
inductive Refusal where
  /-- raised by an arm of exec whose command has no meaning yet; safe -/
  | notModelled (mnemonic : String)
  deriving DecidableEq, Repr

/-- Every register field of BAR0 that is not at its reset value, keyed by 64 × byte offset + low bit (22 R470, R473). -/
abbrev RegFile := List (Nat × Nat)

/-- An occurrence of a shared source raised in the present cycle (13 R320–R322), with the fields its records carry (20 R442). -/
structure Occ where
  code : Nat
  detail : Nat := 0
  /-- 0 event, 1 data fault, 2 image fault, 3 status -/
  cls : Nat := 0
  source : Nat := 1
  ltile : Nat := 0xFFFF
  ptile : Nat := 0xFFFF
  desc : Nat := 0xFFFF
  sect : Nat := 31
  stage : Nat := 0x3FF
  field : Nat := 63
  stream : Option Nat := none
  addr : Nat := 0
  unitKind : Nat := 0
  unit : Nat := 0xFFFF
  outcome : Nat := 0
  /-- the ring of a queue pair's notification (13 R328) -/
  notify : Option Nat := none
  /-- the BAR0 offset of a W1C_SET record (13 R333) -/
  word : Option Nat := none
  /-- the first-edge tick of an AON_EDGE record (13 R332) -/
  edgeTick : Option Nat := none
  /-- the beat that the record names, where it is not the present one (05 R495) -/
  beat : Option Nat := none
  deriving DecidableEq, Repr

/-- A record of the fault log (20 R442). -/
structure FaultRec where
  occ : Occ
  beat : Nat
  imageEpoch : Nat
  weightVersion : Nat
  repeats : Nat
  tick : Nat
  deviceTime : Nat
  index : Nat
  deriving DecidableEq, Repr

/-- What leaves the block at its pins and links, in order. -/
inductive Out where
  | msix (vector : Nat)
  | rimLine (core line : Nat)
  | mctp (type : Nat) (bytes : List Byte)
  | pcieData (bytes : List Byte)
  | pcieUnsupported
  | pcieAbort
  | pciePoison (bytes : List Byte)
  /-- the completion of an access by a requester inside the device: status and bytes -/
  | busData (status : Nat) (bytes : List Byte)
  | stepSyncOut
  | alertN (low : Bool)
  /-- a Narlas packet: port, header and payload; its tag is that of the key the header names (15 R354) -/
  | packet (port : Nat) (hdr : BitVec 256) (payload : List Byte)
  /-- the reply to a PROBE: peer and path (15 R357) -/
  | probeReply (peer path : Nat)
  /-- a message of a key exchange: peer, step, tenant of a session key, bytes (21 R461, R462) -/
  | exchange (peer step : Nat) (tenant : Option Nat) (bytes : List Byte)
  | ctl (peer : Nat) (m : Ctl)
  | portPower (port : Nat) (on : Bool)
  deriving DecidableEq, Repr

/-- What a command names, for the order of commands (12 R309). -/
inductive Obj where
  | stream (i : Nat)
  | handle (owner h : Nat)
  | tenant (t : Nat)
  deriving DecidableEq, Repr

/-- A command that has started and is not complete, or waits to start (12 R309, R310). -/
structure Job where
  op : Nat
  req : Rhoic
  /-- the objects it names: streams, prefix handles, tenants (12 R309) -/
  objs : List Obj := []
  /-- the submission head after the fetch (12 R300) -/
  sqHead : Nat := 0
  /-- its place in the order of fetches -/
  ord : Nat := 0
  /-- it has taken effect in the sense of R309 -/
  effective : Bool := false
  phase : Nat := 0
  arg : Nat := 0
  arg2 : Nat := 0
  deriving DecidableEq, Repr

/-- Rings, records, PCIe, management and pins. -/
structure Io where
  /-- per queue pair: groups of records that wait for their ring (12 R311) -/
  qpWaiting : List (Nat × List (List Rec))
  /-- per queue pair: passes of its completion ring (12 R302) -/
  qpPass : List (Nat × Nat)
  /-- per queue pair: tick since when a command waits unfetched (12 R306) -/
  qpSince : List (Nat × Nat)
  /-- per class: the pair served last (12 R306) -/
  qpTurn : List (Nat × Nat)
  /-- commands fetched so far, over all pairs -/
  cmdSeq : Nat
  deferred : List Job
  running : List Job
  /-- per event ring: passes, and records lost since the last record written (13 R322, R323) -/
  ringPass : List (Nat × Nat)
  ringLost : List (Nat × Nat)
  pcieUp : Bool
  perst : Bool
  alertLow : Bool
  eids : List (Nat × Nat)
  outbox : List Out
  deriving DecidableEq, Repr

/-- An allocated DRAM range (14 R344): 0 page table, 1 residual rows, 2 history, 3 region, 4 rebuild buffer, 5 staging, 6 device structure (owner 0 telemetry ring, 1 stream table, 2 fault log, 3 stripe array, 4 reserve map). -/
structure Alloc where
  base : Nat
  size : Nat
  kind : Nat
  owner : Nat
  deriving DecidableEq, Repr

/-- The device's memories outside the tiles. -/
structure Memory where
  dram : Mem
  hostMem : Mem
  rimSram : Mem
  /-- the 512 KiB of private SRAM of each rim core, by core; only the core itself reaches it (01 R26) -/
  coreSram : List (Nat × Mem)
  /-- 64-byte lines, by address, that the outer code cannot correct; true when poisoned (14 R340, R341) -/
  lineBad : List (Nat × Bool)
  /-- after a stack loss (14 R347): every line outside the mirror that lay on the lost stack is poisoned, but for these, which have been rewritten whole since -/
  lostLines : Option (List Nat)
  /-- lanes of the stacks that lane repair replaces since this bring-up's stage B5: (stack, lane) (14 R335) -/
  laneMap : List (Nat × Nat)
  allocs : List Alloc
  /-- per 64 KiB KV granule in use: its owner (10 R240) -/
  frames : List (Nat × Nat)
  faultLog : List FaultRec
  faultTick : Nat
  deriving DecidableEq, Repr

/-- The accumulation class of an entry or partial (04 R93). -/
inductive AccClass where
  | integer
  | f8a
  | antilog
  | windowed
  | log
  deriving DecidableEq, Repr

/-- A block accumulator entry (04 R92, R101): significand, exponent, tag, class, and for the log class the 20 levels of its counter. `sig` none: no partial has reached it yet. -/
structure Entry where
  sig : Option Int := none
  exp : Int := 0
  tag : Nat := 0
  cls : AccClass := .integer
  isOpen : Bool := false
  masked : Bool := false
  /-- the root of a maximum or minimum tree holds 1 +∞ or 3 NaN (04 R105); −∞ is `masked` -/
  special : Nat := 0
  levels : List (Option Nat) := []
  deriving DecidableEq, Repr

/-- A partial as it travels (04 R105): value, tag, kind, and for a maximum or minimum its index and value class. -/
structure Partial where
  sig : Int
  exp : Int
  tag : Nat
  kind : Nat
  idx : Nat := 0
  vclass : Nat := 0
  deriving DecidableEq, Repr

/-- A token of a tile and the transfer it names (06 R145, R147, 07 R187–R189). -/
structure Tok where
  done : Bool
  /-- opcode of the transfer -/
  op : Nat
  /-- local range; for residual transfers the channel range -/
  lo : Nat
  len : Nat
  writesLocal : Bool
  resid : Bool
  queue : Nat
  devLo : Nat
  devLen : Nat
  devWrite : Bool
  /-- channel of SEND and RECV; order of issue -/
  chan : Nat
  seq : Nat
  /-- the descriptor, run when the data moves -/
  desc : Nat
  descIdx : Nat
  /-- device address of a line that could not be corrected (07 R190) -/
  bad : Option Nat
  /-- device lines that its queue reads or writes, fixed at issue (07 R188, 10 R250) -/
  lines : List Nat := []
  /-- lines that have left as packets, and those that have been answered (07 R188) -/
  sent : Nat := 0
  answered : Nat := 0
  deriving DecidableEq, Repr

/-- A column of a wave record (06 R140). -/
structure Col where
  valid : Bool := false
  stream : Nat := 0
  rank : Nat := 0
  residSlot : Nat := 0
  position : Nat := 0
  residBase : Nat := 0
  deriving DecidableEq, Repr

/-- The valid table set of the table file (03 R71). -/
structure TableSet where
  xBase : Nat
  xLen : Nat
  /-- the K for which it was built; the tables of groups beyond it hold zeros -/
  k : Nat
  xFmt : Nat
  cols : Nat
  shape : Nat
  /-- the columns that were valid when it was built, a bit each -/
  valid : Nat
  deriving DecidableEq, Repr

/-- A 4 KiB chunk of a KV page in a tile's cache (10 R249); its bytes are those of DRAM (R250). -/
structure CacheLine where
  frame : Nat
  chunk : Nat
  /-- the 4 KiB of working SRAM that hold it, counted from `data_top` rounded up (10 R249) -/
  slot : Nat
  deriving DecidableEq, Repr

/-- A tile site: its memories, units and sequencer (01 R23). -/
structure Site where
  weights : Mem := []
  sram : Mem := []
  entries : List (Nat × Entry) := []
  /-- residual file, column × 1,024 + channel (05 R119) -/
  resid : List (Nat × Int) := []
  progBase : Nat := 0
  progBytes : Nat := 0
  dataTop : Nat := 0
  /-- 0 idle, 1 running, 2 waiting, 3 stopped (06 R140) -/
  seqState : Nat := 0
  seqSection : Nat := 0
  seqIndex : Nat := 0
  /-- section entries still to run in this beat -/
  todo : List Nat := []
  /-- token, or tree, that the sequencer waits for (06 R145, R155) -/
  waitTok : Option Nat := none
  waitTree : Option Nat := none
  waitEnd : Bool := false
  tokens : List (Nat × Tok) := []
  tokSeq : Nat := 0
  cols : List Col := []
  stage : Nat := 0
  table : Option TableSet := none
  /-- KV cache, most recently used first -/
  cache : List CacheLine := []
  /-- the last KV_FETCH that filled a local range (10 R252): (local, column, block, first byte in page, layer, bytes), the latest first -/
  kvBind : List (Nat × Nat × Nat × Nat × Nat × Nat) := []
  /-- RECV ranges of the section, for current rows (10 R252) -/
  curBind : List Nat := []
  /-- array cycles the section's products have taken in this beat (03 R85) -/
  cycles : Nat := 0
  /-- a product descriptor has run in this beat (05 R133) -/
  ranProduct : Bool := false
  /-- local offsets of operand and SRAM faults met in the abandoned attempt (06 R167, 20 R437) -/
  lastFaults : List (Nat × Nat) := []
  /-- a girdle tile whose weft array, log lanes, facet unit and sequencer are power-gated (09 R216) -/
  gated : Bool := false
  /-- stripe products with a tap, as (descriptor, stripe) (09 R220, R221 step 2) -/
  taps : List (Nat × Nat) := []
  /-- what the stripe product of a girdle tile in recovery has formed, by row and column: the entry that it adds to, and the exact partials, one per window in the windowed class (09 R220, 04 R115) -/
  exact : List (Entry × List Partial) := []
  deriving DecidableEq, Repr

/-- The wafer: bypass tables, sites and what has been lost on it. -/
structure Wafer where
  /-- 1,152 bypass tables by segment py × 6 + fx (01 R16) -/
  bypass : List (Nat × BitVec 128)
  /-- by packed physical identifier (01 R15); 65,536 + t is the seat at the rim of a lost embedding tile t (09 R237) -/
  sites : List (Nat × Site)
  quarantined : List Nat
  lostTiles : List Nat
  /-- substitutions to take effect at the next boundary: (logical tile, spare site) (01 R20) -/
  subst : List (Nat × Nat)
  /-- members being rebuilt into a spare (01 R35) -/
  rebuilding : List Nat
  /-- (lost tile, reserve tile), in order made (08 R206) -/
  resMap : List (Nat × Nat)
  resPending : List (Nat × Nat)
  /-- lost embedding tiles, whose rows the rim serves from the weight copy in DRAM (09 R237) -/
  served : List Nat
  colCounts : List (Nat × Nat)
  /-- macro columns recorded for a spare at the next stage B4, and those that have one: (site, macro, column) (01 R24, 20 R438) -/
  spareCols : List (Nat × Nat × Nat)
  colMap : List (Nat × Nat × Nat)
  /-- failed signal bonds that a spare bond of their site replaces since this bring-up's stage B4, in the order of the spares: (site, bond) (01 R10) -/
  bondMap : List (Nat × Nat)
  /-- the last reading of each site's voltage sensor in mV and temperature sensor in 0.1 °C (01 R23) -/
  volts : List (Nat × Nat)
  temps : List (Nat × Nat)
  /-- the droop per ampere of field current that stage B4 measured at each site, in µV (17 R394) -/
  droops : List (Nat × Nat)
  /-- fields that have relocked: their stitch links return at the next boundary (18 R407) -/
  relink : List Nat
  scrubNext : List (Nat × Nat)
  sensorOut : List Nat
  bringupTrips : List (Nat × Nat)
  /-- oscillator trim per field (19 R427) -/
  trims : List (Nat × Nat)
  /-- single-bit errors of descriptor fetches that were corrected (06 R138) -/
  descCorr : Nat
  lostFields : List Nat
  deriving DecidableEq, Repr

/-- A flit held on a channel: bytes, whether it ends its SEND, a signal, and for a reduction edge the partials. -/
structure ChFlit where
  bytes : List Byte := []
  last : Bool := false
  signal : Bool := false
  parts : List Partial := []
  /-- how far it has come: the router of its route in whose channel buffer it is, 0 the first; those at 0 beyond what its buffer holds are still with the sender -/
  hop : Nat := 0
  deriving DecidableEq, Repr

/-- A posted RECV. -/
structure Posted where
  tile : Nat
  token : Nat
  loc : Nat
  bytes : Nat
  got : Nat
  arrived : Bool
  deriving DecidableEq, Repr

/-- A channel at work (06 R159, 07 R175–R183). -/
structure Chan where
  flight : List ChFlit := []
  held : List ChFlit := []
  posted : Option Posted := none
  /-- the posted RECV was filled inside a SEND whose later bytes are beyond it -/
  overrun : Bool := false
  /-- partials of a result of which not every flit has arrived -/
  gather : List Partial := []
  /-- the one fixed route, as (sending tile, direction), on which its flits travel as packets while it is detoured (07 R183) -/
  detour : Option (List (Nat × Nat)) := none
  deriving DecidableEq, Repr

/-- A reduction node at work (04 R104, R108): local partials once REDUCE has started, inputs by slot. -/
structure RedBuf where
  /-- the logical tile of the image that the node stands on -/
  tile : Nat
  tree : Nat
  loc : Option (List Partial) := none
  inputs : List (Nat × List Partial) := []
  /-- the REDUCE descriptor that waits for the inputs -/
  desc : Nat := 0
  /-- a tap of a surviving member, for which no descriptor waits (09 R220) -/
  tap : Bool := false
  /-- a node of a recovery tree: the partials are exact, one per window in the windowed class (09 R220) -/
  exact : Bool := false
  deriving DecidableEq, Repr

/-- The sideband of a flit (07 R171): channel number or packet destination, traffic class (0 in a staked slot, else that of R181), sequence number, CRC over data and sideband. -/
structure Sideband where
  dest : Nat
  traffic : Nat
  seq : Nat
  crc : BitVec 16
  deriving DecidableEq, Repr

/-- A link direction: its sender's output and its receiver's port (07 R171-R173, R176, R177, R181, R186, 20 R432). -/
structure Link where
  /-- failed tries of the flit that is being retried, and that flit (07 R173) -/
  inRow : Nat := 0
  retrying : Option FlitKind := none
  /-- ticks of the retries of the last 1 ms, newest first (07 R173) -/
  retries : List Nat := []
  down : Bool := false
  missed : Nat := 0
  /-- the frame counter: the next of the 64 slots (07 R176) -/
  frame : Nat := 0
  /-- sequence number of the next flit, the sideband of the last one, the sender's replay buffer and the receiving port's FIFO, each of 8 flits, newest first (07 R171-R173) -/
  seq : Nat := 0
  side : Option Sideband := none
  replay : List FlitKind := []
  fifo : List FlitKind := []
  /-- round-robin: the port served last, by class (07 R181) -/
  turns : List (Nat × Nat) := []
  /-- class-1 packets served to near destinations since one to a far one (07 R186) -/
  near : Nat := 0
  deriving DecidableEq, Repr

/-- A packet in a router (07 R180, R181, R188): its class, the request or response it is, the tile it comes from, the router it is for, the router it is in and the port it came by: 0 to 3 a link, 4 the tile, 5 the rim. -/
structure Packet where
  id : Nat
  cls : Nat
  src : Nat
  dst : Nat
  request : Bool
  router : Nat
  port : Nat
  deriving DecidableEq, Repr

/-- What the routing tables that rim firmware has applied leave out: link directions, as tile × 4 + direction, and routers (07 R180, R182). -/
structure Tables where
  links : List Nat := []
  routers : List Nat := []
  deriving DecidableEq, Repr

/-- The mesh. -/
structure Mesh where
  chans : List (Nat × Chan)
  redBufs : List RedBuf
  /-- by tile × 4 + direction -/
  links : List (Nat × Link)
  packets : List Packet
  /-- the routing tables in force (07 R180) -/
  tables : Tables
  /-- routing and detour changes for the next boundary (07 R182) -/
  detourPending : List Nat
  deriving DecidableEq, Repr

/-- A tile record of an image (08 R199) with its program. -/
structure TileRec where
  tile : Nat
  role : Nat
  progBase : Nat
  progBytes : Nat
  dataTop : Nat
  wOffset : Nat
  wBytes : Nat
  prog : List Byte
  deriving DecidableEq, Repr

/-- A channel table entry (07 R175). -/
structure ChanRec where
  src : Nat
  dst : Nat
  kind : Nat
  route : Nat
  bufferFlits : Nat
  rimTile : Nat
  stakeMask : Nat
  treeId : Nat
  node : Nat
  hopsOffset : Nat
  hopCount : Nat
  hops : List Nat
  deriving DecidableEq, Repr

/-- A node of a reduction tree (04 R107). -/
structure NodeRec where
  tile : Nat
  parent : Nat
  slot : Nat
  kind : Nat
  device : Nat
  deriving DecidableEq, Repr

/-- A reduction tree (04 R107). -/
structure TreeRec where
  id : Nat
  tag : Nat
  cls : Nat
  wide : Bool
  override : Bool
  fields : Nat
  terms : Nat
  kTotal : Nat
  nodes : List NodeRec
  deriving DecidableEq, Repr

/-- A DRAM region of an image (08 R200) and the base it was given. -/
structure RegionRec where
  num : Nat
  kind : Nat
  size : Nat
  base : Nat
  deriving DecidableEq, Repr

/-- A relocation entry (08 R200). -/
structure RelocRec where
  tile : Nat
  desc : Nat
  region : Nat
  deriving DecidableEq, Repr

/-- A stage entry (09 R217). -/
structure StageRec where
  stage : Nat
  rowFirst : Nat
  rowLast : Nat
  stripeFirst : Nat
  stripeCount : Nat
  deriving DecidableEq, Repr

/-- A stripe record (09 R218): members, then girdle tiles, as (tile, descriptor). -/
structure StripeRec where
  stripe : Nat
  stage : Nat
  wFmt : Nat
  treeId : Nat
  members : List (Nat × Nat)
  girdle : List (Nat × Nat)
  deriving DecidableEq, Repr

/-- A tokeniser (11 R277). -/
structure TokRec where
  vocab : List (List Byte)
  merges : List (Nat × Nat × Nat)
  stopTok : Option Nat
  deriving DecidableEq, Repr

/-- A generator consumer (05 R124): tile, generator, stream, descriptor index, seed. -/
structure Consumer where
  tile : Nat
  rng : Nat
  rngStream : Nat
  desc : Nat
  seed : Word
  deriving DecidableEq, Repr

/-- The KV geometry of a layer (10 R240). -/
structure KvGeom where
  layer : Nat
  r : Nat
  pageBytes : Nat
  fmt : Nat
  deriving DecidableEq, Repr

/-- A parsed Granath image (08 R195–R200). -/
structure Image where
  modelId : Nat := 0
  weightVersion : Nat := 0
  beatCycles : Nat := 1024
  stagesM1 : Nat := 0
  w18 : Bool := false
  seed : List Byte := []
  signer : List Byte := []
  /-- SHAKE256 of header and directory, the key of its epoch (10 R262) -/
  hash : List Byte := []
  layoutHash : List Byte := []
  tiles : List TileRec := []
  chans : List ChanRec := []
  trees : List TreeRec := []
  regions : List RegionRec := []
  relocs : List RelocRec := []
  reserve : List Nat := []
  stages : List StageRec := []
  stripes : List StripeRec := []
  tok : Option TokRec := none
  consumers : List Consumer := []
  kv : List KvGeom := []
  /-- the weights section (08 R197), bytes by offset -/
  weights : Mem := []
  weightsLen : Nat := 0
  /-- reduction of more than 2^24 terms, by layer stage (05 R131) -/
  loupeOut : List Nat := []
  /-- reserve tiles assigned at load, as (tile, reserve tile) (08 R201 step 6) -/
  resMap : List (Nat × Nat) := []
  deriving DecidableEq, Repr

/-- A stripe at work (09 R223–R231). -/
structure Stripe where
  /-- 0 PROTECTED, 1 RECOVERING, 2 UNPROTECTED, 3 LOST -/
  state : Nat := 0
  /-- lost member: index in members ++ girdle -/
  lost : Option Nat := none
  /-- 0 none, 1 spare, 2 girdle tile 0 by buffer -/
  target : Nat := 0
  nextChunk : Nat := 0
  complete : Bool := false
  buffer : List (Nat × List Byte) := []
  /-- data members hosted in girdle tiles: (member, girdle tile) (09 R229, R232) -/
  hosted : List (Nat × Nat) := []
  audited : Nat := 0
  reaudit : Bool := false
  /-- a page of the lost member is rewritten in place (09 R230) -/
  pageRepair : Bool := false
  /-- RECOVERING, with the stage still to run in recovery from the next boundary on (09 R221 step 6, R230) -/
  waits : Bool := false
  /-- girdle tiles that do not hold their planes, as indices in members ++ girdle (09 R225) -/
  out : List Nat := []
  /-- the parity does not add up and the weight copy cannot settle it (09 R231) -/
  unsettled : Bool := false
  deriving DecidableEq, Repr

/-- Statistics of a stage (05 R128, R136). -/
structure StageStat where
  requantised : Nat := 0
  saturations : Nat := 0
  clamps : Nat := 0
  nonfinite : Nat := 0
  passed : Nat := 0
  failed : Nat := 0
  skipped : Nat := 0
  deriving DecidableEq, Repr

/-- A sample of the inclusion monitor as the tile sends it to its checker (05 R133): the beat, the descriptor, up to eight rows of one column, the sampled weight bytes and activation or log-input bytes at their places, and the tile's own block partial of each row as (significand, exponent); none for a row that the block masks. -/
structure Sample where
  beat : Nat
  desc : Nat
  row : Nat
  rows : Nat
  col : Nat
  weights : Mem
  sram : Mem
  stride : Nat
  parts : List (Option (Int × Int))
  deriving DecidableEq, Repr

/-- Images and what stands on them. -/
structure Img where
  loaded : Option Image
  active : Option Image
  /-- 0 none, 1 active, 2 stopped mirrors IMAGE_STATE; true while ACTIVATE_IMAGE drains or writes -/
  activating : Bool
  /-- the image that is being activated stands on the tiles; its first beat has not started (08 R202 steps 3 to 5) -/
  placed : Bool
  everActive : Bool
  /-- model and weight version under which the streams last ran (08 R209) -/
  model : Option (Nat × Nat)
  /-- (hash, epoch) pairs (10 R262) -/
  epochs : List (List Byte × Nat)
  nextEpoch : Nat
  stripes : List (Nat × Stripe)
  /-- per tile and stage it serves, as tile × 1,024 + stage (05 R128) -/
  stats : List (Nat × StageStat)
  /-- per tile: beats in which it ran a product (05 R133) -/
  prodBeats : List (Nat × Nat)
  /-- per tile: its outstanding sample -/
  samples : List (Nat × Sample)
  /-- per tile: samples taken so far, which choose the descriptor in turn (05 R133) -/
  sampleTurn : List (Nat × Nat)
  /-- seeds registered by the host: key tile, rng, stream (05 R126) -/
  seeds : List (Nat × Word)
  /-- PATCH in progress: (region, new base) -/
  patching : Option (Nat × Nat)
  /-- the beat at whose boundary the last switch beat was chosen (09 R229) -/
  lastSwitchBeat : Option Nat
  /-- recovery trees and channels of recovering stripes as they are now, by tree and channel number (09 R221 steps 3 and 5) -/
  treeEdits : List (Nat × TreeRec)
  chanEdits : List (Nat × ChanRec)
  /-- the stage whose switch beat runs (09 R229) -/
  switching : Option Nat
  /-- the first image fault since the last boundary: code, tile, descriptor (08 R208) -/
  stop : Option (Nat × Nat × Nat)
  deriving DecidableEq, Repr

/-- Stream states (11 R274). -/
inductive SState where
  | idle
  | prefill
  | generating
  | held
  | ended
  deriving DecidableEq, Repr

/-- A stream table entry that is not FREE (11 R273), with its token history. -/
structure Stream where
  state : SState := .idle
  strict : Bool := false
  persist : Bool := false
  textOut : Bool := false
  kMax : Nat := 0
  kCur : Nat := 0
  missRun : Nat := 0
  backoff : Nat := 0
  cancelPending : Bool := false
  residSlot : Nat := 0
  tenant : Nat := 0
  endReason : Nat := 0
  queue : Nat := 0
  ptBase : Nat := 0
  ptBlocks : Nat := 1
  residBase : Nat := 0
  histBase : Nat := 0
  committed : Nat := 0
  appended : Nat := 0
  genRemaining : Nat := 0
  temperature : BitVec 32 := 0
  topK : Nat := 0
  topP : Nat := 0
  stop0 : Nat := 0xFFFFFFFF
  stop1 : Nat := 0xFFFFFFFF
  sampleSeed : Word := 0
  seq : Nat := 0
  lastCommit : Nat := 0
  genTag : Nat := 0
  history : List Nat := []
  /-- the state before HELD (R274) -/
  prev : SState := .idle
  /-- a GENERATE waits for prefill -/
  genWaits : Bool := false
  closing : Bool := false
  /-- draft tokens of the round (R284), and whether its steps are complete -/
  drafts : List Nat := []
  firstAfterBackoff : Bool := false
  /-- the last round accepted every draft: the draft rows of position `committed` − 1 are not written yet (R284) -/
  allAccepted : Bool := false
  /-- committed positions whose draft rows were never written (R284) -/
  draftGaps : List Nat := []
  /-- the draft length of the round under way -/
  roundK : Nat := 0
  pfx : Option Nat := none
  /-- residual slot saved during recompute (10 R259) -/
  savedSlot : Option Nat := none
  /-- residual rows saved with it (10 R259) -/
  savedRows : Mem := []
  usedGen : Nat := 0
  usedPrefill : Nat := 0
  usedRecompute : Nat := 0
  partner : Option Nat := none
  journalNum : Nat := 0
  /-- journal records not yet acknowledged, oldest first: tokens added, and the deliveries that wait for the acknowledgement (15 R368) -/
  journalQ : List (List Nat × List (List Rec)) := []
  /-- the oldest of them has been sent -/
  journalSent : Bool := false
  /-- the target device of a migration that is under way, and whether the stream has been sent (15 R366) -/
  migrating : Option Nat := none
  migSent : Bool := false
  /-- the device and index from which a stream came that has not taken its state yet (15 R366 step 5) -/
  origin : Option (Nat × Nat) := none
  /-- deliveries that no ring has taken yet, oldest first, for Preserve (17 R400, R401) -/
  unwritten : List (List Rec) := []
  /-- STREAM_SET packets that wait for the end of the wave or round in flight (12 R313, R319) -/
  sets : List (BitVec 512) := []
  deriving DecidableEq, Repr

/-- A page-table entry (10 R242). Owner: stream i as i, prefix p as 65,536 + p. -/
structure Pte where
  owner : Nat
  layer : Nat
  block : Nat
  /-- code of R243 -/
  state : Nat
  cached : Bool := false
  fmt : Nat := 0xF
  pins : Nat := 0
  fill : Nat := 0
  version : Nat := 0
  epoch : Nat := 0
  frame : Nat := 0
  /-- 64 KiB granules of the frame: rim firmware's own note, beside the entry -/
  size : Nat := 0
  deriving DecidableEq, Repr

/-- A prefix record (10 R264). -/
structure Pfx where
  handle : Nat
  owner : Nat
  /-- 0 owner, 1 listed, 2 every tenant -/
  access : Nat
  listed : List Nat
  positions : Nat
  tokens : List Nat
  expiry : Nat
  refs : Nat
  version : Nat
  epoch : Nat
  live : Bool
  ptBase : Nat := 0
  lastCommit : Nat := 0
  recomputing : Bool := false
  residBase : Nat := 0
  residSlot : Nat := 0
  /-- the prefix that its own entries share, whose reference it holds -/
  parent : Option Nat := none
  deriving DecidableEq, Repr

/-- A tenant (11 R279, R280, 12 R314). -/
structure Tenant where
  priority : Nat := 0
  rate : Nat := 0
  burst : Nat := 0
  debt : Nat := 0
  prefillCost : Nat := 64
  maxStreams : Nat := 0
  balance : Int := 0
  carry : Nat := 0
  reserved : Nat := 0
  usedGen : Nat := 0
  usedPrefill : Nat := 0
  usedRecompute : Nat := 0
  throttled : Bool := false
  placed : Bool := false
  deriving DecidableEq, Repr

/-- A column of a wave in flight. -/
structure WCol where
  stream : Nat
  position : Nat
  token : Nat
  rank : Nat
  /-- 0 generation, 1 draft step, 2 prefill, 3 recompute, 4 paired draft column -/
  kind : Nat
  slot : Nat
  deriving DecidableEq, Repr

/-- A wave in flight (11 R271), with the modes it entered under (12 R316). -/
structure Wave where
  draft : Bool
  stage : Nat
  cols : List WCol
  entry : Nat
  version : Nat
  modes : Nat
  /-- reservations made: (stream, amount) (11 R281) -/
  reserve : List (Nat × Nat)
  deriving DecidableEq, Repr

/-- The serving loop. -/
structure Serve where
  streams : List (Nat × Stream)
  ptes : List Pte
  prefixes : List (Nat × Pfx)
  tenants : List (Nat × Tenant)
  waves : List Wave
  replays : List Wave
  /-- tokens sampled in this beat: (draft as 4 + column or column, token) -/
  sampled : List (Nat × Nat)
  /-- issue is held: 0 activation, 1 image stopped, 2 swap, 3 power, 4 fault, 5 patch, 6 loupe, 7 stripe lost, 8 frequency, 9 second loss, 10 cache role, 11 LOST or outside the majority -/
  holds : List Nat
  beatStart : Nat
  beatDelay : Nat
  beatExtra : Nat
  /-- the beat has ended and the next has not started: issue is held at the boundary, or no beat has run -/
  between : Bool
  lastTick : Nat
  /-- mode changes waiting: (mask, value) in start order -/
  modePending : List (Nat × Nat)
  divCount : Nat
  syncLast : Option Nat
  syncGood : Nat
  syncMode : Nat
  /-- the frequency step to which a change under way moves (18 R408) -/
  freqTo : Option Nat
  /-- stages whose wave a fault has abandoned in this beat: (stage, 1 data or 2 image) (06 R164) -/
  faulted : List (Nat × Nat)
  /-- per owner whose lowest DROPPED block is being recomputed: the next position to carry (10 R259) -/
  recPos : List (Nat × Nat)
  /-- pages (owner, layer, block) that a fault of this beat drops at its end, before the replay (10 R257, 14 R340) -/
  dropLater : List (Nat × Nat × Nat)
  /-- streams whose wave met an unreadable page: their columns wait for the pages (10 R260) -/
  missing : List Nat
  deriving DecidableEq, Repr

/-- A weight package that is staged or kept (16 R374). -/
structure Pkg where
  /-- 0 full, 1 partial -/
  kind : Nat
  version : Nat
  /-- (tile, offset in its weight bytes, length, offset of the data in the package) -/
  extents : List (Nat × Nat × Nat × Nat)
  /-- the package's bytes by offset, and how many there are -/
  data : Mem
  bytes : Nat
  deriving DecidableEq, Repr

/-- A FORWARD_WEIGHTS at work (16 R380). -/
structure Fwd where
  peer : Nat
  version : Nat
  chunk : Nat
  sent : Nat := 0
  /-- the peer has reported its STAGE_WEIGHTS -/
  started : Bool := false
  /-- the package that was staged, once the copy-back of a swap has taken it into the weight copy: the forwarding goes on from there (16 R384) -/
  own : Option Pkg := none
  deriving DecidableEq, Repr

/-- Weight distribution and swap (16). -/
structure Wts where
  staged : Option Pkg
  /-- a package on its way: the peer (0xFFFF for a copy from DRAM), and its length once the header is there -/
  arriving : Option (Nat × Nat)
  arrived : Mem
  arrivedLen : Nat
  /-- the package of the last full swap, which the device can forward (R379) -/
  kept : Option Pkg
  /-- the copy-back of R382 runs: uses of the weight copy read the staged package -/
  copyBack : Bool
  /-- the copy of R381 step 3 is done -/
  copied : Bool
  /-- on a segment other than 0: the last step that segment 0 ordered (R383) -/
  order : Nat
  forward : Option Fwd
  deriving DecidableEq, Repr

/-- A configuration record (19 R421): type, `signer_id`, `prev_hash`, body, signature, and the SHAKE256 hash of the whole record. -/
structure ConfRec where
  type : Nat
  signer : List Byte
  prev : List Byte
  body : List Byte
  sig : List Byte
  hash : List Byte
  deriving DecidableEq, Repr

/-- What the journal flash holds of the serving state (17 R399–R401). -/
structure Kept where
  /-- model and weight version of the image that was active -/
  model : Option (Nat × Nat)
  streams : List (Nat × Stream)
  prefixes : List (Nat × Pfx)
  tenants : List (Nat × Tenant)
  epochs : List (List Byte × Nat)
  nextEpoch : Nat
  faults : List FaultRec
  deriving DecidableEq, Repr

/-- Power, clock, cooling and the hold-up module. -/
structure Pwr where
  aonOn : Bool
  feeds : List (Nat × Bool)
  /-- feeds whose input switch an overvoltage has opened (17 R388) -/
  feedOpen : List Nat
  hum : Option Hum
  humAlarm : Bool
  energyJ : Nat
  /-- ride-through: (threshold in 100 µs, start tick) -/
  ride : Option (Nat × Nat)
  unjournaled : Nat
  journal : Kept
  sealed : Option Kept
  packages : List Nat
  /-- the chain of configuration records in journal flash, in ascending sequence from 0 (19 R421) -/
  chain : List ConfRec
  /-- per duty, the core that runs it (20 R439) -/
  duties : List (Nat × Nat)
  /-- the transition to P1, P2 or P3 under way, and whether its barrier stands (19 R425) -/
  transition : Option (Nat × Bool)
  /-- the on-wafer weights are lost: P3 has been entered since they were written (19 R424) -/
  weightsOut : Bool
  /-- regulator phases lost, as (rail, phase) (17 R390) -/
  phaseLost : List (Nat × Nat)
  /-- VLnn setpoint of a field in half mV (17 R391) -/
  vlHalf : List (Nat × Nat)
  /-- forecast at the last Rth update per field -/
  lastForecast : List (Nat × Nat)
  calibrations : Nat
  /-- a double fault of 20 R447 occurred -/
  doubleFault : Bool
  /-- HUM_REPLACE stands (17 R397) -/
  humReplace : Bool
  deriving DecidableEq, Repr

/-- A path of an association (15 R357). -/
structure Path where
  up : Bool := true
  /-- timer expiries in a row -/
  expiries : Nat := 0
  /-- replies in a row of a path that is down, and whether a PROBE is unanswered -/
  replies : Nat := 0
  probed : Bool := false
  /-- the sequence number that the receiver expects next, and the one the sender takes next -/
  nextSeq : Nat := 0
  sendSeq : Nat := 0
  window : Nat := 64
  /-- the tick at which a mark halved the window last -/
  halved : Option Nat := none
  deriving DecidableEq, Repr

/-- What a DATA packet carries (15 R354): class, flow, message, place in it, whether it is the last, the tenant whose session key it uses. -/
structure NBody where
  cls : Nat
  flow : Nat
  msg : Nat
  offset : Nat
  last : Bool
  tenant : Option Nat
  bytes : List Byte
  deriving DecidableEq, Repr

/-- A packet kept until it is acknowledged (15 R355). -/
structure Sent where
  psn : Nat
  path : Nat
  body : NBody
  deriving DecidableEq, Repr

/-- A message being received: flow, number, class, total length if known, received (offset, bytes). -/
structure RxMsg where
  flow : Nat
  num : Nat
  cls : Nat
  tenant : Option Nat
  total : Option Nat
  parts : List (Nat × List Byte)
  deriving DecidableEq, Repr

/-- An association with a peer (15 R355, 21 R461–R463). -/
structure Assoc where
  /-- the association key is in place; the previous one is still tried (21 R461, R463) -/
  keyed : Bool := false
  prevKey : Bool := false
  /-- packets under the present key -/
  packets : Nat := 0
  /-- every packet below `rxNext` has been received, and those of `rxSeen` above it -/
  rxNext : Nat := 0
  rxSeen : List Nat := []
  /-- DATA packets not yet acknowledged to the sender, and an echo of a congestion mark that is due -/
  unacked : Nat := 0
  ceMark : Bool := false
  txPsn : Nat := 0
  /-- packets that wait for a key, a path or a window, in the order of their messages -/
  waiting : List NBody := []
  /-- bytes sent by class 2 to 4, scaled by the shares of 15 R358 -/
  share : List (Nat × Nat) := []
  sent : List Sent := []
  paths : List (Nat × Path) := []
  /-- per flow: number of the next message sent, and of the next message handed on -/
  flows : List (Nat × Nat) := []
  rxFlows : List (Nat × Nat) := []
  msgs : List RxMsg := []
  /-- per flow: the pieces so far of a message longer than a Narlas message (log entry 9) -/
  pieces : List (Nat × List Byte) := []
  reachable : Bool := true
  /-- tenants with a session key (21 R462) -/
  tenantKeys : List Nat := []
  deriving DecidableEq, Repr

/-- A page on its way to a cache device or back (10 R243, R256): its stream, layer and block, the cache device, and the phase: 0 waits for its block, 1 sent or asked for, 2 the cache device has it. -/
structure Moving where
  stream : Nat
  layer : Nat
  block : Nat
  peer : Nat
  back : Bool
  phase : Nat
  deriving DecidableEq, Repr

/-- The fabric. -/
structure Fab where
  table : List (Nat × Member)
  proposal : Option (Nat × List Member)
  acks : List Nat
  /-- a committed epoch and its table, to be applied at the next beat boundary (15 R361) -/
  commitPending : Option (Nat × List Member)
  joining : Option Nat
  leaving : Bool
  assocs : List (Nat × Assoc)
  /-- journals kept for others (15 R368), by src × 32,768 + stream: the last record, the whole history, and how many tokens the record delivered -/
  kept : List (Nat × (JRec × List Nat × Nat))
  /-- transfer records of REMOTE pages: index; cache device, stream, layer, block (10 R242) -/
  transfers : List (Nat × (Nat × Nat × Nat × Nat))
  /-- pages held for others as a cache device (15 R362): device, stream, layer, block; then entry bits, frame and bytes of the page -/
  remote : List ((Nat × Nat × Nat × Nat) × (Nat × Nat × Nat))
  handoffs : List Handoff
  /-- pages on their way to cache devices or back -/
  moving : List Moving
  rolePending : Option Nat
  /-- sampled tokens that the last segment has returned, a list of (column, token) per wave, oldest first (15 R364) -/
  tokensBack : List (List (Nat × Nat))
  /-- per OSFP cage: the kind of its module (0 CR8, 1 DR8, 2 another, 3 none) and the power it needs in W (15 R350, 23 R493) -/
  modules : List (Nat × (Nat × Nat))
  /-- ports that were lost and have come up, with the tick (20 R445 bit 4) -/
  upSince : List (Nat × Nat)
  swapReports : List Nat
  /-- the time since which every PTP offset has been within ±100 ns (15 R359) -/
  lockSince : Option Nat
  deriving DecidableEq, Repr

/-- A firmware slot (21 R453). -/
structure FwSlot where
  valid : Bool := false
  version : Nat := 0
  svn : Nat := 0
  bytes : List Byte := []
  deriving DecidableEq, Repr

/-- What the part holds across every power cycle: firmware slots, image-signing keys, the rollback floor and the identity (21 R451-R455). Only commands of the security group, firmware update and bring-up change it. -/
structure Sec where
  fw : List (Nat × FwSlot)
  /-- the valid image-signing key slots: the public key (21 R455) -/
  keys : List (Nat × List Byte)
  minSvn : Nat
  stepping : Nat
  deviceKey : List Byte
  deviceCert : List Byte
  deriving DecidableEq, Repr

/-- The facts of the part that this bring-up has read (19 R421, 21 R451). -/
structure Meas where
  part : PartInfo
  deriving DecidableEq, Repr

/-- Everything of the block but the queue of waiting commands and the identity. -/
structure Dev where
  tick : Nat
  freeCtr : Nat
  regs : RegFile
  occ : List Occ
  io : Io
  mem : Memory
  wafer : Wafer
  mesh : Mesh
  img : Img
  serve : Serve
  wts : Wts
  pwr : Pwr
  fab : Fab
  meas : Meas
  deriving DecidableEq, Repr

/-- The state of the block. -/
structure State where
  pending : List Instr
  sec : Sec
  dev : Dev
  deriving DecidableEq, Repr

/-- The serving state of an empty journal. -/
def Kept.empty : Kept :=
  { model := none, streams := [], prefixes := [], tenants := [], epochs := [], nextEpoch := 1, faults := [] }

/-- The block right after a power-on reset, at bring-up stage B0 in P0 (19 R423, R429): every register at the reset value its table gives, nothing in any ring, queue or memory. -/
def Dev.reset : Dev where
  tick := 0
  freeCtr := 0
  regs := []
  occ := []
  io := { qpWaiting := [], qpPass := [], qpSince := [], qpTurn := [], cmdSeq := 0, deferred := [], running := [],
          ringPass := [], ringLost := [], pcieUp := false, perst := false, alertLow := false,
          eids := [], outbox := [] }
  mem := { dram := [], hostMem := [], rimSram := [], coreSram := [], lineBad := [], lostLines := none, laneMap := [], allocs := [], frames := [],
           faultLog := [], faultTick := 0 }
  wafer := { bypass := [], sites := [], quarantined := [], lostTiles := [], subst := [],
             rebuilding := [], resMap := [], resPending := [], served := [], colCounts := [], spareCols := [], colMap := [], bondMap := [], volts := [], temps := [], droops := [],
             relink := [], scrubNext := [], sensorOut := [], bringupTrips := [],
             trims := [], descCorr := 0, lostFields := [] }
  mesh := { chans := [], redBufs := [], links := [], packets := [], tables := {}, detourPending := [] }
  img := { loaded := none, active := none, activating := false, placed := false,
           everActive := false, model := none, epochs := [], nextEpoch := 1, stripes := [], stats := [],
           prodBeats := [], samples := [], sampleTurn := [], seeds := [], patching := none, lastSwitchBeat := none, treeEdits := [], chanEdits := [], switching := none, stop := none }
  serve := { streams := [], ptes := [], prefixes := [], tenants := [], waves := [], replays := [],
             sampled := [], holds := [], beatStart := 0, beatDelay := 0, beatExtra := 0, between := true,
             lastTick := 0, modePending := [], divCount := 0, syncLast := none,
             syncGood := 0, syncMode := 0, freqTo := none, faulted := [], recPos := [],
             dropLater := [], missing := [] }
  wts := { staged := none, arriving := none, arrived := [], arrivedLen := 0, kept := none,
           copyBack := false, copied := false, order := 0, forward := none }
  pwr := { aonOn := true, feeds := [(0, true), (1, true)], feedOpen := [], hum := none, humAlarm := false,
           energyJ := 0, ride := none, unjournaled := 0, journal := Kept.empty, sealed := none,
           packages := [0, 1], chain := [], duties := [], transition := none,
           weightsOut := false, phaseLost := [], vlHalf := [], lastForecast := [], calibrations := 0,
           doubleFault := false, humReplace := false }
  fab := { table := [], proposal := none, acks := [], commitPending := none, joining := none,
           leaving := false, assocs := [], kept := [], transfers := [], remote := [], handoffs := [], moving := [],
           rolePending := none, tokensBack := [], modules := [], upSince := [],
           swapReports := [], lockSince := none }
  meas := { part := {} }

/-- The identity of a part before its records are read: nothing enrolled, stepping B0 (21 R451-R455, 22 R474). -/
def Sec.reset : Sec :=
  { fw := [], keys := [], minSvn := 0, stepping := 1, deviceKey := [], deviceCert := [] }

/-- The machine right after a power-on reset: no command waits. -/
def State.reset : State := { pending := [], sec := Sec.reset, dev := Dev.reset }

end Sys2Proof.Machine
end

