-- ==== Sys2Proof/Machine/Formats.lean ====
section
/-! DEFINITION. The number formats (02 R37-R45, R55-R58): what a code of each format stands for, rounding to nearest with ties to even, and the conversions between formats; T5 bytes and balanced digits (R46-R49). -/
namespace Sys2Proof.Machine

namespace Fmt
/-- T1 (02 R37). -/
def t1 : Nat := 0
/-- B1 (02 R37). -/
def b1 : Nat := 1
/-- I2 (02 R37). -/
def i2 : Nat := 2
/-- I4 (02 R37). -/
def i4 : Nat := 3
/-- I8 (02 R37). -/
def i8 : Nat := 4
/-- I16 (02 R37). -/
def i16 : Nat := 5
/-- U8 (02 R37). -/
def u8 : Nat := 6
/-- F8A (02 R37). -/
def f8a : Nat := 7
/-- F8B (02 R37). -/
def f8b : Nat := 8
/-- F16 (02 R37). -/
def f16 : Nat := 9
/-- BF16 (02 R37). -/
def bf16 : Nat := 10
/-- F32 (02 R37). -/
def f32 : Nat := 11
/-- L8 (02 R37). -/
def l8 : Nat := 12
/-- L16 (02 R37). -/
def l16 : Nat := 13
/-- S4 (02 R37). -/
def s4 : Nat := 14
end Fmt

/-- A value that a floating-point format can hold: (−1)^neg × m × 2^e, an infinity, or NaN (02 R41). -/
inductive FV where
  | fin (neg : Bool) (m : Nat) (e : Int)
  | inf (neg : Bool)
  | nan
  deriving DecidableEq, Repr

/-- `n / d` rounded to nearest, ties to even. -/
def rneDiv (n : Int) (d : Nat) : Int :=
  let q := n / (d : Int)
  let r := 2 * (n % (d : Int))
  if r < d then q else if (d : Int) < r then q + 1 else if q % 2 = 0 then q else q + 1

/-- `n × 2^s` rounded to nearest, ties to even; exact for `s` at least 0. -/
def rneShift (n s : Int) : Int := if 0 ≤ s then n * 2 ^ s.toNat else rneDiv n (2 ^ (-s).toNat)

/-- `n / m` in whole units where the spec does not say how it is rounded: one of the two whole numbers around it, free (log entry 50). -/
def rounded (what : Nat) (n m : Int) : Int := n / m + (if n % m ≠ 0 ∧ Config.roundsUp what n m = true then 1 else 0)

/-- `n × 2^s` rounded down. -/
def floorShift (n s : Int) : Int := if 0 ≤ s then n * 2 ^ s.toNat else n / 2 ^ (-s).toNat

/-- A number held between two bounds. -/
def clamp (lo hi x : Int) : Int := if x < lo then lo else if hi < x then hi else x

/-- An integer with a sign bit. -/
def signedOf (neg : Bool) (m : Nat) : Int := if neg then -(m : Int) else (m : Int)

/-- The integer value × 2^e as a format value. -/
def FV.ofInt (i e : Int) : FV := .fin (decide (i < 0)) i.natAbs e

/-- The layout of a floating-point format: exponent bits, significand bits, bias, and whether it has infinities (02 R41). -/
structure FloatFmt where
  eb : Nat
  mb : Nat
  bias : Int
  infs : Bool
  deriving DecidableEq, Repr

/-- The floating-point layouts (02 R41). -/
def floatFmt : Nat → Option FloatFmt
  | 7 => some ⟨4, 3, 7, false⟩
  | 8 => some ⟨5, 2, 15, true⟩
  | 9 => some ⟨5, 10, 15, true⟩
  | 10 => some ⟨8, 7, 127, true⟩
  | 11 => some ⟨8, 23, 127, true⟩
  | _ => none

/-- The layout of F32. -/
def f32Fmt : FloatFmt := ⟨8, 23, 127, true⟩

/-- The largest finite code of a layout, sign 0 (02 R41, R58). -/
def FloatFmt.maxCode (f : FloatFmt) : Nat := (2 ^ f.eb - 1) * 2 ^ f.mb - 1 + (if f.infs then 0 else 2 ^ f.mb - 1)

/-- The NaN that the W36 produces (02 R41). -/
def FloatFmt.nanCode (f : FloatFmt) : Nat :=
  if f.infs then (2 ^ f.eb - 1) * 2 ^ f.mb + 2 ^ (f.mb - 1) else 2 ^ (f.eb + f.mb) - 1

/-- What a code of a floating-point layout stands for (02 R41). -/
def FloatFmt.decode (f : FloatFmt) (c : Nat) : FV :=
  let neg := bitOf c (f.eb + f.mb)
  let x := bitsOf c f.mb f.eb
  let s := bitsOf c 0 f.mb
  if x = 2 ^ f.eb - 1 ∧ f.infs then (if s = 0 then .inf neg else .nan)
  else if x = 2 ^ f.eb - 1 ∧ s = 2 ^ f.mb - 1 then .nan
  else if x = 0 then .fin neg s (1 - f.bias - f.mb)
  else .fin neg (s + 2 ^ f.mb) (x - f.bias - f.mb)

/-- The outcome of a conversion: the code, whether it saturated a finite value or an infinity, whether a NaN became 0 (02 R55, R57). -/
structure Conv where
  code : Nat
  sat : Bool := false
  nan : Bool := false
  deriving DecidableEq, Repr

/-- The code, without sign, of m × 2^e rounded to nearest with ties to even; it may lie beyond the largest finite code. -/
def FloatFmt.round (f : FloatFmt) (m : Nat) (e : Int) : Nat :=
  if m = 0 then 0
  else
    let emin := 1 - f.bias
    let x := max ((Nat.log2 m : Int) + e) emin
    ((x - emin).toNat * 2 ^ f.mb) + (rneShift (m : Int) (e - (x - f.mb))).toNat

/-- A value as a code of a floating-point layout (02 R55): a finite result beyond the largest saturates, or becomes infinity where `toInf` is set. -/
def FloatFmt.encode (f : FloatFmt) (toInf : Bool) (v : FV) : Conv :=
  let sign (neg : Bool) : Nat := if neg then 2 ^ (f.eb + f.mb) else 0
  match v with
  | .nan => { code := f.nanCode }
  | .inf neg =>
    if f.infs then { code := sign neg + (2 ^ f.eb - 1) * 2 ^ f.mb } else { code := sign neg + f.maxCode, sat := true }
  | .fin neg m e =>
    let c := f.round m e
    if c ≤ f.maxCode then { code := sign neg + c }
    else if toInf && f.infs then { code := sign neg + (2 ^ f.eb - 1) * 2 ^ f.mb }
    else { code := sign neg + f.maxCode, sat := true }

/-- The range of an integer format (02 R39, R58). -/
def intRange : Nat → Option (Int × Int)
  | 2 => some (-2, 1)
  | 3 => some (-8, 7)
  | 4 => some (-128, 127)
  | 5 => some (-32768, 32767)
  | 6 => some (0, 255)
  | _ => none

/-- Bits of an element in a packed vector (02 R37, R40). S4 elements are packed as I4. -/
def fmtBits : Nat → Nat
  | 2 => 2
  | 3 => 4
  | 14 => 4
  | 5 => 16
  | 9 => 16
  | 10 => 16
  | 13 => 16
  | 11 => 32
  | _ => 8

/-- The zero code of a logarithmic format (02 R43). -/
def logZero (fmt : Nat) : Nat := if fmt = Fmt.l8 then 0x40 else 0x4000

/-- The magnitude code of an L16 number; none for zero (02 R42, R43). -/
def l16Mag (c : Nat) : Option Int := if bitsOf c 0 15 = 0x4000 then none else some (signed 15 (bitsOf c 0 15))

/-- An L16 code of a sign and a magnitude code: below the smallest it is zero, above the largest it saturates (02 R43). -/
def l16Of (neg : Bool) (m : Int) : Nat :=
  if m < -16383 then 0x4000
  else (if neg then 0x8000 else 0) + unsigned 15 (min m 16383)

/-- An L8 code as the L16 code of the same value (02 R55). -/
def l8ToL16 (c : Nat) : Nat :=
  if bitsOf c 0 7 = 0x40 then 0x4000 else l16Of (bitOf c 7) (signed 7 (bitsOf c 0 7) * 16)

/-- An L16 code rounded to L8 (02 R55). -/
def l16ToL8 (c : Nat) : Nat :=
  match l16Mag c with
  | none => 0x40
  | some m =>
    let r := rneDiv m 16
    if r < -63 then 0x40 else (if bitOf c 15 then 0x80 else 0) + unsigned 7 (min r 63)

/-- log2 of m × 2^e in steps of 1/2^k, rounded to nearest (02 R55). A tie needs 2^(half a step) to be an integer power, so it never comes up. -/
def logCode (k m : Nat) (e : Int) : Int := ((Nat.log2 (m ^ 2 ^ (k + 1)) : Int) + 1) / 2 + e * 2 ^ k

/-- A value as an L8 or L16 code (02 R55). -/
def logEncode (fmt : Nat) (v : FV) : Conv :=
  match v with
  | .nan => { code := logZero fmt, nan := true }
  | .inf neg => { code := if fmt = Fmt.l8 then (if neg then 0x80 else 0) + 63 else l16Of neg 16383, sat := true }
  | .fin neg m e =>
    if m = 0 then { code := logZero fmt }
    else if fmt = Fmt.l8 then
      let c := logCode 4 m e
      if c < -63 then { code := 0x40 }
      else { code := (if neg then 0x80 else 0) + unsigned 7 (min c 63), sat := decide (63 < c) }
    else
      let c := logCode 8 m e
      { code := l16Of neg c, sat := decide (16383 < c) }

/-- A value as a code of an integer, floating-point or logarithmic format (02 R55). -/
def encodeFmt (fmt : Nat) (v : FV) : Conv :=
  match intRange fmt with
  | some (lo, hi) =>
    (match v with
    | .nan => { code := 0, nan := true }
    | .inf neg => { code := unsigned (fmtBits fmt) (if neg then lo else hi), sat := true }
    | .fin neg m e =>
      let y := rneShift (signedOf neg m) e
      { code := unsigned (fmtBits fmt) (clamp lo hi y), sat := decide (y < lo) || decide (hi < y) })
  | none =>
    match floatFmt fmt with
    | some f => f.encode false v
    | none => logEncode fmt v

/-- Greatest `r` below 2^bits for which `ok` holds, `ok` being true up to some point. -/
def bitSearch (ok : Nat → Bool) : Nat → Nat → Nat
  | 0, r => r
  | b + 1, r => bitSearch ok b (if ok (r + 2 ^ b) then r + 2 ^ b else r)

/-- The antilog table: A[j] = round(2^(15 + j/256)) (03 R83). -/
def antilogTable (j : Nat) : Nat :=
  bitSearch (fun r => decide ((2 * r - 1) ^ 256 ≤ 2 ^ (4096 + j))) 17 0

/-- The correction table of the log-add: F[d] = round(256 × log2(1 + 2^(−d/256))) (03 R82). -/
def logAddTable (d : Nat) : Nat :=
  let r := bitSearch (fun r => decide (r ^ 256 ≤ 2 ^ (20480 - d))) 81 0
  (Nat.log2 ((2 ^ 80 + r) ^ 512) + 1) / 2 - 20480

/-- The log-add of two L16 numbers, one with sign bit 1 taken as zero (03 R82). -/
def logAdd (x y : Nat) : Nat :=
  let mag (c : Nat) : Option Int := if bitOf c 15 then none else l16Mag c
  match mag x, mag y with
  | none, none => 0x4000
  | some a, none => l16Of false a
  | none, some b => l16Of false b
  | some a, some b => l16Of false (max a b + logAddTable (min (a - b).natAbs 4095))

/-- The product of two L16 numbers (02 R43, 03 R81). -/
def logMul (x y : Nat) : Nat :=
  match l16Mag x, l16Mag y with
  | some a, some b => l16Of (bitOf x 15 != bitOf y 15) (a + b)
  | _, _ => 0x4000

/-- The antilog of an L16 number in units of 2^−f, saturated at 2^47 − 1 (03 R83). -/
def antilog (c f : Nat) : Int :=
  match l16Mag c with
  | none => 0
  | some m =>
    let v := rneShift (antilogTable (m % 256).toNat : Int) (m / 256 + f - 15)
    let lim : Int := 2 ^ 47 - 1
    let w := min v lim
    if bitOf c 15 then -w else w

/-- An L16 number on the linear side: A[j] × 2^(i − 15), exact in F32 (02 R55, 03 R83). -/
def l16Value (c : Nat) : FV :=
  match l16Mag c with
  | none => .fin false 0 0
  | some m => .fin (bitOf c 15) (antilogTable (m % 256).toNat) (m / 256 - 15)

/-- What a code stands for, S4 excepted (02 R39-R43). -/
def decodeFmt (fmt c : Nat) : FV :=
  match intRange fmt with
  | some _ => FV.ofInt (if fmt = Fmt.u8 then (c : Int) else signed (fmtBits fmt) c) 0
  | none =>
    match floatFmt fmt with
    | some f => f.decode c
    | none => if fmt = Fmt.l8 then l16Value (l8ToL16 c) else if fmt = Fmt.l16 then l16Value c else .fin false 0 0

/-- Bytes of a packed vector of n elements (02 R40, R45); T1 and B1 as T5 bytes (R46). -/
def vecSize (fmt n : Nat) : Nat :=
  if fmt = Fmt.t1 ∨ fmt = Fmt.b1 then ceilDiv n 5
  else if fmt = Fmt.s4 then roundUp n 32 / 2 + ceilDiv n 32
  else ceilDiv (n * fmtBits fmt) 8

/-- The bytes that a column of n elements occupies (06 R149). -/
def colBytes (fmt n : Nat) : Nat := roundUp (vecSize fmt n) 64

/-- Element i of a packed vector, as a code (02 R40). -/
def codeAt (m : Mem) (base fmt i : Nat) : Nat :=
  let b := fmtBits fmt
  if 8 ≤ b then memNat m (base + i * (b / 8)) (b / 8)
  else bitsOf (memGet m (base + i * b / 8)).toNat (i * b % 8) b

/-- The scale byte of element i's block in an S4 vector of n elements (02 R44, R45). -/
def scaleAt (m : Mem) (base n i : Nat) : Int := signed 8 (memGet m (base + roundUp n 32 / 2 + i / 32)).toNat

/-- Element i of a packed vector of n elements (02 R39-R45). -/
def elemAt (m : Mem) (base fmt n i : Nat) : FV :=
  let c := codeAt m base fmt i
  if fmt = Fmt.s4 then FV.ofInt (signed 4 c) (scaleAt m base n i) else decodeFmt fmt c

/-- A packed vector of codes of b bits, as bytes, the last one filled with zero bits (02 R40). -/
def packCodes (b : Nat) (cs : List Nat) : List Byte :=
  if 8 ≤ b then cs.flatMap fun c => leBytes (b / 8) c
  else leBytes (ceilDiv (cs.length * b) 8) (cs.foldr (fun c acc => c % 2 ^ b + 2 ^ b * acc) 0)

/-- Bytes followed by zeros up to a length. -/
def padTo (n : Nat) (bs : List Byte) : List Byte := bs ++ List.replicate (n - bs.length) 0

/-- The balanced-ternary digits of an integer (02 R49). -/
def balanced : Nat → Int → List Int
  | 0, _ => []
  | n + 1, d =>
    let r := d % 3
    let t := if r = 2 then -1 else r
    t :: balanced n ((d - t) / 3)

/-- The number that balanced digits spell. -/
def fromBalanced : List Int → Int
  | [] => 0
  | t :: ts => t + 3 * fromBalanced ts

/-- The five trits of a T5 byte; an invalid code reads as code 121 (02 R46, R47, 03 R80). -/
def trits (b : Nat) : List Int := if 243 ≤ b then [0, 0, 0, 0, 0] else balanced 5 ((b : Int) - 121)

/-- The T5 byte of up to five trits (02 R46). -/
def t5Byte (ts : List Int) : Byte := BitVec.ofNat 8 (fromBalanced (ts.take 5) + 121).toNat

/-- Digit planes of a trit operand (03 R76); 0 for a format that is none. -/
def planesOf : Nat → Nat
  | 0 => 1
  | 1 => 1
  | 2 => 2
  | 3 => 3
  | 4 => 6
  | 5 => 11
  | 6 => 6
  | 7 => 6
  | 8 => 6
  | 14 => 6
  | 9 => 11
  | 10 => 11
  | _ => 0

/-- Slices of an activation or addend (02 R51, R52, 03 R84, R85). -/
def slicesOf (fmt : Nat) : Nat := if fmt = Fmt.i16 ∨ fmt = Fmt.f16 ∨ fmt = Fmt.bf16 then 2 else 1

/-- A weight format of the memory tier (02 R38). -/
def isWeightFmt (fmt : Nat) : Bool := fmt ≤ 5

/-- A format that enters through a window as an activation (02 R52). -/
def isWindowed (fmt : Nat) : Bool := fmt == Fmt.f8b || fmt == Fmt.f16 || fmt == Fmt.bf16 || fmt == Fmt.s4

/-- A window of elements as integers (02 R52): the shared exponent's quantum exponent, the integers, and whether a NaN or infinity entered (R54). `scale` is the largest S4 scale byte among the blocks the window touches. -/
structure Window where
  q : Int
  vals : List Int
  nonfinite : Bool
  deriving DecidableEq, Repr

/-- floor(log2|x|) of a finite non-zero value. -/
def FV.log2? : FV → Option Int
  | .fin _ m e => if m = 0 then none else some ((Nat.log2 m : Int) + e)
  | _ => none

/-- The largest of a list of exponents. -/
def maxExp : List Int → Option Int
  | [] => none
  | x :: xs => some (xs.foldl max x)

/-- Converts a window (02 R52, R54). -/
def windowOf (slices : Nat) (scale : Option Int) (xs : List FV) : Window :=
  let e := match scale with
    | some s => some (s + 2)
    | none => maxExp (xs.filterMap FV.log2?)
  let q := e.getD 0 - (if slices = 2 then 14 else 6)
  let lim : Int := if slices = 2 then 32768 else 128
  { q := q
    vals := xs.map fun x => match x with
      | .fin neg m ex => clamp (-lim) (lim - 1) (rneShift (signedOf neg m) (ex - q))
      | _ => 0
    nonfinite := xs.any fun x => match x with
      | .fin _ _ _ => false
      | _ => true }

/-- The elements [i, i + n) of a packed vector of `len` elements. -/
def elemsAt (m : Mem) (base fmt len i n : Nat) : List FV := (List.range n).map fun j => elemAt m base fmt len (i + j)

/-- The largest scale byte of the S4 blocks that the elements [i, i + n) touch (02 R52). -/
def maxScale (m : Mem) (base len i n : Nat) : Int :=
  let first := i / 32
  ((List.range ((i + n - 1) / 32 + 1 - first)).map fun b => scaleAt m base len (32 * (first + b))).foldl max (-128)

/-- The window of elements [i, i + n) of a packed vector, in the slices of its role (02 R52, 03 R76). -/
def windowAt (m : Mem) (base fmt len slices i n : Nat) : Window :=
  windowOf slices (if fmt = Fmt.s4 then some (maxScale m base len i n) else none) (elemsAt m base fmt len i n)

/-- The scale that R56 gives a block: the smallest e from −128 to 127 for which every value rounds into −8 to 7. -/
def blockScale (xs : List FV) : Int :=
  if xs.all fun x => match x with
    | .fin _ m _ => m == 0
    | _ => true
  then 0
  else
    match (List.range 256).find? fun (i : Nat) => xs.all fun x => match x with
      | .fin neg m e =>
        let y := rneShift (signedOf neg m) (e - ((i : Int) - 128))
        decide (-8 ≤ y) && decide (y ≤ 7)
      | _ => true
    with
    | some i => (i : Int) - 128
    | none => 127

end Sys2Proof.Machine
end

