-- ==== Sys2Proof/Machine/Float.lean ====
section
/-! DEFINITION. The F32 arithmetic of the facet unit (06 R157): the correctly rounded operations, the elementwise functions within 2 units in the last place, the fixed-order sums, the comparison of R112, the ranking of R113 and the stochastic generator (05 R123). -/
namespace Sys2Proof.Machine

/-- A value rounded to F32, to nearest with ties to even; beyond the largest finite number it is an infinity (PRESUMED IEEE 754, log entry 18). -/
def round32 (v : FV) : FV := f32Fmt.decode (f32Fmt.encode true v).code

/-- The F32 code of a value that F32 holds. -/
def code32 (v : FV) : Nat := (f32Fmt.encode true v).code

/-- The value of an F32 code. -/
def of32 (c : Nat) : FV := f32Fmt.decode c

/-- The negation of a value. -/
def FV.neg : FV → FV
  | .fin n m e => .fin (!n) m e
  | .inf n => .inf (!n)
  | .nan => .nan

/-- The exact sum of two finite numbers: significand and exponent. -/
def sumDyadic (a ea b eb : Int) : Int × Int :=
  if ea ≤ eb then (a + b * 2 ^ (eb - ea).toNat, ea) else (a * 2 ^ (ea - eb).toNat + b, eb)

/-- The exact sum of two values; a zero sum is negative only when both operands are (PRESUMED IEEE 754, log entry 18). -/
def FV.add : FV → FV → FV
  | .nan, _ => .nan
  | _, .nan => .nan
  | .inf s, .inf t => if s = t then .inf s else .nan
  | .inf s, .fin _ _ _ => .inf s
  | .fin _ _ _, .inf t => .inf t
  | .fin s m e, .fin t n f =>
    let (x, y) := sumDyadic (signedOf s m) e (signedOf t n) f
    if x = 0 then .fin (s && t) 0 0 else .fin (decide (x < 0)) x.natAbs y

/-- The exact product of two values. -/
def FV.mul : FV → FV → FV
  | .nan, _ => .nan
  | _, .nan => .nan
  | .inf s, .inf t => .inf (s != t)
  | .inf s, .fin t m _ => if m = 0 then .nan else .inf (s != t)
  | .fin s m _, .inf t => if m = 0 then .nan else .inf (s != t)
  | .fin s m e, .fin t n f => .fin (s != t) (m * n) (e + f)

/-- ADD (06 R157). -/
def add32 (a b : FV) : FV := round32 (a.add b)
/-- SUB (06 R157). -/
def sub32 (a b : FV) : FV := round32 (a.add b.neg)
/-- MUL (06 R157). -/
def mul32 (a b : FV) : FV := round32 (a.mul b)
/-- MAC, rounded once: d + a × b (06 R157). -/
def mac32 (d a b : FV) : FV := round32 (d.add (a.mul b))

/-- A value is finite. -/
def FV.isFinite : FV → Bool
  | .fin _ _ _ => true
  | _ => false

/-- The exact comparison a < b of two values that are no NaN; +0 and −0 are equal (04 R112). -/
def FV.lt : FV → FV → Bool
  | .nan, _ => false
  | _, .nan => false
  | .inf s, .inf t => s && !t
  | .inf s, .fin _ _ _ => s
  | .fin _ _ _, .inf t => !t
  | .fin s m e, .fin t n f => decide ((sumDyadic (signedOf s m) e (-(signedOf t n)) f).1 < 0)

/-- The pair (a, i) wins over (b, j) in a maximum or a minimum (04 R112). -/
def beats (maximum : Bool) (a : FV) (i : Nat) (b : FV) (j : Nat) : Bool :=
  if a = .nan then (b == .nan && i < j)
  else if b = .nan then true
  else if (if maximum then b.lt a else a.lt b) then true
  else if (if maximum then a.lt b else b.lt a) then false
  else i < j

/-- MAX and MIN: a NaN loses; equal values give a (06 R157); of two zeros of different sign the result's sign is free (log entry 18). -/
def pick32 (maximum : Bool) (a b : FV) : FV :=
  match a, b with
  | .fin n 0 e, .fin k 0 _ => if n = k then a else .fin (Config.roundsUp 9 (if maximum then 1 else 0) 0) 0 e
  | _, _ =>
    if a = .nan then b else if b = .nan then a
    else if (if maximum then a.lt b else b.lt a) then b else a

/-- floor(ln 2 × 2^300). -/
def ln2Fix : Nat := 1411965743695424507508857192728570223734551239724995589061361292466257174357546532574725854

/-- The sum of a power series whose next term is the last one times `r / 2^300` over its index. -/
def expSeries (r : Nat) : Nat → Nat → Nat → Nat
  | 0, _, _ => 0
  | fuel + 1, i, t => t + expSeries r fuel (i + 1) (t * r / 2 ^ 300 / (i + 1))

/-- e^x for x = ±m × 2^e, as (M, k) with the value M × 2^(k − 300), to some 290 bits. Beyond 4,096 in magnitude x is held there: F32 over- and underflow long before. -/
def expFix (neg : Bool) (m : Nat) (e : Int) : Nat × Int :=
  let x := clamp (-(2 ^ 312)) (2 ^ 312) (floorShift (signedOf neg m) (min e 40 + 300))
  let k := x / (ln2Fix : Int)
  (expSeries (x - k * ln2Fix).toNat 80 0 (2 ^ 300), k)

/-- The sum of the terms z^(2i+1) / (2i+1) in units of 2^−300; `zz` is z². -/
def atanhSeries (zz : Nat) : Nat → Nat → Nat → Nat
  | 0, _, _ => 0
  | fuel + 1, i, t => t / (2 * i + 1) + atanhSeries zz fuel (i + 1) (t * zz / 2 ^ 300)

/-- ln(m × 2^e) for m > 0 in units of 2^−300. -/
def logFix (m : Nat) (e : Int) : Int :=
  let l := Nat.log2 m
  let y := floorShift (m : Int) (300 - l)
  let z := ((y - 2 ^ 300) * 2 ^ 300 / (y + 2 ^ 300)).toNat
  ((l : Int) + e) * ln2Fix + 2 * (atanhSeries (z * z / 2 ^ 300) 100 0 z : Int)

/-- The largest r with r² ≤ n. -/
def sqrtFloor (n : Nat) : Nat := bitSearch (fun r => decide (r * r ≤ n)) 140 0

/-- e^(−|x|) and the sigmoid of x in units that the caller scales: (S, k), the value S × 2^(k − 300). -/
def sigmoidFix (neg : Bool) (m : Nat) (e : Int) : Nat × Int :=
  let (t, k) := expFix true m e
  let one := 2 ^ 300
  let tf := (floorShift (t : Int) k).toNat
  if neg then (t * one / (one + tf), k) else (one * one / (one + tf), 0)

/-- A positive real held as M × 2^k with more bits below (unless exact), as a value that rounds as the real does. -/
def sticky (neg : Bool) (m : Nat) (k : Int) (exact : Bool) : FV := .fin neg (2 * m + b2n (!exact)) (k - 1)

/-- The real value of an elementwise function to enough bits to round it correctly; none where the spec states no result. -/
def realFn (func : Nat) : FV → Option FV
  | .nan => some .nan
  | .inf neg => if func = 0x07 ∧ neg then some (.fin false 0 0) else none
  | .fin neg m e =>
    if func = 0x07 then
      if m = 0 then some (.fin false 1 0)
      else
        let (x, k) := expFix neg m e
        some (sticky false x (k - 300) false)
    else if func = 0x08 then
      if neg ∨ m = 0 then none
      else
        let l := logFix m e
        if l = 0 then some (.fin false 0 0) else some (sticky (decide (l < 0)) l.natAbs (-300) false)
    else if func = 0x09 then
      if m = 0 then none else some (sticky neg (2 ^ 100 / m) (-100 - e) (2 ^ 100 % m == 0))
    else if func = 0x0A then
      if neg ∨ m = 0 then none
      else
        let (m1, e1) := if e % 2 = 0 then (m, e) else (2 * m, e - 1)
        let q := sqrtFloor (2 ^ 200 / m1)
        some (sticky false q (-100 - e1 / 2) (q * q * m1 == 2 ^ 200))
    else if func = 0x0B then
      let (s, k) := sigmoidFix neg m e
      some (sticky false s (k - 300) false)
    else
      let (s, k) := sigmoidFix neg m e
      if m = 0 then some (.fin neg 0 0) else some (.fin neg (m * (2 * s + 1)) (e + k - 301))

/-- An F32 code moved by `n` units in the last place along the ordered F32 numbers, within the infinities. -/
def moveUlps (c : Nat) (n : Int) : Nat :=
  let key := clamp (-0x7F800000) 0x7F800000 (signedOf (bitOf c 31) (bitsOf c 0 31) + n)
  if key < 0 ∨ (key = 0 ∧ bitOf c 31 ∧ n = 0) then 0x80000000 + key.natAbs else key.natAbs

/-- An elementwise function on an F32 value: correctly rounded in loupe mode (05 R131), else within 2 units in the last place of that (06 R157). EXP of −∞ is +0 (10 R254). Where the spec states no result the value is free. -/
def fn32 (exact : Bool) (func : Nat) (x : FV) : FV :=
  let key := BitVec.ofNat 32 (code32 x)
  match realFn func x with
  | none => of32 (Config.freeFacet func key).toNat
  | some v =>
    let c := code32 v
    if exact ∨ !x.isFinite then of32 c else of32 (moveUlps c ((Config.ulpError func key).val - 2))

/-- The sum of two lanes, an absent lane adding nothing. -/
def addLane : Option FV → Option FV → Option FV
  | none, y => y
  | x, none => x
  | some x, some y => some (add32 x y)

/-- One level of the pairwise tree over lanes (06 R157). -/
def pairUp : List (Option FV) → List (Option FV)
  | x :: y :: r => addLane x y :: pairUp r
  | r => r

/-- The lane results of SUM or SUMSQ (06 R157). -/
def laneSum (square : Bool) (a : List FV) (i : Nat) : Option FV :=
  let mine := (List.range (ceilDiv a.length 32)).filterMap fun j => a[i + 32 * j]?
  match mine with
  | [] => none
  | x :: xs =>
    if square then some ((x :: xs).foldl (fun s y => mac32 s y y) (.fin false 0 0))
    else some (xs.foldl add32 x)

/-- SUM and SUMSQ in their fixed order (06 R157). -/
def sum32 (square : Bool) (a : List FV) : FV :=
  let lanes := (List.range 32).map (laneSum square a)
  match pairUp (pairUp (pairUp (pairUp (pairUp lanes)))) with
  | some x :: _ => x
  | _ => .fin false 0 0

/-- ROTATE: pairs of a turned by pairs of b, an odd last element copied (06 R157). -/
def rotate32 (b : Nat → FV) : Nat → List FV → List FV
  | i, x :: y :: r =>
    round32 ((x.mul (b i)).add (y.mul (b (i + 1))).neg) :: round32 ((x.mul (b (i + 1))).add (y.mul (b i))) ::
      rotate32 b (i + 2) r
  | _, r => r

/-- The winning pair of a list (04 R112). -/
def bestOf (maximum : Bool) : List (FV × Nat) → FV × Nat
  | [] => (.nan, 0)
  | x :: xs => xs.foldl (fun w p => if beats maximum p.1 p.2 w.1 w.2 then p else w) x

/-- The results of an elementwise, summing or rotating function of 06 R157. ARGMAX, ARGMIN and TO_LOG are the caller's. -/
def facetFn (exact : Bool) (func : Nat) (scalar : Bool) (a b d : List FV) : List FV :=
  let z : FV := .fin false 0 0
  let bAt (i : Nat) : FV := b.getD (if scalar then 0 else i) z
  let zip (f : FV → FV → FV) : List FV := (List.range a.length).map fun i => f (a.getD i z) (bAt i)
  if func = 0x01 then zip add32
  else if func = 0x02 then zip sub32
  else if func = 0x03 then zip mul32
  else if func = 0x04 then (List.range a.length).map fun i => mac32 (d.getD i z) (a.getD i z) (bAt i)
  else if func = 0x05 then zip (pick32 true)
  else if func = 0x06 then zip (pick32 false)
  else if 0x07 ≤ func ∧ func ≤ 0x0C then a.map (fn32 exact func)
  else if func = 0x0D then [sum32 false a]
  else if func = 0x0E then [sum32 true a]
  else if func = 0x11 then rotate32 (fun i => b.getD (if scalar then i % 2 else i) z) 0 a
  else a

/-- Output n of the generator with seed k (05 R123). -/
def genOutput (k n : Nat) : Nat :=
  let w := 2 ^ 64
  let z := (k + (n + 1) * 0x9E3779B97F4A7C15) % w
  let z := (z ^^^ (z / 2 ^ 30)) * 0xBF58476D1CE4E5B9 % w
  let z := (z ^^^ (z / 2 ^ 27)) * 0x94D049BB133111EB % w
  z ^^^ (z / 2 ^ 31)

/-- Puts a candidate into a list in descending rank (04 R113). -/
def insertRanked (p : FV × Nat) : List (FV × Nat) → List (FV × Nat)
  | [] => [p]
  | q :: r => if beats true p.1 p.2 q.1 q.2 then p :: q :: r else q :: insertRanked p r

/-- The candidates in descending rank (04 R113). -/
def ranked (cs : List (FV × Nat)) : List (FV × Nat) := cs.foldl (fun acc p => insertRanked p acc) []

/-- The parameters of a draw (11 R287, R288). -/
structure Draw where
  temperature : FV
  topK : Nat
  topP : Nat
  u : Nat
  deriving DecidableEq, Repr

/-- The first index at which the running sum passes a bound; with `ge`, reaches it (11 R287). -/
def firstPast (ge : Bool) (bound : FV) : List FV → FV → Nat → Option (Nat × FV)
  | [], _, _ => none
  | w :: ws, acc, i =>
    let s := add32 acc w
    if (if ge then bound.lt s || !(s.lt bound || s == .nan || bound == .nan) else bound.lt s) then some (i, s)
    else firstPast ge bound ws s (i + 1)

/-- The token drawn from ranked candidates, and whether the draw is degenerate (11 R287). -/
def drawToken (cands : List (FV × Nat)) (p : Draw) : Nat × Bool :=
  let c := (ranked cands).take (min (if p.topK = 0 then 1024 else p.topK) 1024)
  match c with
  | [] => (0, false)
  | (v0, i0) :: _ =>
    let greedy := match p.temperature with
      | .fin _ m _ => m == 0
      | _ => false
    if greedy then (i0, false)
    else if !v0.isFinite then (i0, true)
    else
      let inv := fn32 false 0x09 p.temperature
      let w := c.map fun x => if x.1 = .nan then FV.fin false 0 0
        else fn32 false 0x07 (mul32 (sub32 x.1 v0) inv)
      let zero : FV := .fin false 0 0
      let s := w.foldl add32 zero
      let cut := mul32 (.fin false (if p.topP = 0 then 65536 else p.topP) (-16)) s
      let (m, acc) := match firstPast true cut w zero 1 with
        | some x => x
        | none => (w.length, s)
      let r := mul32 (mul32 (round32 (.fin false p.u 0)) (.fin false 1 (-32))) acc
      match firstPast false r (w.take m) zero 0 with
      | some (i, _) => ((c.getD i (v0, i0)).2, false)
      | none => ((c.getD (m - 1) (v0, i0)).2, false)

end Sys2Proof.Machine
end

