-- ==== Sys2Proof/Machine/Weft.lean ====
section
/-! DEFINITION. The weft array and the block accumulator: product descriptors (06 R150-R153), weights in stream order (03 R73), windows and slices (02 R51, R52), tables (03 R62-R64), exact and windowed accumulation (04 R92-R97), the log lanes (03 R81-R83, 04 R101) and partial words (04 R105). -/
namespace Sys2Proof.Machine

/-- Rows per cycle of a shape (03 R60). -/
def rowsPerCycle (shape : Nat) : Nat := [4, 8, 2, 1].getD shape 1

/-- K-window of a shape (03 R60). -/
def kWindow (shape : Nat) : Nat := [320, 160, 640, 1280].getD shape 320

/-- Columns a shape serves (03 R60). -/
def colsServed (shape : Nat) : Nat := [4, 4, 2, 1].getD shape 1

/-- Groups per column of a shape (03 R60). -/
def groupsPer (shape : Nat) : Nat := [64, 32, 128, 256].getD shape 64

/-- A product descriptor (06 R150). -/
structure ProdDesc where
  direct : Bool
  shape : Nat
  fresh : Bool
  reuse : Bool
  wSram : Bool
  causal : Bool
  accOpen : Bool
  cols : Nat
  wFmt : Nat
  xFmt : Nat
  planeBase : Nat
  rows : Nat
  k : Nat
  wBase : Nat
  xBase : Nat
  accBase : Nat
  bandUnits : Nat
  deriving DecidableEq, Repr

/-- The fields of a product descriptor (06 R150). -/
def prodDesc (direct : Bool) (d : Nat) : ProdDesc :=
  { direct := direct, shape := bitsOf d 6 2, fresh := bitOf d 8, reuse := bitOf d 9, wSram := bitOf d 10,
    causal := bitOf d 11, accOpen := bitOf d 12, cols := bitsOf d 14 2 + 1, wFmt := bitsOf d 16 4,
    xFmt := bitsOf d 20 4, planeBase := bitsOf d 24 4, rows := bitsOf d 28 15, k := bitsOf d 43 21,
    wBase := bitsOf d 64 21, xBase := bitsOf d 85 19, accBase := bitsOf d 104 13, bandUnits := bitsOf d 117 10 }

/-- Rows of a band, or of the whole block padded to the shape, as the stream lays them out (03 R73). -/
def ProdDesc.bandRows (p : ProdDesc) : Nat := if p.fresh then 8 * p.bandUnits else roundUp p.rows (rowsPerCycle p.shape)

/-- Bands of the block (03 R69). -/
def ProdDesc.bands (p : ProdDesc) : Nat := if p.fresh then ceilDiv p.rows p.bandRows else 1

/-- Bytes of the weight stream that the product reads (03 R73). -/
def ProdDesc.streamBytes (p : ProdDesc) : Nat :=
  p.bands * ceilDiv p.k (kWindow p.shape) * planesOf p.wFmt * p.bandRows * (kWindow p.shape / 5)

/-- Offset in the stream of the byte that holds weight (r, k) of plane `q` (03 R73). -/
def ProdDesc.streamAt (p : ProdDesc) (q r k : Nat) : Nat :=
  let kw := kWindow p.shape
  let w := ceilDiv p.k kw
  let row := if p.fresh then r % p.bandRows else r
  let band := if p.fresh then r / p.bandRows else 0
  (((band * w + k / kw) * planesOf p.wFmt + q) * p.bandRows + row) * (kw / 5) + k % kw / 5

/-- Bytes from one row of a trit operand in working SRAM to the next: a packed row, rounded up as R149 rounds a column (DEDUCED, log entry 19). -/
def ProdDesc.rowStride (p : ProdDesc) : Nat := colBytes p.wFmt p.k

/-- Weight (r, k) of the memory tier, over its planes (02 R49, 03 R74). -/
def ProdDesc.weight (p : ProdDesc) (m : Mem) (r k : Nat) : Int :=
  fromBalanced ((List.range (planesOf p.wFmt)).map fun q =>
    (trits (memGet m (p.wBase + p.streamAt q r k)).toNat).getD (k % 5) 0)

/-- Elements of the window `w` of 320 (02 R52). -/
def ProdDesc.winLen (p : ProdDesc) (w : Nat) : Nat := min 320 (p.k - 320 * w)

/-- Windows of K (02 R52). -/
def ProdDesc.windows (p : ProdDesc) : Nat := ceilDiv p.k 320

/-- Row `r` of the trit operand in window `w`: quantum exponent, integers scaled by 3^p0, and whether a NaN or infinity entered (03 R74, R76, R80). `whole` gives integer weights that stand in for the stored ones (09 R220). -/
def ProdDesc.rowWindow (p : ProdDesc) (weights sram : Mem) (whole : Option (Nat → Nat → Int)) (stride r w : Nat) :
    Window :=
  let n := p.winLen w
  let scale (x : Window) : Window := { x with vals := x.vals.map (· * 3 ^ p.planeBase) }
  match whole with
  | some f => { q := 0, vals := (List.range n).map fun j => f r (320 * w + j), nonfinite := false }
  | none =>
    if !p.wSram then
      scale { q := 0, vals := (List.range n).map fun j => p.weight weights r (320 * w + j), nonfinite := false }
    else
      let base := p.wBase + r * stride
      if p.wFmt = Fmt.t1 ∨ p.wFmt = Fmt.b1 then
        scale { q := 0, nonfinite := false
                vals := (List.range n).map fun j =>
                  (trits (memGet sram (base + (320 * w + j) / 5)).toNat).getD (j % 5) 0 }
      else if p.wFmt = Fmt.f8a ∨ isWindowed p.wFmt then
        scale (windowAt sram base p.wFmt p.k (slicesOf p.wFmt) (320 * w) n)
      else
        scale { q := 0, nonfinite := false
                vals := (elemsAt sram base p.wFmt p.k (320 * w) n).map fun x => match x with
                  | .fin neg v _ => signedOf neg v
                  | _ => 0 }

/-- Column `c` of the activation or addend in window `w` (02 R51, R52, 03 R79); zeros for an invalid column (06 R141). -/
def ProdDesc.colWindow (p : ProdDesc) (sram : Mem) (valid : Bool) (c w : Nat) : Window :=
  let n := p.winLen w
  let base := p.xBase + c * colBytes p.xFmt p.k
  if !valid then { q := 0, vals := List.replicate n 0, nonfinite := false }
  else if isWindowed p.xFmt then windowAt sram base p.xFmt p.k (slicesOf p.xFmt) (320 * w) n
  else
    let xs := elemsAt sram base p.xFmt p.k (320 * w) n
    { q := if p.xFmt = Fmt.f8a then -9 else 0
      vals := xs.map fun x => match x with
        | .fin neg v e => signedOf neg v * 2 ^ (e + (if p.xFmt = Fmt.f8a then 9 else 0)).toNat
        | _ => 0
      nonfinite := xs.any fun x => !x.isFinite }

/-- The accumulation class of a product (04 R93). -/
def ProdDesc.cls (p : ProdDesc) : AccClass :=
  if isWindowed p.xFmt || (p.wSram && (p.wFmt == Fmt.f8a || isWindowed p.wFmt)) then .windowed
  else if p.xFmt = Fmt.f8a then .f8a else .integer

/-- The fixed exponent with which a class opens its entries (04 R93). -/
def ProdDesc.openExp (p : ProdDesc) : Int := if p.cls = .f8a then -9 else 0

/-- The sum of the products of two lists. -/
def dot : List Int → List Int → Int
  | x :: xs, y :: ys => x * y + dot xs ys
  | _, _ => 0

/-- The largest significand of an entry (04 R92). -/
def sigLimit : Int := 2 ^ 47 - 1

/-- Halves a significand, to nearest with ties to even, until it fits (04 R97). -/
def renorm (lim : Int) : Nat → Int → Int → Int × Int
  | 0, s, z => (s, z)
  | fuel + 1, s, z => if s.natAbs ≤ lim.natAbs then (s, z) else renorm lim fuel (rneDiv s 2) (z + 1)

/-- Merges a partial into a significand and exponent; none is an empty entry (04 R97). -/
def merge (lim : Int) (cur : Option (Int × Int)) (p zp : Int) : Option (Int × Int) :=
  if p = 0 then cur
  else
    let (s, z) := match cur with
      | none => (p, zp)
      | some (s, z) => if zp ≤ z then (s + rneShift p (zp - z), z) else (rneShift s (z - zp) + p, zp)
    some (renorm lim (Nat.log2 s.natAbs + 1) s z)

/-- Adds one window's partial to an entry (04 R94, R97). -/
def Entry.addWindow (e : Entry) (p zp : Int) : Entry :=
  if e.cls = .windowed then
    match merge sigLimit (e.sig.map fun s => (s, e.exp)) p zp with
    | some (s, z) => { e with sig := some s, exp := z }
    | none => e
  else { e with sig := some (e.sig.getD 0 + p) }

/-- An entry as a descriptor opens it (06 R152). -/
def openEntry (cls : AccClass) (tag : Nat) (z : Int) : Entry :=
  { sig := if cls = .windowed ∨ cls = .log then none else some 0, exp := z, tag := tag, cls := cls, isOpen := true }

/-- The entries that one row adds to, column by column: each column's window partials in ascending K (04 R97). -/
def rowPartials (p : ProdDesc) (rw : Nat → Window) (cols : Nat → Nat → Window) (c : Nat) : List (Int × Int) :=
  (List.range p.windows).map fun w =>
    let a := rw w
    let b := cols c w
    (dot a.vals b.vals, a.q + b.q)

/-- The negation of a partial (09 R220). -/
def Partial.neg (p : Partial) : Partial := { p with sig := -p.sig }

/-- What a product reads and how its rows are masked (10 R253, R254). -/
structure ProdCtx where
  weights : Mem
  sram : Mem
  /-- columns of the wave that are valid, a bit each -/
  valid : Nat
  stride : Nat
  /-- (row, column) pairs masked -/
  masked : List (Nat × Nat)
  /-- rows that the array skips -/
  skipped : List Nat
  deriving DecidableEq, Repr

/-- The entry at (r, c) after the product (06 R151, R152, 10 R254). -/
def ProdDesc.entryAfter (p : ProdDesc) (x : ProdCtx) (parts : List (Int × Int)) (r c : Nat) (old : Entry) : Entry :=
  let e := if p.accOpen ∨ p.fresh then openEntry p.cls p.xFmt p.openExp else old
  if x.skipped.contains r || x.masked.contains (r, c) then { e with masked := true }
  else parts.foldl (fun e w => e.addWindow w.1 w.2) e

/-- The columns' windows of a product, each computed once. -/
def ProdDesc.colWindows (p : ProdDesc) (x : ProdCtx) : List (List Window) :=
  (List.range p.cols).map fun c => (List.range p.windows).map fun w => p.colWindow x.sram (bitOf x.valid c) c w

/-- A window of zeros. -/
def Window.none_ : Window := { q := 0, vals := [], nonfinite := false }

/-- The entries of rows [r0, r0 + n) after the product, in the order row, column. -/
def ProdDesc.rowEntries (p : ProdDesc) (x : ProdCtx) (whole : Option (Nat → Nat → Int)) (cw : List (List Window))
    (old : Nat → Nat → Entry) (r0 n : Nat) : List Entry :=
  (List.range n).flatMap fun i =>
    let r := r0 + i
    let rows := if x.skipped.contains r then [] else
      (List.range p.windows).map fun w => p.rowWindow x.weights x.sram whole x.stride r w
    (List.range p.cols).map fun c =>
      p.entryAfter x (rowPartials p (fun w => rows.getD w Window.none_) (fun c w => (cw.getD c []).getD w Window.none_) c)
        r c (old r c)

/-- The exact partials of an element of a product as recovery sends them (04 R115, 09 R220): one per window in the windowed class, else their sum. -/
def ProdDesc.exactOf (p : ProdDesc) (parts : List (Int × Int)) : List Partial :=
  if p.cls = .windowed then parts.map fun w => { sig := w.1, exp := w.2, tag := p.xFmt, kind := 0 }
  else [{ sig := (parts.map (·.1)).foldl (· + ·) 0, exp := p.openExp, tag := p.xFmt, kind := 0 }]

/-- The elements of a stripe product in the order row, column: the entry that each adds to, and its exact partials (09 R220). -/
def ProdDesc.exactRows (p : ProdDesc) (x : ProdCtx) (cw : List (List Window)) (old : Nat → Nat → Entry) : List (Entry × List Partial) :=
  (List.range p.rows).flatMap fun r =>
    let rows := (List.range p.windows).map fun w => p.rowWindow x.weights x.sram none x.stride r w
    (List.range p.cols).map fun c =>
      (if p.accOpen ∨ p.fresh then openEntry p.cls p.xFmt p.openExp else old r c,
       p.exactOf (rowPartials p (fun w => rows.getD w Window.none_) (fun c w => (cw.getD c []).getD w Window.none_) c))

/-- Columns in which a NaN or infinity entered (02 R54); one in the trit operand is counted in column 0. -/
def ProdDesc.nonfiniteCols (p : ProdDesc) (x : ProdCtx) (cw : List (List Window)) : List Nat :=
  let inRows := p.wSram && (p.wFmt == Fmt.f8a || isWindowed p.wFmt) && (List.range p.rows).any fun r =>
    !x.skipped.contains r && (List.range p.windows).any fun w => (p.rowWindow x.weights x.sram none x.stride r w).nonfinite
  (List.range p.cols).filter fun c => (cw.getD c []).any (·.nonfinite) || (c == 0 && inRows)

/-- The first invalid T5 byte of the weight stream (02 R47). -/
def ProdDesc.badWeight (p : ProdDesc) (weights : Mem) : Option Nat :=
  (weights.find? fun e => p.wBase ≤ e.1 && e.1 < p.wBase + p.streamBytes && 243 ≤ e.2.toNat).map (·.1)

/-- The first invalid T5 byte of a trit operand in working SRAM, among the rows that are read (03 R80). -/
def ProdDesc.badOperand (p : ProdDesc) (x : ProdCtx) : Option Nat :=
  if p.wSram && (p.wFmt == Fmt.t1 || p.wFmt == Fmt.b1) then
    (x.sram.find? fun e => p.wBase ≤ e.1 && 243 ≤ e.2.toNat && (e.1 - p.wBase) / x.stride < p.rows &&
      (e.1 - p.wBase) % x.stride < ceilDiv p.k 5 && !x.skipped.contains ((e.1 - p.wBase) / x.stride)).map (·.1)
  else none

/-- The column sets of a product, each run once: first column and how many (03 R61, R85). -/
def ProdDesc.colSets (p : ProdDesc) : List (Nat × Nat) :=
  let served := colsServed p.shape
  (List.range (ceilDiv p.cols served)).map fun i => (i * served, min served (p.cols - i * served))

/-- Array cycles of a product, column set by column set (03 R65, R78, R79, R85, R87); rows that are skipped take none (10 R254). `latency` is 5 on B0, 7 on A1. -/
def ProdDesc.cycles (p : ProdDesc) (rows latency : Nat) : Nat :=
  if rows = 0 then 0 else
  let s := slicesOf p.xFmt
  let w := ceilDiv p.k (kWindow p.shape)
  let f := if p.direct ∧ p.xFmt = Fmt.f8a then 2 else 1
  let build (cols : Nat) :=
    if p.direct then ceilDiv (kWindow p.shape * cols) 256 * f
    else if p.reuse then 0
    else ceilDiv (groupsPer p.shape * cols * 122) 1024 + 1
  let pg := planesOf p.wFmt * ceilDiv (if p.fresh then p.bandRows else rows) (rowsPerCycle p.shape) * f
  let one (cols : Nat) :=
    if p.direct ∨ p.shape = 1 then build cols + (s * w - 1) * max pg (build cols) + pg + latency
    else s * w * (build cols + pg) + latency
  p.bands * (p.colSets.map fun q => one q.2).foldl (· + ·) 0

/-- The cells of one table from its five slice values (03 R62, R64): none where they are all zero. -/
def tableCells (n : Nat) (a : List Int) : Mem :=
  if a.all (· == 0) then []
  else (List.range 122).flatMap fun u =>
    cellsOf (Config.tableBase + 244 * n + 2 * u) (leBytes 2 (unsigned 16 (dot (balanced 5 (u : Int)) a)))

/-- The slice values of column `c` in build `n` of a column set: the builds go window by window and, within a window, slice by slice (03 R61, R68). Of two slices the low one is built first, in the order in which 02 R51 names them (DESIGN CHOICE, log entry 104). -/
def ProdDesc.buildSlices (p : ProdDesc) (cw : List (List Window)) (n c : Nat) : List Int :=
  let s := slicesOf p.xFmt
  let kw := kWindow p.shape
  let xs := (((cw.getD c []).flatMap (·.vals)).drop (n / s * kw)).take kw
  if s = 2 then xs.map (if n % 2 = 1 then (· / 256) else (· % 256)) else xs

/-- The first table of the bank that build `n` of a column set writes: in SB the banks alternate, and each column set of each band starts with bank 0 (03 R66; DESIGN CHOICE, log entry 104). -/
def ProdDesc.buildBank (p : ProdDesc) (n : Nat) : Nat := if p.shape = 1 ∧ n % 2 = 1 then 128 else 0

/-- The builds of a column set whose tables still stand at its end: the last one and, in SB, the one before it in the other bank (03 R66). -/
def ProdDesc.lastBuilds (p : ProdDesc) : List Nat :=
  let n := slicesOf p.xFmt * ceilDiv p.k (kWindow p.shape)
  (List.range n).drop (n - (if p.shape = 1 then 2 else 1))

/-- The table file after one build of a column set (03 R62, R64). -/
def ProdDesc.writeTables (p : ProdDesc) (cw : List (List Window)) (set : Nat × Nat) (m : Mem) (n : Nat) : Mem :=
  let g := groupsPer p.shape
  (List.range set.2).foldl (fun m i =>
    let xs := p.buildSlices cw n (set.1 + i)
    let first := p.buildBank n + g * i
    memSplice m (Config.tableBase + 244 * first) (244 * g)
      ((List.range g).flatMap fun j => tableCells (first + j) (padSlices (xs.drop (5 * j))))) m
where
  /-- the next five slice values, zero beyond K -/
  padSlices (xs : List Int) : List Int := (xs ++ [0, 0, 0, 0, 0]).take 5

/-- The table file after the builds of a product: what each column set leaves, in order (03 R61, R64, R66). -/
def ProdDesc.tableFile (p : ProdDesc) (cw : List (List Window)) (sram : Mem) : Mem :=
  p.colSets.foldl (fun m set => p.lastBuilds.foldl (p.writeTables cw set) m) sram

/-- Enters a cycle's result into the counter of a log-class entry; `n` is 19 minus the level (04 R101). -/
def pushLevel : Nat → List (Option Nat) → Nat → List (Option Nat)
  | _, [], v => [some v]
  | _, none :: r, v => some v :: r
  | 0, some x :: r, v => some (logAdd x v) :: r
  | n + 1, some x :: r, v => none :: pushLevel n r (logAdd x v)

/-- The counter folded from lowest to highest level (04 R101); the zero code when nothing has reached it. -/
def foldLevels (ls : List (Option Nat)) : Nat :=
  (ls.filterMap id).foldl (fun (acc : Option Nat) v => some (match acc with
    | none => v
    | some a => logAdd v a)) none |>.getD 0x4000

/-- The pairwise tree of the log-add over neighbouring lanes (04 R101); `n` bounds the levels. -/
def logTree : Nat → List Nat → Nat
  | 0, xs => xs.headD 0x4000
  | n + 1, xs => match xs with
    | [] => 0x4000
    | [x] => x
    | _ => logTree n (pairs xs)
where
  /-- one level -/
  pairs : List Nat → List Nat
    | x :: y :: r => logAdd x y :: pairs r
    | r => r

/-- A log descriptor (06 R154). -/
structure LogDesc where
  antilog : Bool
  xL8 : Bool
  yL8 : Bool
  accOpen : Bool
  xBcast : Nat
  yBcast : Nat
  groups : Nat
  linFrac : Nat
  xBase : Nat
  yBase : Nat
  accBase : Nat
  nCycles : Nat
  deriving DecidableEq, Repr

/-- The fields of a log descriptor (06 R154). -/
def logDesc (d : Nat) : LogDesc :=
  { antilog := bitOf d 6, xL8 := bitOf d 7, yL8 := bitOf d 8, accOpen := bitOf d 9, xBcast := bitsOf d 10 4,
    yBcast := bitsOf d 14 4, groups := bitsOf d 18 4, linFrac := bitsOf d 22 6, xBase := bitsOf d 28 19,
    yBase := bitsOf d 47 19, accBase := bitsOf d 66 13, nCycles := bitsOf d 79 20 }

/-- Bytes of a log operand stream (06 R154). -/
def logBytes (l8 : Bool) (bcast n : Nat) : Nat := n * (512 / 2 ^ bcast) * (if l8 then 1 else 2)

/-- Operand of lane `i` in cycle `t` (06 R154). -/
def logOperand (sram : Mem) (base : Nat) (l8 : Bool) (bcast t i : Nat) : Nat :=
  let j := t * (512 / 2 ^ bcast) + i / 2 ^ bcast
  if l8 then l8ToL16 (codeAt sram base Fmt.l8 j) else codeAt sram base Fmt.l16 j

/-- The products of the lanes of group `g` in cycle `t` (03 R81). -/
def LogDesc.lanes (p : LogDesc) (sram : Mem) (t g : Nat) : List Nat :=
  let n := 512 / 2 ^ p.groups
  (List.range n).map fun i => logMul (logOperand sram p.xBase p.xL8 p.xBcast t (g * n + i))
    (logOperand sram p.yBase p.yL8 p.yBcast t (g * n + i))

/-- The exact sum of two antilog-class values, in the finer of their two units, before it saturates (03 R83, 04 R96, R104; DEDUCED, log entry 104). -/
def addExact (a b : Int × Int) : Int × Int :=
  let z := min a.2 b.2
  (a.1 * 2 ^ (a.2 - z).toNat + b.1 * 2 ^ (b.2 - z).toNat, z)

/-- One cycle of a group into its entry; true where the sum saturated (03 R82, R83, 04 R96, R101). A descriptor whose `lin_frac` is not that of the open entry is added exactly, in the finer unit (log entry 104). -/
def LogDesc.cycle (p : LogDesc) (xs : List Nat) (e : Entry) : Entry × Bool :=
  if p.antilog then
    let s := addExact (e.sig.getD 0, e.exp) ((xs.map fun c => Machine.antilog c p.linFrac).foldl (· + ·) 0, -(p.linFrac : Int))
    ({ e with sig := some (clamp (-sigLimit) sigLimit s.1), exp := s.2 }, decide (sigLimit < s.1.natAbs))
  else
    ({ e with levels := pushLevel 19 e.levels (logTree 9 (xs.map fun c => if bitOf c 15 then 0x4000 else c)) }, false)

/-- All cycles of a group. -/
def LogDesc.run (p : LogDesc) (sram : Mem) (g : Nat) (e : Entry) : Entry × Bool :=
  (List.range p.nCycles).foldl (fun (acc : Entry × Bool) t =>
    let (e1, b) := p.cycle (p.lanes sram t g) acc.1
    (e1, acc.2 || b)) (e, false)

/-- The entry that a LOG_PRODUCT opens (06 R154, 04 R106). -/
def LogDesc.opened (p : LogDesc) : Entry :=
  if p.antilog then openEntry .antilog Fmt.l16 (-(p.linFrac : Int)) else openEntry .log Fmt.l16 0

/-- The lanes that meet a negative product over the cycles of a log-add descriptor: each raises one LOG_SIGN, in ascending lane order (03 R82; DESIGN CHOICE, log entry 34). -/
def LogDesc.negLanes (p : LogDesc) (sram : Mem) : List Nat :=
  if p.antilog then []
  else
    let cycles := (List.range p.nCycles).map fun t => ((List.range (2 ^ p.groups)).flatMap fun g => p.lanes sram t g).map
      fun c => bitOf c 15 && (l16Mag c).isSome
    (List.range 512).filter fun lane => cycles.any fun (l : List Bool) => l.getD lane false

/-- An entry as a partial (04 R105, R106). A masked entry travels as −∞ (10 R254). -/
def Entry.partial_ (e : Entry) : Partial :=
  if e.masked then { sig := 0, exp := 0, tag := e.tag, kind := 2, vclass := 2 }
  else if e.special ≠ 0 then { sig := 0, exp := 0, tag := e.tag, kind := 2, vclass := e.special }
  else if e.cls = .log then { sig := foldLevels e.levels, exp := 0, tag := e.tag, kind := 3 }
  else { sig := e.sig.getD 0, exp := e.exp, tag := e.tag, kind := 0 }

/-- A value class and significand as a value (04 R105). -/
def Partial.value (p : Partial) : FV :=
  if p.kind = 3 then l16Value p.sig.toNat
  else if p.vclass = 1 then .inf false
  else if p.vclass = 2 then .inf true
  else if p.vclass = 3 then .nan
  else FV.ofInt p.sig p.exp

/-- A partial word (04 R105). -/
def Partial.word (p : Partial) : Nat :=
  let plain := p.vclass = 0
  pack [(0, 48, if plain then unsigned 48 p.sig else 0), (48, 10, if plain then unsigned 10 p.exp else 0),
        (58, 4, p.tag), (62, 2, p.kind)]

/-- The second word of a maximum or minimum partial (04 R105). -/
def Partial.word2 (p : Partial) : Nat := pack [(0, 32, p.idx), (32, 2, p.vclass)]

/-- The bytes of a partial: 8, or 16 for a maximum or minimum pair (06 R149). -/
def Partial.bytes (p : Partial) : List Byte :=
  leBytes 8 p.word ++ (if p.kind = 2 then leBytes 8 p.word2 else [])

/-- The partial that a word spells (04 R105). -/
def partialOf (w : Nat) : Partial :=
  { sig := if bitsOf w 62 2 = 3 then (bitsOf w 0 16 : Int) else signed 48 (bitsOf w 0 48),
    exp := signed 10 (bitsOf w 48 10), tag := bitsOf w 58 4, kind := bitsOf w 62 2 }

/-- The partial that two words spell (04 R105). -/
def partialPairOf (w w2 : Nat) : Partial := { partialOf w with idx := bitsOf w2 0 32, vclass := bitsOf w2 32 2 }

/-- A value and index as a maximum or minimum partial (04 R105). -/
def pairPartial (tag : Nat) (v : FV) (idx : Nat) : Partial :=
  match v with
  | .fin neg m e =>
    let (s, z) := renorm sigLimit (Nat.log2 m + 1) (signedOf neg m) e
    { sig := s, exp := z, tag := tag, kind := 2, idx := idx }
  | .inf neg => { sig := 0, exp := 0, tag := tag, kind := 2, idx := idx, vclass := if neg then 2 else 1 }
  | .nan => { sig := 0, exp := 0, tag := tag, kind := 2, idx := idx, vclass := 3 }

end Sys2Proof.Machine
end

