-- ==== Sys2Proof/Machine/Reduce.lean ====
section
/-! DEFINITION. Folding partials at a node of a reduction tree: the operation of each class in fold order (04 R104, R110, R112), wide roots (R109) and the layouts in which a root writes its result (06 R155). -/
namespace Sys2Proof.Machine

/-- The winner of a maximum or minimum (04 R112). -/
def foldBest (maximum : Bool) : List Partial → Partial
  | [] => { sig := 0, exp := 0, tag := 0, kind := 2, vclass := 3 }
  | p :: ps => ps.foldl (fun w q => if beats maximum q.value q.idx w.value w.idx then q else w) p

/-- The log-add of log partials in fold order (04 R104). -/
def foldLog : List Partial → Partial
  | [] => { sig := 0x4000, exp := 0, tag := Fmt.l16, kind := 3 }
  | p :: ps => { p with sig := (ps.foldl (fun c q => logAdd c q.sig.toNat) (logAdd 0x4000 p.sig.toNat) : Nat) }

/-- A running sum and the spill buffer of its root: partial, buffer, merges since the last flush (04 R110). -/
structure Run where
  cur : Option (Int × Int)
  buf : Option (Int × Int)
  n : Nat
  deriving DecidableEq, Repr

/-- Adds the running partial into the spill buffer and clears it (04 R110). -/
def Run.flush (r : Run) : Run :=
  match r.cur with
  | none => { r with n := 0 }
  | some (s, z) => { cur := none, buf := merge (2 ^ 63 - 1) r.buf s z, n := 0 }

/-- One merge; the root of a spill tree flushes after every 4,096 (04 R97, R110). -/
def Run.step (spill : Bool) (r : Run) (p : Partial) : Run :=
  let r1 := { r with cur := merge sigLimit r.cur p.sig p.exp, n := r.n + 1 }
  if spill && r1.n == 4096 then r1.flush else r1

/-- The sum of partials in fold order: the merge of R97, which is exact where they share an exponent; antilog partials add exactly in the finest of their units (04 R96, R104). The exact antilog sum saturates once, at the end and with no event (DESIGN CHOICE, log entry 104). `spill` at the root of a class-1 tree. -/
def foldSum (spill : Bool) : List Partial → Partial
  | [] => { sig := 0, exp := 0, tag := 0, kind := 0 }
  | p :: ps =>
    if p.tag = Fmt.l16 then
      let s := ps.foldl (fun s q => addExact s (q.sig, q.exp)) (p.sig, p.exp)
      { p with sig := clamp (-sigLimit) sigLimit s.1, exp := s.2 }
    else
      let r := (p :: ps).foldl (Run.step spill) { cur := none, buf := none, n := 0 }
      let v := if spill then
          (match r.flush.buf with
          | some (s, z) => merge sigLimit none s z
          | none => none)
        else r.cur
      match v with
      | some (s, z) => { p with sig := s, exp := z }
      | none => { p with sig := 0 }

/-- A node's result for one element, its own partial first, then its inputs by slot (04 R104). Antilog and log partials both carry L16 (04 R106); where they meet, the fold is the log-add (DESIGN CHOICE, log entry 104). -/
def foldNode (cls : Nat) (root : Bool) (ps : List Partial) : Partial :=
  if cls = 3 ∨ cls = 4 then foldBest (cls == 3) ps
  else if ps.any fun p => p.kind == 3 then foldLog ps
  else foldSum (root && cls == 1) ps

/-- The exact wide sum of partials: value and unit (04 R109). Partials below 2^(Zmax − 160) are rounded to that unit. -/
def wideSum (ps : List Partial) : Int × Int :=
  let nz := ps.filter fun p => p.sig != 0
  match nz with
  | [] => (0, 0)
  | p :: _ =>
    if nz.all fun q => q.exp == p.exp then (nz.foldl (fun s q => s + q.sig) 0, p.exp)
    else
      let lsb := nz.foldl (fun z q => max z q.exp) p.exp - 160
      (nz.foldl (fun s q => s + rneShift q.sig (q.exp - lsb)) 0, lsb)

/-- The wide result as an F32 value (04 R109). -/
def wideF32 (ps : List Partial) : FV :=
  if ps.any fun p => p.kind == 3 then round32 (foldLog ps).value
  else
    let (s, z) := wideSum ps
    round32 (FV.ofInt s z)

/-- The wide result as a partial, by the merge rounding of R97 (04 R109). -/
def widePartial (ps : List Partial) : Partial :=
  if ps.any fun p => p.kind == 3 then foldLog ps
  else
    let tag := (ps.head?.map (·.tag)).getD 0
    let (s, z) := wideSum ps
    match merge sigLimit none s z with
    | some (a, b) => { sig := a, exp := b, tag := tag, kind := 1 }
    | none => { sig := 0, exp := 0, tag := tag, kind := 1 }

/-- The partials of each element in fold order: the local one, then the inputs by slot (04 R104). -/
def foldOrder (loc : List Partial) (inputs : List (Nat × List Partial)) (e : Nat) : List Partial :=
  loc[e]?.toList ++ inputs.filterMap fun i => i.2[e]?

/-- A node of a recovery tree adds exactly, partial by partial (09 R220). -/
def sumExact (loc : List Partial) (inputs : List (Nat × List Partial)) : List Partial :=
  (List.range loc.length).filterMap fun e => match foldOrder loc inputs e with
    | [] => none
    | p :: ps =>
      let s := ps.foldl (fun s q => addExact s (q.sig, q.exp)) (p.sig, p.exp)
      some { p with sig := s.1, exp := s.2 }

/-- The entries that the root of a recovery tree forms: to each entry the lost member's partials, windows in ascending K (04 R97, 09 R220). -/
def recoveredEntries : List (Entry × List Partial) → List Partial → List Entry
  | [], _ => []
  | (e, ps) :: r, qs => (qs.take ps.length).foldl (fun e q => e.addWindow q.sig q.exp) e :: recoveredEntries r (qs.drop ps.length)

/-- A maximum or minimum as the 8-byte pair of R157. -/
def pairBytes (v : FV) (idx : Nat) : List Byte := leBytes 4 (code32 v) ++ leBytes 4 idx

end Sys2Proof.Machine
end

