-- ==== Sys2Proof/Machine/Regs.lean ====
section
/-! DEFINITION. The registers of BAR0 as fields: offset, bits, access type and reset value, from the register tables of the chapters (13 R334, 12 R304, 14 R348, 15 R372, 11 R294, 16 R385, 17 R403, 18 R417, 19 R429, 20 R449, 21 R467, 22 R474-R480), and the one operation that reads and the one that writes a field. -/
namespace Sys2Proof.Machine

/-- The access types of 00 R6. -/
inductive Acc where
  | ro
  | rw
  | w1c
  | w1s
  | wo
  | rc
  deriving DecidableEq, Repr

/-- A register field: byte offset of its 64-bit word in BAR0, low bit, width, access type, reset value. -/
structure Fld where
  off : Nat
  lo : Nat
  width : Nat
  acc : Acc
  reset : Nat
  deriving DecidableEq, Repr

/-- The key of a field in the register file. -/
def fldKey (f : Fld) : Nat := 64 * f.off + f.lo

namespace Reg

/-- `MODE` (11 R294). -/
def syncMode : Fld := ⟨0x00600040, 0, 2, .rw, 0⟩
/-- `DIV` (11 R294). -/
def syncDiv : Fld := ⟨0x00600040, 2, 8, .rw, 0⟩
/-- `OFFSET` (11 R294). -/
def syncOffset : Fld := ⟨0x00600040, 10, 24, .rw, 0⟩
/-- `LOCKED` (11 R294). -/
def syncLocked : Fld := ⟨0x00600048, 0, 1, .ro, 0⟩
/-- `RANGE` (11 R294). -/
def syncRange : Fld := ⟨0x00600048, 1, 1, .w1c, 0⟩
/-- `LOST` (11 R294). -/
def syncLost : Fld := ⟨0x00600048, 2, 1, .w1c, 0⟩
/-- `STRETCH` (11 R294). -/
def syncStretch : Fld := ⟨0x00600048, 16, 16, .ro, 0⟩
/-- `PHASE_ERR` (11 R294). -/
def syncPhaseErr : Fld := ⟨0x00600048, 32, 24, .ro, 0⟩
/-- `SQ_BASE` (12 R304). -/
def sqBase (q : Nat) : Fld := ⟨0x100000 + 64 * q + 0x00, 0, 48, .rw, if q = 0 then Config.zeroRings else 0⟩
/-- `SQ_SIZE` (12 R304). -/
def sqSize (q : Nat) : Fld := ⟨0x100000 + 64 * q + 0x00, 48, 4, .rw, if q = 0 then 3 else 0⟩
/-- `CQ_SIZE` (12 R304). -/
def cqSize (q : Nat) : Fld := ⟨0x100000 + 64 * q + 0x00, 52, 4, .rw, if q = 0 then 3 else 0⟩
/-- `CLASS` (12 R304). -/
def qClass (q : Nat) : Fld := ⟨0x100000 + 64 * q + 0x00, 56, 2, .rw, 0⟩
/-- `PATH` (12 R304). -/
def qPath (q : Nat) : Fld := ⟨0x100000 + 64 * q + 0x00, 58, 2, .rw, if q = 0 then 2 else 0⟩
/-- `ENABLE` (12 R304). -/
def qEnable (q : Nat) : Fld := ⟨0x100000 + 64 * q + 0x00, 60, 1, .rw, if q = 0 then 1 else 0⟩
/-- `CQ_BASE` (12 R304). -/
def cqBase (q : Nat) : Fld := ⟨0x100000 + 64 * q + 0x08, 0, 48, .rw, if q = 0 then Config.zeroRings + 1024 else 0⟩
/-- `TENANT` (12 R304). -/
def qTenant (q : Nat) : Fld := ⟨0x100000 + 64 * q + 0x08, 48, 12, .rw, 0⟩
/-- `NOTIFY_RING` (12 R304). -/
def notifyRing (q : Nat) : Fld := ⟨0x100000 + 64 * q + 0x10, 0, 16, .rw, 0xffff⟩
/-- `PEER` (12 R304). -/
def qPeer (q : Nat) : Fld := ⟨0x100000 + 64 * q + 0x10, 16, 10, .rw, 0⟩
/-- `SQ_HEAD` (12 R304). -/
def sqHead (q : Nat) : Fld := ⟨0x100000 + 64 * q + 0x18, 0, 16, .ro, 0⟩
/-- `SQ_TAIL` (12 R304). -/
def sqTail (q : Nat) : Fld := ⟨0x100000 + 64 * q + 0x18, 16, 16, .ro, 0⟩
/-- `CQ_HEAD` (12 R304). -/
def cqHead (q : Nat) : Fld := ⟨0x100000 + 64 * q + 0x18, 32, 16, .ro, 0⟩
/-- `CQ_TAIL` (12 R304). -/
def cqTail (q : Nat) : Fld := ⟨0x100000 + 64 * q + 0x18, 48, 16, .ro, 0⟩
/-- `BUF_BASE` (12 R304). -/
def bufBase (q : Nat) : Fld := ⟨0x100000 + 64 * q + 0x20, 0, 48, .rw, 0⟩
/-- `BUF_BYTES` (12 R304). -/
def bufBytes (q : Nat) : Fld := ⟨0x100000 + 64 * q + 0x28, 0, 48, .rw, 0⟩
/-- `ERR_BASE` (12 R304). -/
def errBase (q : Nat) : Fld := ⟨0x100000 + 64 * q + 0x30, 0, 1, .w1c, 0⟩
/-- `ERR_DOORBELL` (12 R304). -/
def errDoorbell (q : Nat) : Fld := ⟨0x100000 + 64 * q + 0x30, 1, 1, .w1c, 0⟩
/-- `CQ_STALL` (12 R304). -/
def cqStall (q : Nat) : Fld := ⟨0x100000 + 64 * q + 0x30, 2, 1, .w1c, 0⟩
/-- `CMD_COUNT` (12 R304). -/
def cmdCount (q : Nat) : Fld := ⟨0x100000 + 64 * q + 0x38, 0, 64, .ro, 0⟩
/-- `MODE` (12 R316). -/
def modeSplit : Fld := ⟨0x00600000, 0, 8, .ro, 0⟩
/-- `PENDING` (12 R316). -/
def modePending : Fld := ⟨0x00600000, 8, 8, .ro, 0⟩
/-- `EVT_ENABLE` (13 R334). -/
def evtEnable : Fld := ⟨0x00010000, 0, 1, .rw, 0⟩
/-- `EVT_EOI` (13 R334). -/
def evtEoi : Fld := ⟨0x00010008, 0, 12, .wo, 0⟩
/-- `EVT_SPURIOUS_EOI` (13 R334). -/
def evtSpuriousEoi : Fld := ⟨0x00010010, 0, 32, .rc, 0⟩
/-- `RAISE_SOURCE` (13 R334). -/
def raiseSource : Fld := ⟨0x00010018, 0, 9, .wo, 0⟩
/-- `RAISE_DETAIL` (13 R334). -/
def raiseDetail : Fld := ⟨0x00010018, 16, 16, .wo, 0⟩
/-- `AON_LATCH` (13 R334). -/
def aonLatch : Fld := ⟨0x00010020, 0, 6, .w1c, 0⟩
/-- `AON_WAKE_EN` (13 R334). -/
def aonWakeEn : Fld := ⟨0x00010028, 0, 6, .rw, 0⟩
/-- `AON_COUNT` (13 R334). -/
def aonCount : Fld := ⟨0x00010030, 0, 48, .ro, 0⟩
/-- `AON_TICK` (13 R334). -/
def aonTick (i : Nat) : Fld := ⟨0x00010040 + 8 * i, 0, 48, .ro, 0⟩
/-- `ROUTE_RING` (13 R334). -/
def routeRing (n : Nat) : Fld := ⟨0x00012000 + 8 * n, 0, 12, .rw, 0⟩
/-- `ROUTE_EN` (13 R334). -/
def routeEn (n : Nat) : Fld := ⟨0x00012000 + 8 * n, 12, 1, .rw, 0⟩
/-- `SRC_COUNT` (13 R334). -/
def srcCount (n : Nat) : Fld := ⟨0x00012000 + 8 * n, 32, 32, .ro, 0⟩
/-- `BANK_PENDING` (13 R334). -/
def bankPending (k : Nat) : Fld := ⟨0x00014000 + 256 * k, 0, 64, .ro, 0⟩
/-- `BANK_ENABLE` (13 R334). -/
def bankEnable (k : Nat) : Fld := ⟨0x00014008 + 256 * k, 0, 64, .rw, 0⟩
/-- `BANK_EOI` (13 R334). -/
def bankEoi (k : Nat) : Fld := ⟨0x00014010 + 256 * k, 0, 6, .wo, 0⟩
/-- `BASE` (13 R334). -/
def ringBase (r : Nat) : Fld := ⟨0x20000 + 32 * r + 0x00, 0, 48, .rw, 0⟩
/-- `SIZE` (13 R334). -/
def ringSize (r : Nat) : Fld := ⟨0x20000 + 32 * r + 0x00, 48, 4, .rw, 0⟩
/-- `TARGET` (13 R334). -/
def ringTarget (r : Nat) : Fld := ⟨0x20000 + 32 * r + 0x00, 52, 2, .rw, 0⟩
/-- `ENABLE` (13 R334). -/
def ringEnable (r : Nat) : Fld := ⟨0x20000 + 32 * r + 0x00, 54, 1, .rw, 0⟩
/-- `ACTIVE` (13 R334). -/
def ringActive (r : Nat) : Fld := ⟨0x20000 + 32 * r + 0x00, 55, 1, .ro, 0⟩
/-- `VECTOR` (13 R334). -/
def ringVector (r : Nat) : Fld := ⟨0x20000 + 32 * r + 0x08, 0, 11, .rw, 0⟩
/-- `HEAD` (13 R334). -/
def ringHead (r : Nat) : Fld := ⟨0x20000 + 32 * r + 0x08, 16, 16, .rw, 0⟩
/-- `TAIL` (13 R334). -/
def ringTail (r : Nat) : Fld := ⟨0x20000 + 32 * r + 0x08, 32, 16, .ro, 0⟩
/-- `OVERFLOW` (13 R334). -/
def ringOverflow (r : Nat) : Fld := ⟨0x20000 + 32 * r + 0x08, 48, 1, .w1c, 0⟩
/-- `LOST` (13 R334). -/
def ringLost (r : Nat) : Fld := ⟨0x20000 + 32 * r + 0x10, 0, 32, .ro, 0⟩
/-- `LOST_STACK` (14 R348). -/
def lostStack : Fld := ⟨0x00500000, 0, 4, .ro, 15⟩
/-- `REMAP_STATE` (14 R348). -/
def remapState : Fld := ⟨0x00500000, 4, 2, .ro, 0⟩
/-- `MIRROR_GIB` (14 R348). -/
def mirrorGib : Fld := ⟨0x00500008, 0, 7, .rw, 16⟩
/-- `ECC_MODE` (14 R348). -/
def eccMode : Fld := ⟨0x00500008, 7, 1, .rw, 0⟩
/-- `DRAM_TOP` (14 R348). -/
def dramTop : Fld := ⟨0x00500010, 0, 48, .ro, 0x6000000000⟩
/-- `STATE` (14 R348). -/
def stackState (s : Nat) : Fld := ⟨0x00501000 + 256 * s, 0, 2, .ro, 0⟩
/-- `TEMP` (14 R348). -/
def stackTemp (s : Nat) : Fld := ⟨0x00501000 + 256 * s, 2, 8, .ro, 0⟩
/-- `INNER_CORR` (14 R348). -/
def innerCorr (s : Nat) : Fld := ⟨0x00501008 + 256 * s, 0, 32, .rc, 0⟩
/-- `OUTER_CORR` (14 R348). -/
def outerCorr (s : Nat) : Fld := ⟨0x00501008 + 256 * s, 32, 32, .rc, 0⟩
/-- `UNCORR` (14 R348). -/
def uncorr (s : Nat) : Fld := ⟨0x00501010 + 256 * s, 0, 32, .rc, 0⟩
/-- `POISONED` (14 R348). -/
def poisoned (s : Nat) : Fld := ⟨0x00501010 + 256 * s, 32, 32, .ro, 0⟩
/-- `ERR_UNCORR` (14 R348). -/
def errUncorr (s : Nat) : Fld := ⟨0x00501018 + 256 * s, 0, 1, .w1c, 0⟩
/-- `ERR_TRAIN` (14 R348). -/
def errTrain (s : Nat) : Fld := ⟨0x00501018 + 256 * s, 1, 1, .w1c, 0⟩
/-- `SCRUB_OFFSET` (14 R348). -/
def scrubOffset (s : Nat) : Fld := ⟨0x00501020 + 256 * s, 0, 48, .ro, 0⟩
/-- `DEVICE` (15 R372). -/
def fabDevice : Fld := ⟨0x00400000, 0, 10, .ro, 0⟩
/-- `ROLE` (15 R372). -/
def fabRole : Fld := ⟨0x00400000, 10, 2, .ro, 3⟩
/-- `MEMBER_STATE` (15 R372). -/
def memberState : Fld := ⟨0x00400000, 12, 3, .ro, 0⟩
/-- `COORDINATOR` (15 R372). -/
def coordinator : Fld := ⟨0x00400000, 15, 1, .ro, 0⟩
/-- `SYSTEM_ID` (15 R372). -/
def systemId : Fld := ⟨0x00400008, 0, 64, .ro, 0⟩
/-- `EPOCH` (15 R372). -/
def fabEpoch : Fld := ⟨0x00400010, 0, 32, .ro, 0⟩
/-- `MIGRATE_PAGES` (15 R372). -/
def migratePages : Fld := ⟨0x00400018, 0, 1, .rw, 0⟩
/-- `TIME_SRC` (15 R372). -/
def timeSrc : Fld := ⟨0x00400018, 1, 2, .rw, 0⟩
/-- `SEG_PREV` (15 R372). -/
def segPrev : Fld := ⟨0x00400018, 3, 10, .rw, 1023⟩
/-- `SEG_NEXT` (15 R372). -/
def segNext : Fld := ⟨0x00400018, 13, 10, .rw, 1023⟩
/-- `SEGMENT` (15 R372). -/
def segment : Fld := ⟨0x00400018, 23, 4, .rw, 0⟩
/-- `AUTH_DROP` (15 R372). -/
def authDrop : Fld := ⟨0x00400020, 0, 32, .rc, 0⟩
/-- `PLANE_PREFIX` (15 R372). -/
def planePrefix (p : Nat) : Fld := ⟨0x00400100 + 16 * p, 0, 64, .rw, 0⟩
/-- `LINK_UP` (15 R372). -/
def linkUp (p : Nat) : Fld := ⟨0x00400108 + 16 * p, 0, 1, .ro, 0⟩
/-- `PHY` (15 R372). -/
def portPhy (p : Nat) : Fld := ⟨0x00400108 + 16 * p, 1, 1, .ro, 0⟩
/-- `ERR_DOWN` (15 R372). -/
def errDown (p : Nat) : Fld := ⟨0x00400108 + 16 * p, 2, 1, .w1c, 0⟩
/-- `LOST` (15 R372). -/
def portLost (p : Nat) : Fld := ⟨0x00400108 + 16 * p, 3, 1, .ro, 0⟩
/-- `FEC_UNCORR` (15 R372). -/
def fecUncorr (p : Nat) : Fld := ⟨0x00400108 + 16 * p, 32, 32, .rc, 0⟩
/-- `PTP_LOCKED` (15 R372). -/
def ptpLocked : Fld := ⟨0x00400200, 0, 1, .ro, 0⟩
/-- `ERR_UNLOCK` (15 R372). -/
def ptpErrUnlock : Fld := ⟨0x00400200, 1, 1, .w1c, 0⟩
/-- `PTP_OFFSET` (15 R372). -/
def ptpOffset : Fld := ⟨0x00400200, 32, 32, .ro, 0⟩
/-- `DEVICE_TIME` (15 R372). -/
def deviceTime : Fld := ⟨0x00400208, 0, 64, .ro, 0⟩
/-- `PEER_STATE` (15 R372). -/
def peerState (d : Nat) : Fld := ⟨0x00401000 + 8 * d, 0, 3, .ro, 0⟩
/-- `PEER_ROLE` (15 R372). -/
def peerRole (d : Nat) : Fld := ⟨0x00401000 + 8 * d, 3, 2, .ro, 0⟩
/-- `PATHS_UP` (15 R372). -/
def pathsUp (d : Nat) : Fld := ⟨0x00401000 + 8 * d, 5, 7, .ro, 0⟩
/-- `RTT` (15 R372). -/
def rtt (d : Nat) : Fld := ⟨0x00401000 + 8 * d, 32, 32, .ro, 0⟩
/-- `ACTIVE_VERSION` (16 R385). -/
def activeVersion : Fld := ⟨0x00600080, 0, 32, .ro, 0⟩
/-- `STAGED_VERSION` (16 R385). -/
def stagedVersion : Fld := ⟨0x00600080, 32, 32, .ro, 0⟩
/-- `STAGE_STATE` (16 R385). -/
def stageState : Fld := ⟨0x00600088, 0, 3, .ro, 0⟩
/-- `SWAP_STATE` (16 R385). -/
def swapState : Fld := ⟨0x00600088, 3, 3, .ro, 0⟩
/-- `FWD_ACTIVE` (16 R385). -/
def fwdActive : Fld := ⟨0x00600088, 6, 1, .ro, 0⟩
/-- `PKG_KIND` (16 R385). -/
def pkgKind : Fld := ⟨0x00600088, 7, 1, .ro, 0⟩
/-- `STAGE_BYTES` (16 R385). -/
def stageBytes : Fld := ⟨0x00600090, 0, 64, .ro, 0⟩
/-- `ERR_STAGE` (16 R385). -/
def errStage : Fld := ⟨0x00600098, 0, 1, .w1c, 0⟩
/-- `FEED_A_OK` (17 R403). -/
def feedAOk : Fld := ⟨0x00200000, 0, 1, .ro, 0⟩
/-- `FEED_B_OK` (17 R403). -/
def feedBOk : Fld := ⟨0x00200000, 1, 1, .ro, 0⟩
/-- `ON_HUM` (17 R403). -/
def onHum : Fld := ⟨0x00200000, 2, 1, .ro, 0⟩
/-- `HUM_PRESENT` (17 R403). -/
def humPresent : Fld := ⟨0x00200000, 3, 1, .ro, 0⟩
/-- `HUM_AUTH_OK` (17 R403). -/
def humAuthOk : Fld := ⟨0x00200000, 4, 1, .ro, 0⟩
/-- `RIDE_OK` (17 R403). -/
def rideOk : Fld := ⟨0x00200000, 5, 1, .ro, 0⟩
/-- `FEED_A_MV` (17 R403). -/
def feedAMv : Fld := ⟨0x00200008, 0, 16, .ro, 0⟩
/-- `FEED_B_MV` (17 R403). -/
def feedBMv : Fld := ⟨0x00200008, 16, 16, .ro, 0⟩
/-- `BUS_MV` (17 R403). -/
def busMv : Fld := ⟨0x00200008, 32, 16, .ro, 0⟩
/-- `INPUT_W` (17 R403). -/
def inputW : Fld := ⟨0x00200010, 0, 24, .ro, 0⟩
/-- `RIDE_THRESH` (17 R403). -/
def rideThresh : Fld := ⟨0x00200018, 0, 9, .rw, 200⟩
/-- `RIDE_EFFECTIVE` (17 R403). -/
def rideEffective : Fld := ⟨0x00200018, 16, 9, .ro, 0⟩
/-- `HUM_MF` (17 R403). -/
def humMf : Fld := ⟨0x00200020, 0, 16, .ro, 0⟩
/-- `HUM_ESR_UOHM` (17 R403). -/
def humEsrUohm : Fld := ⟨0x00200020, 16, 16, .ro, 0⟩
/-- `HUM_ENERGY_J` (17 R403). -/
def humEnergyJ : Fld := ⟨0x00200020, 32, 16, .ro, 0⟩
/-- `HUM_DAYS` (17 R403). -/
def humDays : Fld := ⟨0x00200020, 48, 16, .ro, 0xffff⟩
/-- `HUM_CYCLES` (17 R403). -/
def humCycles : Fld := ⟨0x00200028, 0, 32, .ro, 0⟩
/-- `HUM_HOURS` (17 R403). -/
def humHours : Fld := ⟨0x00200028, 32, 32, .ro, 0⟩
/-- `ERR_FEED_A` (17 R403). -/
def errFeedA : Fld := ⟨0x00200030, 0, 1, .w1c, 0⟩
/-- `ERR_FEED_B` (17 R403). -/
def errFeedB : Fld := ⟨0x00200030, 1, 1, .w1c, 0⟩
/-- `ERR_HUM` (17 R403). -/
def errHum : Fld := ⟨0x00200030, 2, 1, .w1c, 0⟩
/-- `ERR_RIDE` (17 R403). -/
def errRide : Fld := ⟨0x00200030, 3, 1, .w1c, 0⟩
/-- `FIELD_STATE` (17 R403). -/
def fieldState (n : Nat) : Fld := ⟨0x00200100 + 16 * n, 0, 2, .ro, 0⟩
/-- `VL_PHASES` (17 R403). -/
def vlPhases (n : Nat) : Fld := ⟨0x00200100 + 16 * n, 2, 5, .ro, 0⟩
/-- `VM_PHASES` (17 R403). -/
def vmPhases (n : Nat) : Fld := ⟨0x00200100 + 16 * n, 7, 3, .ro, 0⟩
/-- `VMIN` (17 R403). -/
def vmin (n : Nat) : Fld := ⟨0x00200100 + 16 * n, 10, 10, .ro, 0⟩
/-- `VL_AMPS` (17 R403). -/
def vlAmps (n : Nat) : Fld := ⟨0x00200100 + 16 * n, 20, 12, .ro, 0⟩
/-- `ERR_TRIP` (17 R403). -/
def errTrip (n : Nat) : Fld := ⟨0x00200100 + 16 * n, 32, 1, .w1c, 0⟩
/-- `ERR_PHASE` (17 R403). -/
def errPhase (n : Nat) : Fld := ⟨0x00200100 + 16 * n, 33, 1, .w1c, 0⟩
/-- `ERR_CRACK` (17 R403). -/
def errCrack (n : Nat) : Fld := ⟨0x00200100 + 16 * n, 34, 1, .w1c, 0⟩
/-- `VMIN_TARGET` (17 R403). -/
def vminTarget (n : Nat) : Fld := ⟨0x00200108 + 16 * n, 0, 10, .rw, 720⟩
/-- `VL_SET` (17 R403). -/
def vlSet (n : Nat) : Fld := ⟨0x00200108 + 16 * n, 10, 10, .ro, 0⟩
/-- `FREQ_STEP` (18 R417). -/
def freqStep : Fld := ⟨0x00201000, 0, 7, .rw, 64⟩
/-- `FREQ_NOW` (18 R417). -/
def freqNow : Fld := ⟨0x00201000, 8, 7, .ro, 0⟩
/-- `FREQ_PENDING` (18 R417). -/
def freqPending : Fld := ⟨0x00201000, 15, 1, .ro, 0⟩
/-- `INLET_T` (18 R417). -/
def inletT : Fld := ⟨0x00201008, 0, 12, .ro, 0⟩
/-- `OUTLET_T` (18 R417). -/
def outletT : Fld := ⟨0x00201008, 12, 12, .ro, 0⟩
/-- `FLOW` (18 R417). -/
def coolFlow : Fld := ⟨0x00201008, 24, 10, .ro, 0⟩
/-- `DP_MBAR` (18 R417). -/
def dpMbar : Fld := ⟨0x00201008, 34, 12, .ro, 0⟩
/-- `COOL_RANGE` (18 R417). -/
def coolRange : Fld := ⟨0x00201008, 46, 1, .ro, 0⟩
/-- `ERR_COOLANT` (18 R417). -/
def errCoolant : Fld := ⟨0x00201008, 47, 1, .w1c, 0⟩
/-- `LOCK_STATE` (18 R417). -/
def lockState (n : Nat) : Fld := ⟨0x00201100 + 16 * n, 0, 2, .ro, 0⟩
/-- `ERR_UNLOCK` (18 R417). -/
def oscErrUnlock (n : Nat) : Fld := ⟨0x00201100 + 16 * n, 2, 1, .w1c, 0⟩
/-- `ERR_THROTTLE` (18 R417). -/
def errThrottle (n : Nat) : Fld := ⟨0x00201100 + 16 * n, 3, 1, .w1c, 0⟩
/-- `HOT_T` (18 R417). -/
def hotT (n : Nat) : Fld := ⟨0x00201100 + 16 * n, 4, 10, .ro, 0⟩
/-- `FORECAST_T` (18 R417). -/
def forecastT (n : Nat) : Fld := ⟨0x00201100 + 16 * n, 14, 10, .ro, 0⟩
/-- `DUTY` (18 R417). -/
def duty (n : Nat) : Fld := ⟨0x00201100 + 16 * n, 24, 7, .ro, 64⟩
/-- `RTH` (18 R417). -/
def rth (n : Nat) : Fld := ⟨0x00201100 + 16 * n, 32, 16, .ro, 0⟩
/-- `CAP_W` (18 R417). -/
def capW (n : Nat) : Fld := ⟨0x00201100 + 16 * n, 48, 16, .ro, 0⟩
/-- `FIELD_W` (18 R417). -/
def fieldW (n : Nat) : Fld := ⟨0x00201108 + 16 * n, 0, 16, .ro, 0⟩
/-- `TAU` (18 R417). -/
def tau (n : Nat) : Fld := ⟨0x00201108 + 16 * n, 16, 10, .ro, 200⟩
/-- `STAGE` (19 R429). -/
def stage : Fld := ⟨0x00001000, 0, 3, .ro, 0⟩
/-- `PSTATE` (19 R429). -/
def pstate : Fld := ⟨0x00001000, 3, 3, .ro, 0⟩
/-- `DEGRADED_UNPROTECTED` (19 R429). -/
def degradedUnprotected : Fld := ⟨0x00001000, 6, 1, .ro, 0⟩
/-- `IMAGE_STATE` (19 R429). -/
def imageState : Fld := ⟨0x00001000, 7, 2, .ro, 0⟩
/-- `STALLED` (19 R429). -/
def stalled : Fld := ⟨0x00001000, 9, 1, .ro, 0⟩
/-- `STALL_CAUSE` (19 R429). -/
def stallCause : Fld := ⟨0x00001000, 16, 8, .ro, 0⟩
/-- `UPTIME_S` (19 R429). -/
def uptimeS : Fld := ⟨0x00001000, 32, 32, .ro, 0⟩
/-- `P1_DELAY` (19 R429). -/
def p1Delay : Fld := ⟨0x00001008, 0, 16, .rw, 1000⟩
/-- `PSTATE_TARGET` (19 R429). -/
def pstateTarget : Fld := ⟨0x00001008, 16, 3, .ro, 0⟩
/-- `PSTATE_BUSY` (19 R429). -/
def pstateBusy : Fld := ⟨0x00001008, 19, 1, .ro, 0⟩
/-- `DEVICE_RESET` (19 R429). -/
def deviceReset : Fld := ⟨0x00001010, 0, 1, .wo, 0⟩
/-- `RESET_KEY` (19 R429). -/
def resetKey : Fld := ⟨0x00001010, 8, 8, .wo, 0⟩
/-- `ERR_STALL` (19 R429). -/
def errStall : Fld := ⟨0x00001018, 0, 1, .w1c, 0⟩
/-- `ERR_WAKE` (19 R429). -/
def errWake : Fld := ⟨0x00001018, 1, 1, .w1c, 0⟩
/-- `STAGE_MS` (19 R429). -/
def stageMs (s : Nat) : Fld := ⟨0x00001020 + 8 * s, 0, 32, .ro, 0⟩
/-- `TELEM_BASE` (19 R429). -/
def telemBase : Fld := ⟨0x00001060, 0, 48, .ro, 0⟩
/-- `TELEM_INDEX` (19 R429). -/
def telemIndex : Fld := ⟨0x00001060, 48, 16, .ro, 0⟩
/-- `MT_SCRUB_CORR` (19 R429). -/
def mtScrubCorr : Fld := ⟨0x00001068, 0, 32, .rc, 0⟩
/-- `MT_SCRUB_UNCORR` (19 R429). -/
def mtScrubUncorr : Fld := ⟨0x00001068, 32, 32, .rc, 0⟩
/-- `FAULT_LOG_BASE` (20 R449). -/
def faultLogBase : Fld := ⟨0x00300000, 0, 48, .ro, 0⟩
/-- `FAULT_NEWEST` (20 R449). -/
def faultNewest : Fld := ⟨0x00300008, 0, 32, .ro, 0⟩
/-- `FAULT_OLDEST` (20 R449). -/
def faultOldest : Fld := ⟨0x00300008, 32, 32, .ro, 0⟩
/-- `DATA_FAULTS` (20 R449). -/
def dataFaults : Fld := ⟨0x00300010, 0, 32, .rc, 0⟩
/-- `IMAGE_FAULTS` (20 R449). -/
def imageFaults : Fld := ⟨0x00300010, 32, 32, .rc, 0⟩
/-- `EVENT_RECORDS` (20 R449). -/
def eventRecords : Fld := ⟨0x00300018, 0, 32, .rc, 0⟩
/-- `COALESCED` (20 R449). -/
def coalesced : Fld := ⟨0x00300018, 32, 32, .rc, 0⟩
/-- `DEGRADED` (20 R449). -/
def degraded : Fld := ⟨0x00300020, 0, 10, .ro, 0⟩
/-- `SVC_REQUEST` (20 R449). -/
def svcRequest : Fld := ⟨0x00300020, 16, 2, .ro, 0⟩
/-- `QUARANTINED` (20 R449). -/
def quarantined : Fld := ⟨0x00300028, 0, 16, .ro, 0⟩
/-- `SUBSTITUTED` (20 R449). -/
def substituted : Fld := ⟨0x00300028, 16, 16, .ro, 0⟩
/-- `RETIRED` (20 R449). -/
def retired : Fld := ⟨0x00300028, 32, 16, .ro, 0⟩
/-- `RESERVE_IN_USE` (20 R449). -/
def reserveInUse : Fld := ⟨0x00300028, 48, 16, .ro, 0⟩
/-- `LAST_INTERRUPT_US` (20 R449). -/
def lastInterruptUs : Fld := ⟨0x00300030, 0, 16, .ro, 0⟩
/-- `MAX_INTERRUPT_US` (20 R449). -/
def maxInterruptUs : Fld := ⟨0x00300030, 16, 16, .ro, 0⟩
/-- `RIM_CORES_UP` (20 R449). -/
def rimCoresUp : Fld := ⟨0x00300030, 32, 16, .ro, 0⟩
/-- `ERR_DOUBLE` (20 R449). -/
def errDouble : Fld := ⟨0x00300038, 0, 1, .w1c, 0⟩
/-- `ERR_SERVICE` (20 R449). -/
def errService : Fld := ⟨0x00300038, 1, 1, .w1c, 0⟩
/-- `FW_SLOT` (21 R467). -/
def fwSlot : Fld := ⟨0x00001100, 0, 1, .ro, 0⟩
/-- `FW_FALLBACK` (21 R467). -/
def fwFallback : Fld := ⟨0x00001100, 1, 1, .ro, 0⟩
/-- `KEY_SLOTS` (21 R467). -/
def keySlots : Fld := ⟨0x00001100, 8, 8, .ro, 0⟩
/-- `FW_SVN` (21 R467). -/
def fwSvn : Fld := ⟨0x00001108, 0, 32, .ro, 0⟩
/-- `MIN_SVN` (21 R467). -/
def minSvn : Fld := ⟨0x00001108, 32, 32, .ro, 0⟩
/-- `ERR_AUTH` (21 R467). -/
def errAuth : Fld := ⟨0x00001110, 0, 1, .w1c, 0⟩
/-- `ERR_ASSOC` (21 R467). -/
def errAssoc : Fld := ⟨0x00001110, 1, 1, .w1c, 0⟩
/-- `ASSOC_REKEYS` (21 R467). -/
def assocRekeys : Fld := ⟨0x00001118, 0, 32, .rc, 0⟩
/-- `HUM_AUTH_FAILS` (21 R467). -/
def humAuthFails : Fld := ⟨0x00001118, 32, 32, .rc, 0⟩
/-- `IDENT_MAGIC` (22 R474). -/
def identMagic : Fld := ⟨0x000, 0, 32, .ro, 0x36335741⟩
/-- `PCI_VENDOR` (22 R474). -/
def pciVendor : Fld := ⟨0x000, 32, 16, .ro, 0x1fd3⟩
/-- `PCI_DEVICE` (22 R474). -/
def pciDevice : Fld := ⟨0x000, 48, 16, .ro, 54⟩
/-- `STEPPING` (22 R474). -/
def stepping : Fld := ⟨0x008, 0, 8, .ro, 1⟩
/-- `REVISION_ID` (22 R474). -/
def revisionId : Fld := ⟨0x008, 8, 8, .ro, 16⟩
/-- `VENDOR_PEN` (22 R474). -/
def vendorPen : Fld := ⟨0x008, 16, 32, .ro, 0xe43f⟩
/-- `ORDER_CODE` (22 R474). -/
def orderCode (i : Nat) : Fld := ⟨0x010 + 8 * i, 0, 64, .ro, 0⟩
/-- `SERIAL` (22 R474). -/
def serial (i : Nat) : Fld := ⟨0x030 + 8 * i, 0, 64, .ro, 0⟩
/-- `DEVICE_KEY_ID` (22 R474). -/
def deviceKeyId (i : Nat) : Fld := ⟨0x040 + 8 * i, 0, 64, .ro, 0⟩
/-- `DEVICE_CERT_HASH` (22 R474). -/
def deviceCertHash (i : Nat) : Fld := ⟨0x060 + 8 * i, 0, 64, .ro, 0⟩
/-- `MAC_PORT0` (22 R474). -/
def macPort0 : Fld := ⟨0x0A0, 0, 48, .ro, 0⟩
/-- `LOGICAL_TILES` (22 R474). -/
def logicalTiles : Fld := ⟨0x0A8, 0, 16, .ro, 0x8700⟩
/-- `DRAM_GIB` (22 R474). -/
def dramGib : Fld := ⟨0x0A8, 16, 9, .ro, 384⟩
/-- `FIELDS` (22 R474). -/
def identFields : Fld := ⟨0x0A8, 25, 6, .ro, 36⟩
/-- `PORTS` (22 R474). -/
def identPorts : Fld := ⟨0x0A8, 35, 5, .ro, 16⟩
/-- `STACKS_M1` (22 R474). -/
def stacksM1 : Fld := ⟨0x0A8, 44, 4, .ro, 11⟩
/-- `QUEUE_PAIRS_M1` (22 R474). -/
def queuePairsM1 : Fld := ⟨0x0B0, 0, 16, .ro, 0x3fff⟩
/-- `EVENT_RINGS_M1` (22 R474). -/
def eventRingsM1 : Fld := ⟨0x0B0, 16, 12, .ro, 4095⟩
/-- `STREAMS_M1` (22 R474). -/
def streamsM1 : Fld := ⟨0x0B0, 28, 16, .ro, 0x7fff⟩
/-- `TENANTS_M1` (22 R474). -/
def tenantsM1 : Fld := ⟨0x0B0, 44, 12, .ro, 4095⟩
/-- `FW_VERSION` (22 R474). -/
def fwVersion : Fld := ⟨0x0B8, 0, 32, .ro, 0⟩
/-- `STRIPES_PROTECTED` (22 R475). -/
def stripesProtected : Fld := ⟨0x00001200, 0, 32, .ro, 0⟩
/-- `STRIPES_RECOVERING` (22 R475). -/
def stripesRecovering : Fld := ⟨0x00001200, 32, 32, .ro, 0⟩
/-- `STRIPES_UNPROTECTED` (22 R475). -/
def stripesUnprotected : Fld := ⟨0x00001208, 0, 32, .ro, 0⟩
/-- `STRIPES_LOST` (22 R475). -/
def stripesLost : Fld := ⟨0x00001208, 32, 32, .ro, 0⟩
/-- `STRIPE_STATE_BASE` (22 R475). -/
def stripeStateBase : Fld := ⟨0x00001210, 0, 48, .ro, 0⟩
/-- `RESERVE_MAP_BASE` (22 R475). -/
def reserveMapBase : Fld := ⟨0x00001218, 0, 48, .ro, 0⟩
/-- `IMAGE_EPOCH` (22 R475). -/
def imageEpoch : Fld := ⟨0x00001220, 0, 16, .ro, 0⟩
/-- `IMAGE_MODEL_ID` (22 R475). -/
def imageModelId : Fld := ⟨0x00001228, 0, 64, .ro, 0⟩
/-- `HOST_WIN_BASE` (22 R476). -/
def hostWinBase : Fld := ⟨0x00002000, 12, 52, .rw, 0⟩
/-- `BAR4_BASE_GIB` (22 R476). -/
def bar4BaseGib : Fld := ⟨0x00002008, 0, 9, .rw, 0⟩
/-- `BAR4_REFUSED` (22 R476). -/
def bar4Refused : Fld := ⟨0x00002008, 32, 32, .rc, 0⟩
/-- `DIAG_TILE` (22 R476). -/
def diagTile (n : Nat) : Fld := ⟨0x00002100 + 8 * n, 0, 16, .rw, 0⟩
/-- `DIAG_PHYS` (22 R476). -/
def diagPhys (n : Nat) : Fld := ⟨0x00002100 + 8 * n, 16, 1, .rw, 0⟩
/-- `DIAG_ENABLE` (22 R476). -/
def diagEnable (n : Nat) : Fld := ⟨0x00002100 + 8 * n, 17, 1, .rw, 0⟩
/-- `STREAM_TABLE_BASE` (22 R480). -/
def streamTableBase : Fld := ⟨0x00600100, 0, 48, .ro, 0⟩
/-- `BEAT_WATCHDOG` (22 R480). -/
def beatWatchdog : Fld := ⟨0x00600108, 0, 25, .rw, 0x100000⟩
/-- `BEAT_NUMBER` (22 R480). -/
def beatNumber : Fld := ⟨0x00600110, 0, 64, .ro, 0⟩
/-- `OPEN_STREAMS` (22 R480). -/
def openStreams : Fld := ⟨0x00600118, 0, 16, .ro, 0⟩
/-- `TENANTS_SET` (22 R480). -/
def tenantsSet : Fld := ⟨0x00600118, 16, 13, .ro, 0⟩
/-- `KV_FREE_FRAMES` (22 R480). -/
def kvFreeFrames : Fld := ⟨0x00600118, 32, 32, .ro, 0⟩
/-- `TOKENS_COMMITTED` (22 R480). -/
def tokensCommitted : Fld := ⟨0x00600120, 0, 64, .rc, 0⟩
/-- `WAVES_COMMITTED` (22 R480). -/
def wavesCommitted : Fld := ⟨0x00600128, 0, 32, .rc, 0⟩
/-- `WAVES_REPLAYED` (22 R480). -/
def wavesReplayed : Fld := ⟨0x00600128, 32, 32, .rc, 0⟩
/-- `KV_UNITS_DROPPED` (22 R480). -/
def kvUnitsDropped : Fld := ⟨0x00600130, 0, 32, .rc, 0⟩
/-- `RECOMPUTE_POSITIONS` (22 R480). -/
def recomputePositions : Fld := ⟨0x00600130, 32, 32, .rc, 0⟩

/-- MSI-X table entry v, message address (13 R329; the entry's layout is PCI Express's, PRESUMED, log entry 6). -/
def msixAddr (v : Nat) : Fld := ⟨0x18000 + 16 * v, 0, 64, .rw, 0⟩
/-- MSI-X table entry v, message data. -/
def msixData (v : Nat) : Fld := ⟨0x18008 + 16 * v, 0, 32, .rw, 0⟩
/-- MSI-X table entry v, mask bit, 1 at reset (PRESUMED, log entry 6). -/
def msixMask (v : Nat) : Fld := ⟨0x18008 + 16 * v, 32, 1, .rw, 1⟩
/-- Word i of the MSI-X pending bit array (13 R329). -/
def msixPba (i : Nat) : Fld := ⟨0x11000 + 8 * i, 0, 64, .ro, 0⟩

/-- Fields of the words that stand once, part 0. -/
def fixed0 : List Fld :=
  [syncMode, syncDiv, syncOffset, syncLocked, syncRange, syncLost, syncStretch, syncPhaseErr, modeSplit, modePending, evtEnable, evtEoi, evtSpuriousEoi, raiseSource, raiseDetail, aonLatch, aonWakeEn, aonCount, lostStack, remapState, mirrorGib, eccMode, dramTop, fabDevice]
/-- Fields of the words that stand once, part 1. -/
def fixed1 : List Fld :=
  [fabRole, memberState, coordinator, systemId, fabEpoch, migratePages, timeSrc, segPrev, segNext, segment, authDrop, ptpLocked, ptpErrUnlock, ptpOffset, deviceTime, activeVersion, stagedVersion, stageState, swapState, fwdActive, pkgKind, stageBytes, errStage, feedAOk]
/-- Fields of the words that stand once, part 2. -/
def fixed2 : List Fld :=
  [feedBOk, onHum, humPresent, humAuthOk, rideOk, feedAMv, feedBMv, busMv, inputW, rideThresh, rideEffective, humMf, humEsrUohm, humEnergyJ, humDays, humCycles, humHours, errFeedA, errFeedB, errHum, errRide, freqStep, freqNow, freqPending]
/-- Fields of the words that stand once, part 3. -/
def fixed3 : List Fld :=
  [inletT, outletT, coolFlow, dpMbar, coolRange, errCoolant, stage, pstate, degradedUnprotected, imageState, stalled, stallCause, uptimeS, p1Delay, pstateTarget, pstateBusy, deviceReset, resetKey, errStall, errWake, telemBase, telemIndex, mtScrubCorr, mtScrubUncorr]
/-- Fields of the words that stand once, part 4. -/
def fixed4 : List Fld :=
  [faultLogBase, faultNewest, faultOldest, dataFaults, imageFaults, eventRecords, coalesced, degraded, svcRequest, quarantined, substituted, retired, reserveInUse, lastInterruptUs, maxInterruptUs, rimCoresUp, errDouble, errService, fwSlot, fwFallback, keySlots, fwSvn, minSvn, errAuth]
/-- Fields of the words that stand once, part 5. -/
def fixed5 : List Fld :=
  [errAssoc, assocRekeys, humAuthFails, identMagic, pciVendor, pciDevice, stepping, revisionId, vendorPen, macPort0, logicalTiles, dramGib, identFields, identPorts, stacksM1, queuePairsM1, eventRingsM1, streamsM1, tenantsM1, fwVersion, stripesProtected, stripesRecovering, stripesUnprotected, stripesLost]
/-- Fields of the words that stand once, part 6. -/
def fixed6 : List Fld :=
  [stripeStateBase, reserveMapBase, imageEpoch, imageModelId, hostWinBase, bar4BaseGib, bar4Refused, streamTableBase, beatWatchdog, beatNumber, openStreams, tenantsSet, kvFreeFrames, tokensCommitted, wavesCommitted, wavesReplayed, kvUnitsDropped, recomputePositions]

/-- Every field of the words that stand once. -/
def fixedFields : List Fld := fixed0 ++ fixed1 ++ fixed2 ++ fixed3 ++ fixed4 ++ fixed5 ++ fixed6

/-- Fields of queue pair q (12 R304). -/
def queueFields (q : Nat) : List Fld :=
  [sqBase q, sqSize q, cqSize q, qClass q, qPath q, qEnable q, cqBase q, qTenant q, notifyRing q, qPeer q, sqHead q, sqTail q, cqHead q, cqTail q, bufBase q, bufBytes q, errBase q, errDoorbell q, cqStall q, cmdCount q]

/-- Fields of event ring r (13 R334). -/
def ringFields (r : Nat) : List Fld :=
  [ringBase r, ringSize r, ringTarget r, ringEnable r, ringActive r, ringVector r, ringHead r, ringTail r, ringOverflow r, ringLost r]

/-- Fields of source n (13 R334). -/
def sourceFields (n : Nat) : List Fld := [routeRing n, routeEn n, srcCount n]

/-- Fields of the bank of rim core k (13 R334). -/
def bankFields (k : Nat) : List Fld := [bankPending k, bankEnable k, bankEoi k]

/-- Fields of HBM stack s (14 R348). -/
def stackFields (s : Nat) : List Fld :=
  [stackState s, stackTemp s, innerCorr s, outerCorr s, uncorr s, poisoned s, errUncorr s, errTrain s, scrubOffset s]

/-- Fields of Ethernet port p (15 R372). -/
def portFields (p : Nat) : List Fld := [planePrefix p, linkUp p, portPhy p, errDown p, portLost p, fecUncorr p]

/-- Fields of peer d (15 R372). -/
def peerFields (d : Nat) : List Fld := [peerState d, peerRole d, pathsUp d, rtt d]

/-- Power fields of field n (17 R403). -/
def fieldPower (n : Nat) : List Fld :=
  [fieldState n, vlPhases n, vmPhases n, vmin n, vlAmps n, errTrip n, errPhase n, errCrack n, vminTarget n, vlSet n]

/-- Clock and thermal fields of field n (18 R417). -/
def fieldThermal (n : Nat) : List Fld :=
  [lockState n, oscErrUnlock n, errThrottle n, hotT n, forecastT n, duty n, rth n, capW n, fieldW n, tau n]

/-- Fields of diagnostic slot n (22 R476). -/
def slotFields (n : Nat) : List Fld := [diagTile n, diagPhys n, diagEnable n]

/-- The index of an entry of an array of registers, if the offset falls in it. -/
def entryAt (off base stride count : Nat) : Option Nat :=
  if base ≤ off ∧ off < base + stride * count then some ((off - base) / stride) else none

/-- Fields that may lie in the word at an offset. -/
def candidates (off : Nat) : List Fld :=
  match entryAt off 0x1020 8 8 with
  | some s => [stageMs s]
  | none => match entryAt off 0x10040 8 6 with
  | some i => [aonTick i]
  | none => match entryAt off 0x12000 8 512 with
  | some n => sourceFields n
  | none => match entryAt off 0x14000 256 16 with
  | some k => bankFields k
  | none => match entryAt off 0x11000 8 32 with
  | some i => [msixPba i]
  | none => match entryAt off 0x18000 16 2048 with
  | some v => [msixAddr v, msixData v, msixMask v]
  | none => match entryAt off 0x20000 32 4096 with
  | some r => ringFields r
  | none => match entryAt off 0x100000 64 16384 with
  | some q => queueFields q
  | none => match entryAt off 0x501000 0x100 12 with
  | some s => stackFields s
  | none => match entryAt off 0x400100 16 16 with
  | some p => portFields p
  | none => match entryAt off 0x401000 8 1024 with
  | some d => peerFields d
  | none => match entryAt off 0x200100 16 36 with
  | some n => fieldPower n
  | none => match entryAt off 0x201100 16 36 with
  | some n => fieldThermal n
  | none => match entryAt off 0x2100 8 12 with
  | some n => slotFields n
  | none => fixedFields

/-- The fields of the word at an offset; none for a reserved offset (22 R471). The identity arrays answer only within their own ranges. -/
def wordFields (off : Nat) : List Fld :=
  if off % 8 ≠ 0 then [] else
  if 0x10 ≤ off ∧ off < 0xA0 then
    (if off < 0x30 then [orderCode ((off - 0x10) / 8)]
     else if off < 0x40 then [serial ((off - 0x30) / 8)]
     else if off < 0x60 then [deviceKeyId ((off - 0x40) / 8)]
     else [deviceCertHash ((off - 0x60) / 8)])
  else (candidates off).filter fun f => f.off == off

end Reg

/-- The value of a field. -/
def Dev.rd (d : Dev) (f : Fld) : Nat := AMap.get f.reset d.regs (fldKey f)

/-- Writes a field, keeping its width; a field at its reset value is not listed. -/
def Dev.wr (d : Dev) (f : Fld) (v : Nat) : Dev :=
  { d with regs := AMap.set f.reset d.regs (fldKey f) (v % 2 ^ f.width) }

/-- A one-bit field as a Bool. -/
def Dev.bit (d : Dev) (f : Fld) : Bool := d.rd f == 1

/-- Adds to a counter field, wrapping at its width (DESIGN CHOICE where the spec names no other rule, log entry 10). -/
def Dev.bump (d : Dev) (f : Fld) (n : Nat := 1) : Dev := d.wr f (d.rd f + n)

/-- Adds to a counter field that saturates. -/
def Dev.bumpSat (d : Dev) (f : Fld) (n : Nat := 1) : Dev := d.wr f (min (d.rd f + n) (2 ^ f.width - 1))

/-- Applies a step to every index below `n`, in ascending order. -/
def forN {α : Type} (n : Nat) (s : α) (f : Nat → α → α) : α := (List.range n).foldl (fun a i => f i a) s

end Sys2Proof.Machine
end

