-- ==== Sys2Proof/Machine/Geom.lean ====
section
/-! DEFINITION. Where everything sits: tile identifiers, fields, row segments, bypass tables and sites (01 R11-R21), and the accessors of sites. -/
namespace Sys2Proof.Machine

/-- A packed logical identifier names a tile (01 R15). -/
def isLogical (t : Nat) : Bool := t % 256 < 180 && t / 256 < 192

/-- A packed physical identifier names a site (01 R15). -/
def isPhysical (t : Nat) : Bool := t % 256 < 192 && t / 256 < 192

/-- The field of a logical tile (01 R11, R13). -/
def fieldOf (t : Nat) : Nat := t / 256 / 32 * 6 + t % 256 / 30

/-- The field of a physical site (01 R11, R12). -/
def fieldOfSite (p : Nat) : Nat := p / 256 / 32 * 6 + p % 256 / 32

/-- The row segment of a logical tile, py × 6 + fx (01 R12, R16). -/
def segOf (t : Nat) : Nat := t / 256 * 6 + t % 256 / 30

/-- The logical position of a tile in its row segment (01 R13). -/
def posOf (t : Nat) : Nat := t % 256 % 30

/-- The logical tile at position `j` of a row segment. -/
def tileAt (seg j : Nat) : Nat := seg / 6 * 256 + seg % 6 * 30 + j

/-- The physical site `s` of a row segment. -/
def siteAt (seg s : Nat) : Nat := seg / 6 * 256 + seg % 6 * 32 + s

/-- Every logical tile, in ascending packed identifier. -/
def allTiles : List Nat := (List.range 192).flatMap fun y => (List.range 180).map fun x => y * 256 + x

/-- The logical tiles of a field. -/
def fieldTiles (n : Nat) : List Nat :=
  (List.range 32).flatMap fun y => (List.range 30).map fun x => (n / 6 * 32 + y) * 256 + n % 6 * 30 + x

/-- The neighbour of a logical tile: 0 north, 1 east, 2 south, 3 west (07 R171). -/
def neighbour (t dir : Nat) : Option Nat :=
  if dir = 0 then (if t / 256 = 0 then none else some (t - 256))
  else if dir = 1 then (if t % 256 = 179 then none else some (t + 1))
  else if dir = 2 then (if t / 256 = 191 then none else some (t + 256))
  else (if t % 256 = 0 then none else some (t - 1))

/-- The opposite direction. -/
def opposite (dir : Nat) : Nat := (dir + 2) % 4

/-- A bypass table's bit `i` (01 R16). -/
def tblBit (b : BitVec 128) (i : Nat) : Bool := bitOf b.toNat i

/-- Site `s` is bypassed (01 R16). -/
def bypassed (b : BitVec 128) (s : Nat) : Bool := tblBit b s

/-- Logical position `j` is retired (01 R16). -/
def retiredAt (b : BitVec 128) (j : Nat) : Bool := tblBit b (64 + j)

/-- Substitution slot `k`: position and spare site where valid (01 R16). -/
def substSlot (b : BitVec 128) (k : Nat) : Option (Nat × Nat) :=
  let o := 32 + 16 * k
  if tblBit b o then some (bitsOf b.toNat (o + 1) 5, bitsOf b.toNat (o + 6) 5) else none

/-- The sites of a segment that are not bypassed, ascending (01 R18). -/
def liveSites (b : BitVec 128) : List Nat := (List.range 32).filter fun s => !bypassed b s

/-- The site of logical position `j`: none when retired, the spare of a valid substitution slot, else the (j+1)-th site not bypassed (01 R18, R20, R21). Where both slots name the position, a substituted tile having failed again, slot 1, the later one, holds (DESIGN CHOICE, log entry 107). -/
def siteOf (b : BitVec 128) (j : Nat) : Option Nat :=
  if retiredAt b j then none else
  match substSlot b 0, substSlot b 1 with
  | some (p, s), some (p', s') => if p' = j then some s' else if p = j then some s else (liveSites b)[j]?
  | some (p, s), none => if p = j then some s else (liveSites b)[j]?
  | none, some (p, s) => if p = j then some s else (liveSites b)[j]?
  | none, none => (liveSites b)[j]?

/-- The spare sites of a segment that no substitution slot has taken, ascending (01 R18, R20). -/
def freeSpares (b : BitVec 128) : List Nat :=
  ((liveSites b).drop 30).filter fun s =>
    (substSlot b 0).map (·.2) != some s && (substSlot b 1).map (·.2) != some s

/-- The table with slot `k` set to (position, site) (01 R16, R20). -/
def withSubst (b : BitVec 128) (k j s : Nat) : BitVec 128 :=
  let o := 32 + 16 * k
  let cleared := b &&& ~~~ (BitVec.ofNat 128 (0x7FF * 2 ^ o))
  cleared ||| BitVec.ofNat 128 ((1 + 2 * j + 64 * s) * 2 ^ o)

/-- The table with position `j` retired (01 R21). -/
def withRetired (b : BitVec 128) (j : Nat) : BitVec 128 := b ||| BitVec.ofNat 128 (2 ^ (64 + j))

/-- The bypass table of a row segment. -/
def Dev.table (d : Dev) (seg : Nat) : BitVec 128 := AMap.get 0 d.wafer.bypass seg

/-- Writes a bypass table. -/
def Dev.setTable (d : Dev) (seg : Nat) (b : BitVec 128) : Dev :=
  { d with wafer := { d.wafer with bypass := AMap.set 0 d.wafer.bypass seg b } }

/-- The physical site of a logical tile; none when it is retired (01 R18-R21). -/
def Dev.physOf (d : Dev) (t : Nat) : Option Nat :=
  if isLogical t then (siteOf (d.table (segOf t)) (posOf t)).map (siteAt (segOf t)) else none

/-- Where the program of a logical tile runs: its site; for a lost embedding tile the rim, which fetches its rows from the weight copy (09 R237; that the rim runs the tile's program on them is a DESIGN CHOICE, log entry 115). -/
def Dev.seatOf (d : Dev) (t : Nat) : Option Nat := if d.wafer.served.contains t then some (65536 + t) else d.physOf t

/-- The logical tile on a site, if one is. -/
def Dev.logOf (d : Dev) (p : Nat) : Option Nat :=
  if !isPhysical p then none else
  let seg := p / 256 * 6 + p % 256 / 32
  ((List.range 30).find? fun j => siteOf (d.table seg) j == some (p % 256 % 32)).map (tileAt seg)

/-- The logical tile is retired (01 R21). -/
def Dev.isRetired (d : Dev) (t : Nat) : Bool := retiredAt (d.table (segOf t)) (posOf t)

/-- A site as an empty one. -/
def Site.empty : Site := {}

/-- The site with a physical identifier. -/
def Dev.site (d : Dev) (p : Nat) : Site := AMap.get Site.empty d.wafer.sites p

/-- Writes a site. -/
def Dev.setSite (d : Dev) (p : Nat) (x : Site) : Dev :=
  { d with wafer := { d.wafer with sites := AMap.set Site.empty d.wafer.sites p x } }

/-- What a logical tile's program runs on; an empty site for a tile that has none. -/
def Dev.tile (d : Dev) (t : Nat) : Site := ((d.seatOf t).map d.site).getD Site.empty

/-- Changes what a logical tile's program runs on; nothing for a tile that has none. -/
def Dev.onTile (d : Dev) (t : Nat) (f : Site → Site) : Dev :=
  match d.seatOf t with
  | some p => d.setSite p (f (d.site p))
  | none => d

/-- The physical identifier of a record for a logical tile (20 R442). -/
def Dev.ptileOf (d : Dev) (t : Nat) : Nat := (d.physOf t).getD 0xFFFF

/-- Substitution slots valid on the wafer (20 R449). -/
def substCount (w : Wafer) : Nat :=
  w.bypass.foldl (fun n e => n + b2n (substSlot e.2 0).isSome + b2n (substSlot e.2 1).isSome) 0

/-- Retired logical tiles (20 R449). -/
def retiredCount (w : Wafer) : Nat :=
  w.bypass.foldl (fun n e => n + ((List.range 30).filter (retiredAt e.2)).length) 0

/-- The field's VLnn rail is on (17 R403, 22 R479). -/
def Dev.fieldOn (d : Dev) (n : Nat) : Bool := d.rd (Reg.fieldState n) == 0

end Sys2Proof.Machine
end

