-- ==== Sys2Proof/Machine/Render.lean ====
section
/-! DEFINITION. The records and device structures as the bytes that a reader of DRAM sees: fault records (20 R442), event records (13 R322), stream table entries (11 R273), page-table entries (10 R242), histories, the stripe array and the reserve map (22 R475), and the register fields that are a view of other state. -/
namespace Sys2Proof.Machine

/-- 2^30. -/
def gib : Nat := 0x40000000

/-- Stream states as coded (11 R274). -/
def SState.code : SState → Nat
  | .idle => 1
  | .prefill => 2
  | .generating => 3
  | .held => 4
  | .ended => 5

/-- A fault record as a 512-bit number (20 R442). -/
def faultBits (r : FaultRec) : Nat :=
  pack [(0, 16, r.occ.code), (16, 16, r.occ.detail), (32, 2, r.occ.cls), (34, 6, r.occ.field),
        (40, 5, r.occ.sect), (48, 16, r.occ.ltile), (64, 16, r.occ.ptile), (80, 16, r.occ.desc),
        (96, 10, r.occ.stage), (112, 15, r.occ.stream.getD 0), (127, 1, b2n r.occ.stream.isSome)]
  + pack [(128, 48, r.beat), (176, 16, r.imageEpoch), (192, 32, r.weightVersion), (224, 48, r.occ.addr),
          (272, 4, r.occ.unitKind), (276, 16, r.occ.unit), (292, 8, min r.repeats 255),
          (300, 3, r.occ.outcome), (320, 48, r.tick), (384, 64, r.deviceTime), (448, 32, r.index)]

/-- An event record as a 256-bit number (13 R322). -/
def eventBits (o : Occ) (faultIndex beat tick lost phase : Nat) : Nat :=
  pack [(0, 16, o.code), (16, 16, o.detail), (32, 16, o.ltile), (48, 16, o.ptile), (64, 16, o.desc),
        (80, 9, o.source), (89, 2, o.cls), (96, 15, o.stream.getD 0), (111, 1, b2n o.stream.isSome),
        (112, 32, faultIndex), (144, 48, beat), (192, 48, tick), (240, 8, min lost 255), (255, 1, phase)]

/-- A page-table entry as a 128-bit number (10 R242). -/
def pteBits (p : Pte) : Nat :=
  pack [(0, 3, p.state), (3, 1, b2n p.cached), (4, 4, p.fmt), (8, 8, p.pins), (16, 9, p.fill),
        (32, 32, p.version), (64, 16, p.epoch), (96, 32, p.frame)]

/-- A stream table entry as a 1,024-bit number (11 R273). -/
def streamBits (s : Stream) : Nat :=
  pack [(0, 3, s.state.code), (3, 1, b2n s.strict), (4, 1, b2n s.persist), (5, 1, b2n s.textOut),
        (6, 2, s.kMax), (8, 2, s.kCur), (10, 4, s.missRun), (14, 7, s.backoff), (21, 1, b2n s.cancelPending),
        (22, 2, s.residSlot), (24, 12, s.tenant), (36, 4, s.endReason), (40, 14, s.queue), (64, 48, s.ptBase),
        (112, 16, s.ptBlocks), (128, 48, s.residBase), (192, 48, s.histBase)]
  + pack [(256, 40, s.committed), (296, 40, s.appended), (352, 32, s.genRemaining),
          (384, 32, s.temperature.toNat), (416, 16, s.topK), (432, 16, s.topP), (448, 32, s.stop0),
          (480, 32, s.stop1), (512, 64, s.sampleSeed.toNat), (576, 64, s.seq), (640, 64, s.lastCommit),
          (704, 16, s.genTag)]

/-- Byte `i` of a number. -/
def byteOf (n i : Nat) : Byte := BitVec.ofNat 8 (n / 256 ^ i)

/-- A stream entry that is not FREE. -/
def Dev.stream? (d : Dev) (i : Nat) : Option Stream := AMap.find d.serve.streams i

/-- The page format of a layer of the active image: 0xF only where the layer has none (02 R37, 10 R240). -/
def Dev.layerFmt (d : Dev) (layer : Nat) : Nat :=
  (((d.img.active.getD {}).kv.find? fun g => g.layer == layer).map (·.fmt)).getD 0xF

/-- The entry of a page table; EMPTY, with the layer's format, where none is held (10 R242, R243). Owner: stream i as i, prefix p as 65,536 + p. -/
def Dev.pte (d : Dev) (owner layer block : Nat) : Pte :=
  (d.serve.ptes.find? fun p => p.owner == owner && p.layer == layer && p.block == block).getD
    { owner := owner, layer := layer, block := block, state := 0, fmt := d.layerFmt layer }

/-- The stripe array's byte (22 R475). -/
def stripeByte (d : Dev) (i : Nat) : Byte := BitVec.ofNat 8 ((AMap.get {} d.img.stripes i).state)

/-- The reserve map's entry i (22 R475). -/
def resMapWord (d : Dev) (i : Nat) : Nat :=
  match d.wafer.resMap[i]? with
  | some (lost, res) => lost + 65536 * res
  | none => 0

/-- `a` falls in a range of `n` bytes at `base`. -/
def inRange (a base n : Nat) : Bool := base ≤ a && a < base + n

/-- Bring-up has reached stage B5, so the device's structures stand in DRAM (19 R419). -/
def Dev.structuresUp (d : Dev) : Bool := 5 ≤ d.rd Reg.stage

/-- The byte of a page table at an offset from its base. -/
def ptByte (d : Dev) (owner blocks off : Nat) : Byte :=
  let e := off / 16
  byteOf (pteBits (d.pte owner (e / blocks) (e % blocks))) (off % 16)

/-- The byte of one of the device's structures that the model holds as structured state (11 R273, 20 R444, 22 R475, 10 R241); none elsewhere. -/
def Dev.structByte (d : Dev) (a : Nat) : Option Byte :=
  if !d.structuresUp then none
  else if inRange a (d.rd Reg.streamTableBase) 0x400000 then
    let o := a - d.rd Reg.streamTableBase
    some (match d.stream? (o / 128) with
      | some s => byteOf (streamBits s) (o % 128)
      | none => 0)
  else if inRange a (d.rd Reg.faultLogBase) 0x400000 then
    let o := a - d.rd Reg.faultLogBase
    some (match d.mem.faultLog.find? fun r => r.index % 65536 == o / 64 with
      | some r => byteOf (faultBits r) (o % 64)
      | none => 0)
  else if d.rd Reg.stripeStateBase != 0 && inRange a (d.rd Reg.stripeStateBase) 0x10000 then
    some (stripeByte d (a - d.rd Reg.stripeStateBase))
  else if d.rd Reg.reserveMapBase != 0 && inRange a (d.rd Reg.reserveMapBase) 0x22000 then
    let o := a - d.rd Reg.reserveMapBase
    some (byteOf (resMapWord d (o / 4)) (o % 4))
  else
    match d.mem.allocs.find? fun x => inRange a x.base x.size && (x.kind == 0 || x.kind == 2) with
    | none => none
    | some x =>
      if x.kind == 0 then
        if x.owner < 65536 then
          match d.stream? x.owner with
          | some s => some (ptByte d x.owner s.ptBlocks (a - x.base))
          | none => none
        else
          match AMap.find d.serve.prefixes (x.owner - 65536) with
          | some p => some (ptByte d x.owner (p.positions / 256) (a - x.base))
          | none => none
      else
        match d.stream? x.owner with
        | some s =>
          let o := a - x.base
          some (match s.history[o / 4]? with
            | some t => byteOf t (o % 4)
            | none => 0)
        | none => if x.owner < 65536 then none else (AMap.find d.serve.prefixes (x.owner - 65536)).bind fun p =>
          (p.tokens[(a - x.base) / 4]?).map fun t => byteOf t ((a - x.base) % 4)

/-- The mirrored range in bytes (14 R343). -/
def Dev.mirrorBytes (d : Dev) : Nat := d.rd Reg.mirrorGib * gib

/-- The address of the first copy: a byte of the shadow range is the byte of the mirrored range it copies (14 R343). -/
def Dev.dramKey (d : Dev) (a : Nat) : Nat :=
  if inRange a d.mirrorBytes d.mirrorBytes then a - d.mirrorBytes else a

/-- A byte of DRAM as a reader gets it. -/
def Dev.dramByte (d : Dev) (a : Nat) : Byte :=
  let k := d.dramKey a
  match d.structByte k with
  | some b => b
  | none => memGet d.mem.dram k

/-- Bytes of DRAM. -/
def Dev.dramBytes (d : Dev) (a : Nat) : Nat → List Byte
  | 0 => []
  | n + 1 => d.dramByte a :: d.dramBytes (a + 1) n

/-- The telemetry ring (19 R427). -/
def Dev.inTelem (d : Dev) (a : Nat) : Bool :=
  d.structuresUp && d.rd Reg.telemBase != 0 && inRange a (d.rd Reg.telemBase) 0x100000

/-- The stripe state array or the reserve map (22 R475). -/
def Dev.inStatusArrays (d : Dev) (a : Nat) : Bool :=
  d.structuresUp &&
    ((d.rd Reg.stripeStateBase != 0 && inRange a (d.rd Reg.stripeStateBase) 0x10000) ||
     (d.rd Reg.reserveMapBase != 0 && inRange a (d.rd Reg.reserveMapBase) 0x22000))

/-- A structure of 10 R244: page tables, KV frames, the stream table, the mirrored range and its shadow, the telemetry ring, the stripe array, the reserve map. -/
def Dev.protectedAt (d : Dev) (a : Nat) : Bool :=
  d.structuresUp &&
    (a < 2 * d.mirrorBytes || d.inTelem a || d.inStatusArrays a ||
      (AMap.find d.mem.frames (a / 65536)).isSome ||
      (d.mem.allocs.any fun x => x.kind == 0 && inRange a x.base x.size))

/-- The device's own structures of 01 R32: those of R244, residual rows and rebuild buffers. -/
def Dev.ownAt (d : Dev) (a : Nat) : Bool :=
  d.protectedAt a ||
    (d.mem.allocs.any fun x => (x.kind == 1 || x.kind == 4 || x.kind == 6) && inRange a x.base x.size)

/-- The first address of a range for which a predicate holds. -/
def firstIn (p : Nat → Bool) (a : Nat) : Nat → Option Nat
  | 0 => none
  | n + 1 => if p a then some a else firstIn p (a + 1) n

/-- The stack that stores a unit of 256 bytes, and the stack offset (14 R337, R346). -/
def Dev.unitAt (d : Dev) (u : Nat) : Nat × Nat :=
  let l := d.rd Reg.lostStack
  if l < 12 ∧ u % 12 = l then
    let n := Config.dramEndLost / 256
    let j := (u - l) / 12
    let offs := (List.range 12).filter fun i => (n + i) % 12 != l
    let y := n + 12 * (j / 11) + offs.getD (j % 11) 0
    (y % 12, y / 12 * 256)
  else (u % 12, u / 12 * 256)

/-- The stack of a DRAM address (14 R337). -/
def Dev.stackOf (d : Dev) (a : Nat) : Nat := (d.unitAt (a / 256)).1

/-- A line is poisoned because its stack was lost (14 R347). -/
def Dev.lineGone (d : Dev) (line : Nat) : Bool :=
  match d.mem.lostLines with
  | none => false
  | some back => line / 256 % 12 == d.rd Reg.lostStack && 2 * d.mirrorBytes ≤ line && line < d.rd Reg.dramTop && !back.contains line

/-- A line that the outer code cannot correct. -/
def Dev.lineBadAt (d : Dev) (line : Nat) : Bool := (AMap.find d.mem.lineBad line).isSome || d.lineGone line

/-- Lines of the lost stack whose relocated storage lies on a stack and that are still poisoned (14 R346, R347): the j-th relocated unit, j from the first outside the mirror on, lies on the stack that j mod 11 gives. -/
def Dev.goneOn (d : Dev) (s : Nat) : Nat :=
  match d.mem.lostLines with
  | none => 0
  | some back =>
    let l := d.rd Reg.lostStack
    let lo := (2 * d.mirrorBytes / 256 + 11 - l) / 12
    let hi := (Config.dramEndLost / 256 + 11 - l) / 12
    let n := ((List.range 11).map fun c =>
      if (d.unitAt (12 * c + l)).1 = s then (hi + 10 - c) / 11 - (lo + 10 - c) / 11 else 0).foldl (· + ·) 0
    4 * n - (back.filter fun a => d.stackOf a == s).length

/-- Free 64 KiB granules of the KV pool (22 R480, 14 R344): the granules above the shadow that no allocation touches, less those in use. -/
def Dev.freeGranules (d : Dev) : Nat :=
  if !d.structuresUp then 0 else
  let lo := 2 * d.mirrorBytes / 65536
  let hi := d.rd Reg.dramTop / 65536
  let touched := d.mem.allocs.foldl (fun (acc : Nat × Nat) x =>
    let first := max (x.base / 65536) acc.2
    let last := (x.base + x.size - 1) / 65536 + 1
    if x.size = 0 ∨ last ≤ first then acc else (acc.1 + (last - first), last)) (0, lo)
  hi - lo - touched.1 - d.mem.frames.length

/-- Active lines of a rim core's bank: rings with `TARGET` 2, `ACTIVE` 1 and a vector that names the core (or a lost core whose duty it runs) and a line below 48 (13 R329, 20 R439). -/
def Dev.bankLines (d : Dev) (k : Nat) : Nat :=
  d.regs.foldl (fun acc e =>
    let off := e.1 / 64
    if e.1 % 64 = 55 ∧ inRange off 0x20000 0x20000 ∧ off % 32 = 0 ∧ e.2 = 1 then
      let r := (off - 0x20000) / 32
      let v := d.rd (Reg.ringVector r)
      let core := AMap.get (v % 16) d.pwr.duties (v % 16)
      let line := v / 16
      if d.rd (Reg.ringTarget r) = 2 ∧ core = k ∧ line < 48 ∧ !bitOf acc line then acc + 2 ^ line else acc
    else acc) 0

/-- The fields of the identity block that have a value of their own and read 0 before stage B2 (22 R474; log entry 61). -/
def identFilled (f : Fld) : Bool :=
  f == Reg.pciVendor || f == Reg.pciDevice || f == Reg.revisionId || f == Reg.vendorPen

/-- The value software reads from a field: fields that show other state are computed from it (20 R449, 22 R480, 14 R348, 13 R334); the supply voltages and the temperatures of the stacks are what their meters show (17 R403, 14 R348: free values, log entry 78); every other field is stored. -/
def Dev.view (d : Dev) (f : Fld) : Nat :=
  if d.rd Reg.stage < 2 ∧ identFilled f then 0
  else if f = Reg.quarantined then d.wafer.quarantined.length
  else if f = Reg.substituted then substCount d.wafer
  else if f = Reg.retired then retiredCount d.wafer
  else if f = Reg.reserveInUse then d.wafer.resMap.length
  else if f = Reg.openStreams then min d.serve.streams.length 0xFFFF
  else if f = Reg.tenantsSet then (d.serve.tenants.filter fun t => 0 < t.2.maxStreams).length
  else if f = Reg.kvFreeFrames then d.freeGranules
  else if f.off / 0x1000 = 0x501 ∧ f.off % 0x100 = 0x10 ∧ f.lo = 32 then
    (d.mem.lineBad.filter fun l => l.2 && d.stackOf l.1 == (f.off - 0x501000) / 0x100).length + d.goneOn ((f.off - 0x501000) / 0x100)
  else if f.off / 0x1000 = 0x14 ∧ f.off % 0x100 = 0 then d.bankLines ((f.off - 0x14000) / 256)
  else if f.off / 0x1000 = 0x501 ∧ f.off % 0x100 = 0 ∧ f.lo = 2 then
    (if d.rd (Reg.stackState ((f.off - 0x501000) / 0x100)) = 0 then 0 else (Config.stackTemp ((f.off - 0x501000) / 0x100) d.tick).toNat)
  else if 1 ≤ d.rd Reg.stage ∧ (f = Reg.feedAMv ∨ f = Reg.feedBMv ∨ f = Reg.busMv) then (Config.supplyMv (f.lo / 16) d.tick).toNat
  else d.rd f

end Sys2Proof.Machine
end

