-- ==== Sys2Proof/Machine/Operands.lean ====
section
/-! DEFINITION. Every form of access to the device address space: DRAM, tile windows, rim registers, rim SRAM and the host window, byte by byte, with the status of each part (01 R30-R36, 22 R470, R471). -/
namespace Sys2Proof.Machine

/-- The result of an access: its status, the lowest unmapped address it touched, the bytes read, the device after it. -/
structure BusRes where
  st : Nat
  unmapped : Option Nat
  bytes : List Byte
  dev : Dev
  deriving DecidableEq, Repr

/-- An image is active (19 R429 `IMAGE_STATE`). -/
def Dev.imgActive (d : Dev) : Bool := d.rd Reg.imageState == 1

/-- The active or stopped image occupies a logical tile: the tile has a record or is a reserve tile in use (01 R35, 08 R199, R206). -/
def Dev.occupied (d : Dev) (t : Nat) : Bool :=
  match d.img.active with
  | some im => (im.tiles.any fun r => r.tile == t && r.role != 3) || (d.wafer.resMap.any fun p => p.2 == t)
  | none => false

/-- Writes bytes into working SRAM; a write over the range that the valid table set was built from invalidates the set (03 R71). -/
def writeSram (x : Site) (lo : Nat) (bs : List Byte) : Site :=
  let hit := match x.table with
    | some ts => lo < ts.xBase + ts.xLen && ts.xBase < lo + bs.length
    | none => false
  { x with sram := memWrite x.sram lo bs, table := if hit then none else x.table }

/-- The 64-bit word of a column of the wave record in the control page (06 R140). -/
def colWord (c : Col) : Nat :=
  pack [(0, 1, b2n c.valid), (1, 15, c.stream), (16, 2, c.rank), (18, 2, c.residSlot), (20, 40, c.position)]

/-- A byte of the tile control page's sensor registers (01 R23, R31): the readings in mV and 0.1 °C, at the places that `Config.sensorAt` leaves free; a reserved byte reads 0 (DESIGN CHOICE, log entry 107). -/
def sensorByte (volts temps off : Nat) : Byte := match Config.sensorAt off with
  | some (isVolts, i) => byteOf (if isVolts then volts else temps) i
  | none => 0

/-- The control page has a register of 06 R140 at a word. -/
def ctrlWord (w : Nat) : Bool := w < 32 || (0x100 ≤ w && w < 0x140)

/-- A byte of the tile control page: the sequencer's registers (06 R140), else the sensor registers (01 R31). -/
def ctrlByte (x : Site) (beat volts temps off : Nat) : Byte :=
  let w := off / 8 * 8
  if !ctrlWord w then sensorByte volts temps off else
  let v :=
    if w = 0 then pack [(0, 2, x.seqState), (2, 4, x.seqSection), (6, 16, x.seqIndex)]
    else if w = 8 then x.tokens.foldl (fun n t => n + 2 ^ (t.1 % 64)) 0
    else if w = 16 then x.tokens.foldl (fun n t => n + (if t.2.done then 2 ^ (t.1 % 64) else 0)) 0
    else if w = 24 then beat
    else if 0x100 ≤ w ∧ w < 0x140 then
      let c := x.cols.getD ((w - 0x100) / 16) {}
      if w % 16 = 0 then colWord c else c.residBase
    else 0
  byteOf v (off % 8)

/-- What a byte of a tile window reads as: its status and value (01 R31, R34, R35, 22 R479). -/
def Dev.windowByte (d : Dev) (physical : Bool) (id off : Nat) : Nat × Byte :=
  let site := if physical then (if isPhysical id then some id else none) else d.physOf id
  match site with
  | none => (St.unmappedAddress, 0)
  | some p =>
    if !d.fieldOn (fieldOfSite p) then (St.unmappedAddress, 0)
    else if !physical && d.wafer.rebuilding.contains id then (St.tileRebuilding, 0)
    else
      let x := d.site p
      if off < 0x200000 then (St.success, memGet x.weights off)
      else if off < 0x260000 then (St.success, memGet x.sram (off - 0x200000))
      else if inRange off 0x300000 0x1000 then (St.success, ctrlByte x (d.rd Reg.beatNumber) (AMap.get 0 d.wafer.volts p) (AMap.get 0 d.wafer.temps p) (off - 0x300000))
      else (St.unmappedAddress, 0)

/-- The status with which a write of one byte of a tile window ends, and the device after it (01 R34, R35, 03 R72). -/
def Dev.windowStore (d : Dev) (physical : Bool) (id off : Nat) (b : Byte) : Nat × Dev :=
  let site := if physical then (if isPhysical id then some id else none) else d.physOf id
  match site with
  | none => (St.unmappedAddress, d)
  | some p =>
    if !d.fieldOn (fieldOfSite p) then (St.unmappedAddress, d)
    else if !physical && d.wafer.rebuilding.contains id then (St.tileRebuilding, d)
    else
      let x := d.site p
      let occ := match d.logOf p with
        | some t => d.imgActive && d.occupied t
        | none => false
      if off < 0x200000 then
        if occ then (St.writeProtected, d)
        else (St.success, d.setSite p { x with weights := memSet x.weights off b })
      else if off < 0x260000 then
        let lo := off - 0x200000
        if (d.imgActive && Config.tableBase ≤ lo) || (occ && inRange lo x.progBase x.progBytes) then
          (St.writeProtected, d)
        else (St.success, d.setSite p (writeSram x lo [b]))
      else if inRange off 0x300000 0x1000 then (St.success, d)
      else (St.unmappedAddress, d)

/-- The fields of a word that answer now: before stage B7 only those of the identity and status blocks (19 R419). -/
def Dev.liveFields (d : Dev) (off : Nat) : List Fld :=
  if d.rd Reg.stage < 7 ∧ 0x2000 ≤ off then [] else Reg.wordFields off

/-- The value of a register word as software reads it: WO fields and reserved bits read 0 (00 R6, R7, 22 R471). -/
def Dev.regWord (d : Dev) (off : Nat) : Nat :=
  (d.liveFields off).foldl (fun n f => if f.acc = .wo then n else n ||| (d.view f % 2 ^ f.width) * 2 ^ f.lo) 0

/-- Clears the RC fields of a word that lie wholly in bits [lo, hi) (22 R470). -/
def Dev.clearRc (d : Dev) (off lo hi : Nat) : Dev :=
  (d.liveFields off).foldl
    (fun d f => if f.acc = .rc ∧ lo ≤ f.lo ∧ f.lo + f.width ≤ hi then d.wr f 0 else d) d

/-- A read of a register word by bytes [b0, b1) of it: 8 bytes, one aligned half, or part of it, which clears nothing (22 R470). -/
def Dev.regReadPart (d : Dev) (off b0 b1 : Nat) : List Byte × Dev :=
  let bs := ((leBytes 8 (d.regWord off)).drop b0).take (b1 - b0)
  let whole := (b0 = 0 ∧ b1 = 8) ∨ (b0 = 0 ∧ b1 = 4) ∨ (b0 = 4 ∧ b1 = 8)
  (bs, if whole then d.clearRc off (8 * b0) (8 * b1) else d)

/-- Reads `n` bytes of registers from an offset, word by word in ascending address (22 R470); `fuel` bounds the words. -/
def Dev.regReadBytes (d : Dev) (off n : Nat) : Nat → List Byte × Dev
  | 0 => ([], d)
  | fuel + 1 =>
    if n = 0 then ([], d) else
    let b0 := off % 8
    let k := min n (8 - b0)
    let (bs, d1) := d.regReadPart (off - b0) b0 (b0 + k)
    let (rest, d2) := d1.regReadBytes (off + k) (n - k) fuel
    (bs ++ rest, d2)

/-- The host bus address of a host-window address, unless it passes 2^64 − 1 (01 R33, 22 R477) or the PCIe link is down (19 R423). -/
def Dev.hostAddr (d : Dev) (a : Nat) : Option Nat :=
  let h := d.rd Reg.hostWinBase * 4096 + (a - 0x800000000000)
  if h < 2 ^ 64 && d.io.pcieUp then some h else none

/-- The end of the DRAM region (14 R346, R348 `DRAM_TOP`). -/
def Dev.dramTop (d : Dev) : Nat := d.rd Reg.dramTop

/-- What a byte outside the rim registers reads as (01 R30, R34). -/
def Dev.byteAt (d : Dev) (a : Nat) : Nat × Byte :=
  if a < d.dramTop then (St.success, d.dramByte a)
  else if inRange a 0x100000000000 0x4000000000 then
    d.windowByte false ((a - 0x100000000000) / 0x400000) (a % 0x400000)
  else if inRange a 0x104000000000 0x4000000000 then
    d.windowByte true ((a - 0x104000000000) / 0x400000) (a % 0x400000)
  else if inRange a 0x200010000000 0x2000000 then (St.success, memGet d.mem.rimSram (a - 0x200010000000))
  else if inRange a 0x800000000000 0x800000000000 then
    match d.hostAddr a with
    | some h => (St.success, memGet d.mem.hostMem h)
    | none => (St.unmappedAddress, 0)
  else (St.unmappedAddress, 0)

/-- The status with which a write of one byte outside the rim registers ends, and the device after it (01 R30, R34). DRAM structures are kept by the callers' checks (10 R244). -/
def Dev.storeAt (d : Dev) (a : Nat) (b : Byte) : Nat × Dev :=
  if a < d.dramTop then
    (St.success, { d with mem := { d.mem with dram := memSet d.mem.dram (d.dramKey a) b } })
  else if inRange a 0x100000000000 0x4000000000 then
    d.windowStore false ((a - 0x100000000000) / 0x400000) (a % 0x400000) b
  else if inRange a 0x104000000000 0x4000000000 then
    d.windowStore true ((a - 0x104000000000) / 0x400000) (a % 0x400000) b
  else if inRange a 0x200010000000 0x2000000 then
    (St.success, { d with mem := { d.mem with rimSram := memSet d.mem.rimSram (a - 0x200010000000) b } })
  else if inRange a 0x800000000000 0x800000000000 then
    match d.hostAddr a with
    | some h => (St.success, { d with mem := { d.mem with hostMem := memSet d.mem.hostMem h b } })
    | none => (St.unmappedAddress, d)
  else (St.unmappedAddress, d)

/-- The rim register region (01 R30). -/
def inRimRegs (a : Nat) : Bool := inRange a 0x200000000000 0x4000000

/-- The offset in BAR0 that a diagnostic slot window covers: slot and offset in the 4 MiB window (01 R36, 22 R479). -/
def slotAt (off : Nat) : Option (Nat × Nat) :=
  if inRange off 0x1000000 0x3000000 then some ((off - 0x1000000) / 0x400000, off % 0x400000) else none

/-- A byte read through a diagnostic slot: 0 while the slot is disabled (22 R479). -/
def Dev.slotByte (d : Dev) (n off : Nat) : Nat × Byte :=
  if d.bit (Reg.diagEnable n) then d.windowByte (d.bit (Reg.diagPhys n)) (d.rd (Reg.diagTile n)) off
  else (St.success, 0)

/-- A byte written through a diagnostic slot (22 R479). -/
def Dev.slotStore (d : Dev) (n off : Nat) (b : Byte) : Nat × Dev :=
  if d.bit (Reg.diagEnable n) then d.windowStore (d.bit (Reg.diagPhys n)) (d.rd (Reg.diagTile n)) off b
  else (St.success, d)

/-- Joins the result of a part at `a` to that of the rest of an access: the status is that of the lowest byte that is not SUCCESS (01 R34). -/
def joinRes (st a : Nat) (bs : List Byte) (r : BusRes) : BusRes :=
  { r with st := if st ≠ St.success then st else r.st,
           unmapped := if st = St.unmappedAddress then some a else r.unmapped,
           bytes := bs ++ r.bytes }

/-- Reads `n` bytes from a device address, part by part (01 R34); registers word by word (22 R470). `fuel` bounds the parts. -/
def Dev.busRead (d : Dev) (a n : Nat) : Nat → BusRes
  | 0 => ⟨St.success, none, [], d⟩
  | fuel + 1 =>
    if n = 0 then ⟨St.success, none, [], d⟩
    else if inRimRegs a then
      let off := a - 0x200000000000
      match slotAt off with
      | some (k, o) =>
        let (st, b) := d.slotByte k o
        joinRes st a [b] (d.busRead (a + 1) (n - 1) fuel)
      | none =>
        let k := min n (8 - off % 8)
        let (bs, d1) := d.regReadPart (off - off % 8) (off % 8) (off % 8 + k)
        joinRes St.success a bs (d1.busRead (a + k) (n - k) fuel)
    else
      let (st, b) := d.byteAt a
      joinRes st a [b] (d.busRead (a + 1) (n - 1) fuel)

/-- Reads `n` bytes from a device address. -/
def Dev.read (d : Dev) (a n : Nat) : BusRes := d.busRead a n n

/-- Writes bytes at a device address, part by part (01 R34). `rw` writes a register word: offset, first and last byte + 1, value. -/
def Dev.busWrite (rw : Nat → Nat → Nat → Nat → Dev → Dev) (d : Dev) (a : Nat) (bs : List Byte) : Nat → BusRes
  | 0 => ⟨St.success, none, [], d⟩
  | fuel + 1 =>
    match bs with
    | [] => ⟨St.success, none, [], d⟩
    | b :: rest =>
      if inRimRegs a then
        let off := a - 0x200000000000
        match slotAt off with
        | some (k, o) =>
          let (st, d1) := d.slotStore k o b
          joinRes st a [] (Dev.busWrite rw d1 (a + 1) rest fuel)
        | none =>
          let b0 := off % 8
          let k := min bs.length (8 - b0)
          let d1 := rw (off - b0) b0 (b0 + k) (leNat (bs.take k) * 256 ^ b0) d
          joinRes St.success a [] (Dev.busWrite rw d1 (a + k) (bs.drop k) fuel)
      else
        let (st, d1) := d.storeAt a b
        joinRes st a [] (Dev.busWrite rw d1 (a + 1) rest fuel)

/-- The lines that a range touches, in rising order. -/
def linesOf (a n : Nat) : List Nat := (List.range ((a + n + 63) / 64 - a / 64)).map fun i => (a / 64 + i) * 64

/-- The first line of a range that is bad, as the address of the line (14 R340, R341). -/
def Dev.badLine (d : Dev) (a n : Nat) : Option Nat :=
  if d.mem.lineBad.isEmpty && d.mem.lostLines.isNone then none else (linesOf a n).find? fun l => d.lineBadAt l

/-- Lines that a write of `n` bytes at `a` covers whole. -/
def wholeLine (a n line : Nat) : Bool := a ≤ line && line + 64 ≤ a + n

/-- Clears the poison of every line that a write of `n` bytes at `a` covers whole (14 R341). -/
def Dev.clearPoisonIn (d : Dev) (a n : Nat) : Dev :=
  { d with mem := { d.mem with
      lineBad := d.mem.lineBad.filter fun l => !wholeLine a n l.1,
      lostLines := d.mem.lostLines.map fun back => back ++ (linesOf a n).filter fun l => wholeLine a n l && d.lineGone l } }

/-- Bytes of a DRAM write that fall in poisoned lines they do not cover whole are discarded (14 R341). -/
def Dev.partialPoison (d : Dev) (a n : Nat) : Bool := (linesOf a n).any fun l => d.lineBadAt l && !wholeLine a n l

/-- A record write by a ring engine: rings lie in DRAM or in the host window, queue pair 0's in rim SRAM (12 R297, R303, 13 R323). `none` where the write completes UNMAPPED_ADDRESS or is refused. -/
def Dev.ringStore (d : Dev) (a : Nat) (bs : List Byte) : Option Dev :=
  let n := bs.length
  if a + n ≤ d.dramTop then
    if (firstIn d.protectedAt a n).isSome || d.partialPoison a n then none
    else
      let d1 := d.clearPoisonIn a n
      some { d1 with mem := { d1.mem with dram := memWrite d1.mem.dram (d1.dramKey a) bs } }
  else if 0x800000000000 ≤ a ∧ a + n ≤ 0x1000000000000 then
    match d.hostAddr (a + n - 1) with
    | some _ => some { d with mem := { d.mem with
        hostMem := memWrite d.mem.hostMem (d.rd Reg.hostWinBase * 4096 + (a - 0x800000000000)) bs } }
    | none => none
  else if 0x200010000000 ≤ a ∧ a + n ≤ 0x200012000000 then
    some { d with mem := { d.mem with rimSram := memWrite d.mem.rimSram (a - 0x200010000000) bs } }
  else none

/-- The address of a ring record lies in no part of the address map (01 R34): a write there ends UNMAPPED_ADDRESS, where one that DRAM or the host refuses does not. -/
def Dev.ringUnmapped (d : Dev) (a n : Nat) : Bool :=
  decide (d.dramTop < a + n) && (!(decide (0x800000000000 ≤ a ∧ a + n ≤ 0x1000000000000)) || (d.hostAddr (a + n - 1)).isNone) &&
    !(decide (0x200010000000 ≤ a ∧ a + n ≤ 0x200012000000))

/-- A fetch by a ring engine; `none` where it completes UNMAPPED_ADDRESS or reads a bad line (12 R311). -/
def Dev.ringLoad (d : Dev) (a n : Nat) : Option (List Byte) :=
  if a + n ≤ d.dramTop then (if (d.badLine a n).isSome then none else some (d.dramBytes a n))
  else if 0x800000000000 ≤ a ∧ a + n ≤ 0x1000000000000 then
    match d.hostAddr (a + n - 1) with
    | some _ => some (memRead d.mem.hostMem (d.rd Reg.hostWinBase * 4096 + (a - 0x800000000000)) n)
    | none => none
  else if 0x200010000000 ≤ a ∧ a + n ≤ 0x200012000000 then some (memRead d.mem.rimSram (a - 0x200010000000) n)
  else none

end Sys2Proof.Machine
end

