-- ==== Sys2Proof/Machine/Flags.lean ====
section
/-! DEFINITION. Occurrences and what they leave: source counts, the fault log, event records in their rings, interrupts, W1C bits and their records, the degraded bits (13 R320-R333, 20 R442-R445). -/
namespace Sys2Proof.Machine

/-- Raises an occurrence of the present cycle (13 R322). A data or image record belongs to source 0 (13 R320). -/
def Dev.raise (d : Dev) (o : Occ) : Dev :=
  { d with occ := d.occ ++ [{ o with detail := o.detail % 65536,
                                     source := if o.cls = 1 ∨ o.cls = 2 then 0 else o.source }] }

/-- An occurrence that names a logical tile: its physical tile and field are filled in (20 R442). -/
def Dev.atTile (d : Dev) (o : Occ) (t : Nat) : Occ :=
  { o with ltile := t, ptile := d.ptileOf t, field := fieldOf t }

/-- Sets bit `i` of a W1C field by hardware. Unless the cause has its own record on the same source (`shared`), the set is an occurrence with a W1C_SET record (13 R333). -/
def Dev.setW1c (d : Dev) (f : Fld) (source : Nat) (shared : Bool := false) (i : Nat := 0) : Dev :=
  let v := d.rd f
  let d1 := d.wr f (if bitOf v i then v else v + 2 ^ i)
  if shared then d1
  else d1.raise { code := Rc.w1cSet, detail := f.lo + i, cls := 3, source := source, word := some f.off }

/-- The newest record of the fault log that a new event-class record coalesces with (20 R444). -/
def Dev.coalesces (d : Dev) (o : Occ) : Option FaultRec :=
  match d.mem.faultLog with
  | r :: _ =>
    if o.cls = 0 ∧ r.occ.cls = 0 ∧ r.occ.code = o.code ∧ r.occ.detail = o.detail ∧ r.occ.ltile = o.ltile ∧
        r.occ.unit = o.unit ∧ d.tick - d.mem.faultTick ≤ 25000 then some r else none
  | [] => none

/-- An occurrence is admitted to the fault log (20 R444). -/
def admitted (o : Occ) : Bool :=
  o.cls = 1 || o.cls = 2 ||
    (o.cls = 0 && o.code != Rc.evtSoftware && o.code != Rc.queueNotify && o.code != Rc.aonEdge)

/-- The beat number. -/
def Dev.beat (d : Dev) : Nat := d.rd Reg.beatNumber

/-- Writes an occurrence to the fault log, or counts it as a repeat of the newest record; the index its event record carries (20 R444, R449). -/
def Dev.logFault (d : Dev) (o : Occ) : Nat × Dev :=
  match d.coalesces o with
  | some r =>
    (r.index, ({ d with mem := { d.mem with faultLog := { r with repeats := r.repeats + 1 } :: d.mem.faultLog.tail } }).bump
      Reg.coalesced)
  | none =>
    let idx := match d.mem.faultLog with
      | r :: _ => (r.index + 1) % 2 ^ 32
      | [] => 0
    let r : FaultRec :=
      { occ := o, beat := o.beat.getD d.beat, imageEpoch := d.rd Reg.imageEpoch, weightVersion := d.rd Reg.activeVersion,
        repeats := 0, tick := d.tick, deviceTime := d.rd Reg.deviceTime, index := idx }
    let d1 := { d with mem := { d.mem with faultLog := r :: d.mem.faultLog.take 65535, faultTick := d.tick } }
    let d2 := (d1.wr Reg.faultNewest idx).wr Reg.faultOldest (if 65535 ≤ idx then idx - 65535 else 0)
    (idx, d2.bump (if o.cls = 1 then Reg.dataFaults else if o.cls = 2 then Reg.imageFaults else Reg.eventRecords))

/-- Entries of an event ring (13 R334 `SIZE`). -/
def Dev.ringEntries (d : Dev) (r : Nat) : Nat := 2 ^ (d.rd (Reg.ringSize r) + 1)

/-- Something left the block at its pins or links. -/
def Dev.emit (d : Dev) (o : Out) : Dev := { d with io := { d.io with outbox := d.io.outbox ++ [o] } }

/-- Sends an MSI-X message, or holds it pending while its vector is masked (13 R327, R329). -/
def Dev.sendMsix (d : Dev) (v : Nat) : Dev :=
  if d.bit (Reg.msixMask v) then
    let i := v % 2048 / 64
    let w := d.rd (Reg.msixPba i)
    d.wr (Reg.msixPba i) (if bitOf w (v % 64) then w else w + 2 ^ (v % 64))
  else d.emit (.msix v)

/-- The rim core that runs the duties of core `c` (20 R439). -/
def Dev.coreOf (d : Dev) (c : Nat) : Nat := AMap.get c d.pwr.duties c

/-- Sends one interrupt to a ring's target (13 R329). -/
def Dev.sendIrq (d : Dev) (r : Nat) : Dev :=
  let v := d.rd (Reg.ringVector r)
  if d.rd (Reg.ringTarget r) = 1 then d.sendMsix v
  else if d.rd (Reg.ringTarget r) = 2 ∧ v / 16 < 48 then d.emit (.rimLine (d.coreOf (v % 16)) (v / 16))
  else d

/-- Sets a ring's `ACTIVE` and sends its interrupt (13 R325). -/
def Dev.activate (d : Dev) (r : Nat) : Dev := (d.wr (Reg.ringActive r) 1).sendIrq r

/-- An occurrence is the W1C_SET record of an `OVERFLOW` bit (13 R324). -/
def isOverflowSet (o : Occ) : Bool :=
  o.code == Rc.w1cSet && (match o.word with
    | some w => inRange w 0x20000 0x20000 && w % 32 == 8
    | none => false) && o.detail == 48

/-- A record is lost on a named ring: `LOST`, `OVERFLOW` and the next record's `lost`; the loss of the W1C_SET record of an `OVERFLOW` bit is counted on source 80 and writes no record (13 R324). -/
def Dev.loseRecord (d : Dev) (r : Nat) (o : Occ) : Dev :=
  let d1 := d.bump (Reg.ringLost r)
  let d2 := { d1 with io := { d1.io with ringLost := AMap.modify 0 d1.io.ringLost r (· + 1) } }
  if isOverflowSet o then (d2.wr (Reg.ringOverflow r) 1).bump (Reg.srcCount 80)
  else d2.setW1c (Reg.ringOverflow r) 80

/-- The UNMAPPED_ACCESS occurrence (01 R34). -/
def unmappedOcc (write : Bool) (addr kind unit : Nat) : Occ :=
  { code := Rc.unmappedAccess, detail := b2n write, source := 1, addr := addr, unitKind := kind, unit := unit }

/-- Writes an event record to a ring, or loses it (13 R322-R325). The UNMAPPED_ACCESS record of a ring's own failed write raises no further one (DEDUCED, log entry 11). -/
def Dev.deliver (d : Dev) (r : Nat) (o : Occ) (faultIndex : Nat) : Dev :=
  let n := d.ringEntries r
  let head := d.rd (Reg.ringHead r)
  let tail := d.rd (Reg.ringTail r)
  if !d.bit (Reg.ringEnable r) || (tail + 1) % n == head then d.loseRecord r o
  else
    let pass := AMap.get 0 d.io.ringPass r
    let lost := AMap.get 0 d.io.ringLost r
    let v := eventBits o (o.word.getD faultIndex) d.beat (o.edgeTick.getD d.tick) lost ((pass + 1) % 2)
    let a := d.rd (Reg.ringBase r) + 32 * tail
    match d.ringStore a (leBytes 32 v) with
    | none =>
      let d1 := d.loseRecord r o
      if !d.ringUnmapped a 32 || (o.code == Rc.unmappedAccess && o.unitKind == 13 && o.unit == r) then d1
      else d1.raise (unmappedOcc true a 13 r)
    | some d1 =>
      let t := (tail + 1) % n
      let d2 := { d1 with io := { d1.io with
        ringLost := AMap.set 0 d1.io.ringLost r 0,
        ringPass := if t = 0 then AMap.set 0 d1.io.ringPass r (pass + 1) else d1.io.ringPass } }
      let d3 := d2.wr (Reg.ringTail r) t
      if head = tail ∧ !d3.bit (Reg.ringActive r) then d3.activate r else d3

/-- Processes one occurrence of one of the 512 sources: the source's count, the fault log, the event record (13 R320-R324). A notification goes to the ring of its queue pair (13 R328). -/
def Dev.process (d : Dev) (o : Occ) : Dev :=
  let src := o.source % 512
  let d1 := d.bump (Reg.srcCount src)
  let (idx, d2) := if admitted o then d1.logFault o else (0xFFFFFFFF, d1)
  if !d2.bit Reg.evtEnable then d2
  else match o.notify with
    | some r => if r < Config.eventRings && d2.bit (Reg.ringEnable r) then d2.deliver r o idx else d2
    | none => if d2.bit (Reg.routeEn src) then d2.deliver (d2.rd (Reg.routeRing src) % Config.eventRings) o idx else d2

/-- Puts an occurrence behind those of its source and of lower sources (13 R322). -/
def insertOcc (o : Occ) : List Occ → List Occ
  | [] => [o]
  | p :: ps => if o.source < p.source then o :: p :: ps else p :: insertOcc o ps

/-- Sorts the occurrences of a cycle by ascending source, keeping their order within one (13 R322). -/
def sortOcc (os : List Occ) : List Occ := os.foldl (fun acc o => insertOcc o acc) []

/-- Processes the occurrences of a cycle in ascending source, those that a lost record raises among them (13 R322, R324). -/
def Dev.drain (d : Dev) (work : List Occ) : Nat → Dev
  | 0 => d
  | fuel + 1 =>
    match work with
    | [] => d
    | o :: rest =>
      let d1 := ({ d with occ := [] }).process o
      let more := d1.occ.foldl (fun acc p => insertOcc p acc) rest
      ({ d1 with occ := [] }).drain more fuel

/-- Free reserve tiles of a field (08 R206, 20 R445): of role 3, not in use, not retired or quarantined. -/
def Dev.reserveFree (d : Dev) (n : Nat) : List Nat :=
  match d.img.active with
  | some im => im.reserve.filter fun t => fieldOf t == n && !(d.wafer.resMap.any fun p => p.2 == t) &&
      !(d.wafer.resPending.any fun p => p.2 == t) && !d.isRetired t && !d.wafer.quarantined.contains t &&
      !d.wafer.lostFields.contains n
  | none => []

/-- No ride-through (20 R445 bit 1): HUM absent, failed authentication or energy below 640 J; the HUM alarm (23 R488). -/
def Dev.noRide (d : Dev) : Bool :=
  !d.bit Reg.humPresent || !d.bit Reg.humAuthOk || d.pwr.energyJ < 640 || d.pwr.humAlarm

/-- The degraded bits (20 R445). They are evaluated from bring-up stage B7 (DEDUCED, log entry 12). -/
def Dev.degradedBits (d : Dev) : Nat :=
  if d.rd Reg.stage < 7 then 0 else
  b2n (d.img.stripes.any fun p => p.2.state == 2)
  + 2 * b2n d.noRide
  + 4 * b2n (AMap.get false d.pwr.feeds 0 != AMap.get false d.pwr.feeds 1)
  + 8 * b2n (d.rd Reg.lostStack != 0xF)
  + 16 * b2n (((List.range 16).any fun p => d.bit (Reg.portLost p)) || d.fab.upSince.any fun e => d.tick - e.2 < Config.ticksPerSecond)
  + 32 * b2n (d.rd Reg.rimCoresUp != 0xFFFF)
  + 64 * b2n (d.pwr.packages.length == 1)
  + 128 * b2n (!d.wafer.lostFields.isEmpty)
  + 256 * b2n (d.imgActive && (List.range 36).any fun n => (d.reserveFree n).length < 15)
  + 512 * b2n d.pwr.doubleFault

/-- The service request that the degraded bits make (20 R445): bit 0 tray, bit 1 HUM. -/
def svcOf (bits : Nat) (humReplace : Bool) : Nat :=
  b2n (bitOf bits 0 || bitOf bits 3 || bitOf bits 5 || bitOf bits 6 || bitOf bits 7 || bitOf bits 8 || bitOf bits 9)
    + 2 * b2n (bitOf bits 1 || humReplace)

/-- Brings `DEGRADED` and `SVC_REQUEST` up to date; `ERR_SERVICE` is set when the request becomes non-zero (20 R445, R449). A data or image record of the same cycle is its cause and lies on its source, so it is the set's record (13 R333). -/
def Dev.updateDegraded (d : Dev) : Dev :=
  let bits := d.degradedBits
  let svc := svcOf bits d.pwr.humReplace
  let d1 := (d.wr Reg.degraded bits).wr Reg.degradedUnprotected (bits % 2)
  let d2 := d1.wr Reg.svcRequest svc
  if d.rd Reg.svcRequest = 0 ∧ svc ≠ 0 then d2.setW1c Reg.errService 0 (d.occ.any fun o => o.source == 0 && (o.cls == 1 || o.cls == 2)) else d2

/-- The W36 drives ALERT_N low (23 R484); an unread record of pair 0 never stands, since its replies leave at once (12 R297). -/
def Dev.alertDrives (d : Dev) : Bool :=
  d.pwr.aonOn && (d.bit Reg.errDouble || d.bit Reg.errService || d.bit Reg.errStall)

/-- Brings ALERT_N up to date (23 R484). -/
def Dev.updateAlert (d : Dev) : Dev :=
  if d.alertDrives = d.io.alertLow then d
  else { d with io := { d.io with alertLow := d.alertDrives } }.emit (.alertN d.alertDrives)

/-- Ends a cycle: the degraded bits, then every occurrence of the cycle is counted and recorded; none is left; ALERT_N follows (13 R322, 23 R484). -/
def Dev.closeCycle (d : Dev) : Dev :=
  let d1 := d.updateDegraded
  { (({ d1 with occ := [] }).drain (sortOcc d1.occ) (8 * d1.occ.length + 8)).updateAlert with occ := [] }

end Sys2Proof.Machine
end

