-- ==== Sys2Proof/Machine/Narlas.lean ====
section
/-! DEFINITION. The sending side of the Narlas transport (15 R354-R358, 21 R461-R463): messages become DATA packets, which take a path, a sequence number and a key, and are kept until they are acknowledged. -/
namespace Sys2Proof.Machine

/-- The association with a peer (15 R355). -/
def Dev.assoc (d : Dev) (p : Nat) : Assoc := AMap.get {} d.fab.assocs p

/-- Sets the association with a peer. -/
def Dev.setAssoc (d : Dev) (p : Nat) (a : Assoc) : Dev := { d with fab := { d.fab with assocs := AMap.insert p a d.fab.assocs } }

/-- A peer that Narlas cannot reach (15 R357). -/
def Dev.peerGone (d : Dev) (p : Nat) : Bool := !(d.assoc p).reachable

/-- A path of an association. -/
def Assoc.path (a : Assoc) (k : Nat) : Path := AMap.get {} a.paths k

/-- Sets a path. -/
def Assoc.setPath (a : Assoc) (k : Nat) (x : Path) : Assoc := { a with paths := AMap.insert k x a.paths }

/-- The plane, and so the port, of a path: four UDP source ports on each of 16 (15 R352, R357; which path numbers share a plane is a DESIGN CHOICE, log entry 52). -/
def planeOf (k : Nat) : Nat := k / 4

/-- A port that carries traffic: up and not lost (15 R351). -/
def Dev.portLive (d : Dev) (p : Nat) : Bool := d.bit (Reg.linkUp p) && !d.bit (Reg.portLost p)

/-- A path on which new packets may leave (15 R357). -/
def Dev.pathUp (d : Dev) (a : Assoc) (k : Nat) : Bool := (a.path k).up && d.portLive (planeOf k)

/-- The free window of a path in packets (15 R357). -/
def Assoc.room (a : Assoc) (k : Nat) : Nat := (a.path k).window - (a.sent.filter fun x => x.path == k).length

/-- Among the paths that a test allows, the one with the most free window, the lowest number first (15 R357). -/
def widest (a : Assoc) (ok : Nat → Bool) : Option Nat :=
  ((List.range 64).filter ok).foldl (fun (b : Option Nat) k => match b with
    | some j => if a.room j < a.room k then some k else b
    | none => some k) none

/-- Counts the paths up to a peer in `PATHS_UP` (15 R372). -/
def Dev.showPaths (d : Dev) (p : Nat) : Dev :=
  d.wr (Reg.pathsUp p) ((List.range 64).filter fun k => d.pathUp (d.assoc p) k).length

/-- A Narlas header (15 R354). -/
def narlasHdr (type src dst : Nat) (b : NBody) (psn path pathSeq epoch : Nat) : BitVec 256 :=
  BitVec.ofNat 256 (pack [(0, 4, 1), (4, 4, type), (8, 4, b.cls), (12, 1, b2n b.tenant.isSome), (13, 1, b2n b.last),
    (16, 10, src), (26, 10, dst), (36, 12, b.tenant.getD 0), (48, 16, b.flow), (64, 32, psn), (96, 32, b.msg),
    (128, 32, b.offset), (160, 13, b.bytes.length), (173, 6, path), (192, 16, pathSeq), (208, 32, epoch)])

/-- Fresh free bytes, as a nonce needs (21 R458, R461). -/
def Dev.fresh (d : Dev) (words : Nat) : List Byte × Dev :=
  ((List.range words).flatMap fun i => leBytes 8 (Config.freeWord (d.freeCtr + i)).toNat, { d with freeCtr := d.freeCtr + words })

/-- Reads corrected by a stack's own code and by the outer code: free numbers, no more than the lines read (14 R338, R339, R348; DESIGN CHOICE, log entry 73). -/
def Dev.corrBy (d : Dev) (s k : Nat) (outer : Bool) : Dev :=
  if k = 0 then d
  else
    let d1 := d.bump (Reg.innerCorr s) ((Config.freeWord d.freeCtr).toNat % (k + 1))
    let d2 := if outer && d.rd Reg.eccMode == 0 then d1.bump (Reg.outerCorr s) ((Config.freeWord (d.freeCtr + 1)).toNat % (k + 1)) else d1
    { d2 with freeCtr := d.freeCtr + 2 }

/-- The controllers count what they corrected in a read of lines of DRAM (14 R338, R348). -/
def Dev.countReads (d : Dev) (ls : List Nat) : Dev :=
  forN 12 d fun s e => e.corrBy s (ls.filter fun l => d.stackOf (d.dramKey l) == s).length true

/-- The certificate chain of the device (21 R458). -/
def Dev.certChain (d : Dev) : List Byte := Config.rootCert ++ Config.intermediateCert ++ d.meas.part.deviceCert

/-- Sends a step of a key exchange: chain, key or ciphertext, nonce, signed with the identity key (21 R461). -/
def Dev.sendExchange (d : Dev) (peer step : Nat) (tenant : Option Nat) : Dev :=
  let (nonce, d1) := d.fresh 4
  let body := d1.certChain ++ Config.kemBytes d1.freeCtr ++ nonce
  { d1 with freeCtr := d1.freeCtr + 1 }.emit (.exchange peer step tenant (body ++ Config.mldsaSign d1.meas.part.deviceKey body))

/-- Opens an exchange: that of the association by the device with the lower index (21 R461), that of a session key by the one that needs it (R462). -/
def Dev.openExchange (d : Dev) (peer : Nat) (tenant : Option Nat) : Dev :=
  if tenant.isNone ∧ peer ≤ d.rd Reg.fabDevice then d else d.sendExchange peer 1 tenant

/-- The key that a packet needs is in place (21 R461, R462). -/
def Assoc.keyFor (a : Assoc) (b : NBody) : Bool := a.keyed && (match b.tenant with
  | some t => a.tenantKeys.contains t
  | none => true)

/-- Shares of classes 2 to 4, 4 : 2 : 1, as the weight of a byte (15 R358). -/
def byteWeight (cls : Nat) : Nat := if cls = 2 then 1 else if cls = 3 then 2 else 4

/-- The packet that leaves next (15 R358): classes 0 and 1 first, then the class of 2 to 4 that has had least of its share. -/
def Assoc.nextBody (a : Assoc) : Option NBody :=
  let able := a.waiting.filter a.keyFor
  let first (c : Nat) : Option NBody := able.find? fun b => b.cls == c
  match first 0, first 1 with
  | some b, _ => some b
  | none, some b => some b
  | none, none =>
    [2, 3, 4].foldl (fun (best : Option NBody) c => match best, first c with
      | none, x => x
      | some b, some x => if AMap.get 0 a.share c < AMap.get 0 a.share b.cls then some x else some b
      | some b, none => some b) none

/-- A packet leaves on a path: it takes the path's next number and is kept (15 R355). -/
def Dev.sendOn (d : Dev) (peer psn k : Nat) (b : NBody) : Dev :=
  let a := d.assoc peer
  let x := a.path k
  let hdr := narlasHdr 0 (d.rd Reg.fabDevice) peer b psn k x.sendSeq (d.rd Reg.fabEpoch)
  let kept : Sent := { psn := psn, path := k, body := b }
  let a1 := { a with packets := a.packets + 1, sent := (a.sent.filter fun (y : Sent) => y.psn != psn) ++ [kept] }
  (d.setAssoc peer (a1.setPath k { x with sendSeq := (x.sendSeq + 1) % 65536 })).emit (.packet (planeOf k) hdr b.bytes)

/-- Sends what waits for a peer as far as keys, paths and windows allow (15 R357, R358). -/
def Dev.pumpPeer (d : Dev) (peer : Nat) : Nat → Dev
  | 0 => d
  | fuel + 1 =>
    let a := d.assoc peer
    match a.nextBody, widest a (fun k => d.pathUp a k && 0 < a.room k) with
    | some b, some k =>
      let share := if 2 ≤ b.cls then AMap.modify 0 a.share b.cls (· + b.bytes.length * byteWeight b.cls) else a.share
      let a1 := { a with waiting := a.waiting.erase b, share := share, txPsn := (a.txPsn + 1) % 2 ^ 32 }
      ((d.setAssoc peer a1).sendOn peer a.txPsn k b).pumpPeer peer fuel
    | _, _ => d

/-- Sends what waits for a peer. -/
def Dev.pump (d : Dev) (peer : Nat) : Dev := d.pumpPeer peer (d.assoc peer).waiting.length

/-- The flow of a class and tenant within an association; the spec does not number flows (DESIGN CHOICE, log entry 52). -/
def flowOf (cls : Nat) (tenant : Option Nat) : Nat := cls + 5 * (match tenant with
  | some t => t + 1
  | none => 0)

/-- The packets of a message (15 R354, R355). -/
def bodiesOf (cls flow msg : Nat) (tenant : Option Nat) (bs : List Byte) : List NBody :=
  let n := max 1 (ceilDiv bs.length 4096)
  (List.range n).map fun i =>
    { cls := cls, flow := flow, msg := msg % 2 ^ 32, offset := 4096 * i, last := i + 1 == n, tenant := tenant,
      bytes := (bs.drop (4096 * i)).take 4096 }

/-- The Narlas messages of one message of the model: each holds at most 64 MiB (15 R355), its first byte tells whether another follows (log entry 9). -/
def piecesOf (bs : List Byte) : List (List Byte) :=
  let n := max 1 (ceilDiv bs.length (2 ^ 26 - 1))
  (List.range n).map fun i => leBytes 1 (b2n (i + 1 != n)) ++ (bs.drop ((2 ^ 26 - 1) * i)).take (2 ^ 26 - 1)

/-- Sends a message of a class to a peer, a tenant's data under its session key (15 R355, 21 R462). A key that is missing is set up first (21 R461). -/
def Dev.sendMsg (d : Dev) (cls peer : Nat) (bs : List Byte) (tenant : Option Nat := none) : Dev :=
  let a := d.assoc peer
  let flow := flowOf cls tenant
  let num := AMap.get 0 a.flows flow
  let ps := piecesOf bs
  let bodies := (List.range ps.length).flatMap fun i => bodiesOf cls flow (num + i) tenant (ps.getD i [])
  let ask : Option (Option Nat) :=
    if !a.keyed then (if a.waiting.isEmpty then some none else none)
    else match tenant with
      | some t => if !a.tenantKeys.contains t && !(a.waiting.any fun b => b.tenant == some t) then some (some t) else none
      | none => none
  let d1 := d.setAssoc peer { a with waiting := a.waiting ++ bodies, flows := AMap.insert flow (num + ps.length) a.flows }
  let d2 := match ask with
    | some t => d1.openExchange peer t
    | none => d1
  d2.pump peer

/-- An empty packet body of class 0, as PROBE, ACK and NACK packets carry their own payload (15 R354). -/
def controlBody (bs : List Byte) : NBody := { cls := 0, flow := 0, msg := 0, offset := 0, last := false, tenant := none, bytes := bs }

/-- Segments other than segment 0 of the system (15 R360, R364). -/
def Dev.otherSegments (d : Dev) : List Nat :=
  if d.rd Reg.memberState ≠ 2 ∨ d.rd Reg.segNext = 0x3FF then []
  else (d.fab.table.filter fun e => e.2.state == 2 && e.2.seg != 0 && e.1 != d.rd Reg.fabDevice).map (·.1)

/-- Sends a packet of a type other than DATA on a path; it is not kept (15 R354). -/
def Dev.sendBare (d : Dev) (type peer k : Nat) (bs : List Byte) : Dev :=
  d.emit (.packet (planeOf k) (narlasHdr type (d.rd Reg.fabDevice) peer (controlBody bs) 0 k 0 (d.rd Reg.fabEpoch)) bs)

/-- Sends a kept packet again, on a different path that is up where there is one, with a path number of its own (15 R356). -/
def Dev.retransmit (d : Dev) (peer psn : Nat) : Dev :=
  let a := d.assoc peer
  match a.sent.find? fun (y : Sent) => y.psn == psn with
  | none => d
  | some y =>
    match widest a fun k => d.pathUp a k && k != y.path with
    | some k => d.sendOn peer psn k y.body
    | none => if d.pathUp a y.path then d.sendOn peer psn y.path y.body else d

/-- Sends again every kept packet of a path. -/
def Dev.retransmitPath (d : Dev) (peer k : Nat) : Dev :=
  (((d.assoc peer).sent.filter fun (y : Sent) => y.path == k).map (·.psn)).foldl (fun d n => d.retransmit peer n) d

/-- A path goes down (15 R357): PATH_DOWN, a PROBE, its packets leave on other paths. -/
def Dev.pathDown (d : Dev) (peer k : Nat) : Dev :=
  let a := d.assoc peer
  if !(a.path k).up then d
  else
    let d1 := d.setAssoc peer (a.setPath k { a.path k with up := false, expiries := 0, replies := 0, probed := true })
    let d2 := d1.raise { code := Rc.pathDown, detail := k + 64 * peer, source := 1 }
    ((d2.sendBare 3 peer k []).retransmitPath peer k).showPaths peer

/-- The paths of a lost port go down in every association (15 R351, R357). -/
def Dev.planeDown (d : Dev) (p : Nat) : Dev :=
  (d.fab.assocs.map (·.1)).foldl (fun d peer => (List.range 4).foldl (fun (d : Dev) j => d.pathDown peer (4 * p + j)) d) d

/-- Every path that is down is probed, each 1 ms (15 R357); a PROBE that had no reply breaks the row of replies. -/
def Dev.probeDown (d : Dev) : Dev :=
  d.fab.assocs.foldl (fun (d : Dev) e =>
    ((e.2.paths.filter fun (x : Nat × Path) => !x.2.up).map (·.1)).foldl (fun (d : Dev) k =>
      let a := d.assoc e.1
      let x := a.path k
      (d.setAssoc e.1 (a.setPath k { x with replies := if x.probed then 0 else x.replies, probed := true })).sendBare 3 e.1 k []) d) d

end Sys2Proof.Machine
end

