-- ==== Sys2Proof/Machine/Rings.lean ====
section
/-! DEFINITION. Completion rings: replies, deliveries, the wait for space, notifications (12 R300-R302, R311, 13 R328), and the doorbell (12 R305). -/
namespace Sys2Proof.Machine

/-- A queue pair is in use; pair 0 always is (12 R303). -/
def Dev.qpOn (d : Dev) (q : Nat) : Bool := d.bit (Reg.qEnable q)

/-- Entries of a pair's completion ring (12 R304). -/
def Dev.cqEntries (d : Dev) (q : Nat) : Nat := 2 ^ (d.rd (Reg.cqSize q) + 1)

/-- Entries of a pair's submission ring (12 R304). -/
def Dev.sqEntries (d : Dev) (q : Nat) : Nat := 2 ^ (d.rd (Reg.sqSize q) + 1)

/-- Unread records of a pair's completion ring (12 R302). -/
def Dev.cqUnread (d : Dev) (q : Nat) : Nat :=
  let n := d.cqEntries q
  (d.rd (Reg.cqTail q) + n - d.rd (Reg.cqHead q) % n) % n

/-- Groups of records that wait for a pair's ring (12 R311). -/
def Dev.waitingOn (d : Dev) (q : Nat) : List (List Rec) := AMap.get [] d.io.qpWaiting q

/-- A pair fetches commands (12 R303, R304, R311): it is in use, no access to its rings has failed, and no completion waits for its ring. -/
def Dev.mayFetch (d : Dev) (q : Nat) : Bool :=
  d.qpOn q && !d.bit (Reg.errBase q) && !(d.waitingOn q).any fun g => g.any fun r => bitsOf r.toNat 252 3 == 0

/-- A command starts from a fetch, or goes on where it was fetched before its pair stopped fetching (12 R311). -/
def Dev.mayTake (d : Dev) (r : Rhoic) : Bool := r.fetched.isSome || d.mayFetch r.qp

/-- Sets the groups that wait. -/
def Dev.setWaiting (d : Dev) (q : Nat) (gs : List (List Rec)) : Dev :=
  { d with io := { d.io with qpWaiting := AMap.set [] d.io.qpWaiting q gs } }

/-- A record with the phase bit of the pass that a pair's completion ring is in (12 R302). -/
def Dev.phased (d : Dev) (q : Nat) (r : Rec) : Nat := r.toNat % 2 ^ 255 + (AMap.get 0 d.io.qpPass q + 1) % 2 * 2 ^ 255

/-- Writes one record at `CQ_TAIL` with its phase bit; none where the write fails (12 R302, R311). -/
def Dev.putRecord (d : Dev) (q : Nat) (r : Rec) : Option Dev :=
  let pass := AMap.get 0 d.io.qpPass q
  let tail := d.rd (Reg.cqTail q)
  match d.ringStore (d.rd (Reg.cqBase q) + 32 * tail) (leBytes 32 (d.phased q r)) with
  | none => none
  | some d1 =>
    let t := (tail + 1) % d.cqEntries q
    let d2 := d1.wr (Reg.cqTail q) t
    some (if t = 0 then { d2 with io := { d2.io with qpPass := AMap.set 0 d2.io.qpPass q (pass + 1) } } else d2)

/-- Writes the records of a group one after the other (12 R300). -/
def Dev.putGroup (d : Dev) (q : Nat) : List Rec → Option Dev
  | [] => some d
  | r :: rs => match d.putRecord q r with
    | none => none
    | some d1 => d1.putGroup q rs

/-- The notification of a completion ring that went from empty to non-empty (13 R328). -/
def Dev.notifyQueue (d : Dev) (q : Nat) : Dev :=
  d.raise { code := Rc.queueNotify, detail := q, source := 82, notify := some (d.rd (Reg.notifyRing q)) }

/-- Notes that a delivery of a stream has been written (17 R400, R401). -/
def Dev.noteWritten (d : Dev) (g : List Rec) : Dev :=
  match g.head? with
  | some r =>
    let i := bitsOf r.toNat 32 15
    match (if bitsOf r.toNat 252 3 = 1 then AMap.find d.serve.streams i else none) with
    | some s => { d with serve := { d.serve with streams := AMap.insert i { s with unwritten := s.unwritten.erase g } d.serve.streams } }
    | none => d
  | none => d

/-- The tenant whose session key the traffic of a pair travels under (21 R462). -/
def Dev.pairTenant (d : Dev) (q : Nat) : Option Nat := if d.rd (Reg.qClass q) = 3 then some (d.rd (Reg.qTenant q)) else none

/-- The records of a pair of the Narlas path travel to its peer over class 2 (12 R297, 15 R358; the layout is a DESIGN CHOICE, log entry 9). -/
def Dev.carryReplies (d : Dev) (q : Nat) (g : List Rec) : Dev :=
  if d.rd (Reg.qPath q) = 1 then
    d.sendMsg 2 (d.rd (Reg.qPeer q)) (leBytes 1 5 ++ leBytes 2 q ++ g.flatMap fun r => leBytes 32 r.toNat) (d.pairTenant q)
  else d

/-- The address at which record `i` of the group that is written next goes (12 R302). -/
def Dev.recordAddr (d : Dev) (q i : Nat) : Nat := d.rd (Reg.cqBase q) + 32 * ((d.rd (Reg.cqTail q) + i) % d.cqEntries q)

/-- A record of pair 0: written to its completion ring in rim SRAM, then carried in an MCTP response with any inline bytes, which reads it: `CQ_HEAD` follows (12 R297, R302, R303). At B0, where rim SRAM has not started, the always-on domain answers and no ring takes part (19 R419). -/
def Dev.answerZero (d : Dev) (r : Rec) (inl : List Byte := []) : Dev :=
  let d1 := if d.rd Reg.stage = 0 then d else match d.putRecord 0 r with
    | some e => e.wr (Reg.cqHead 0) (e.rd (Reg.cqTail 0))
    | none => d
  d1.emit (.mctp 0x7F (leBytes 32 (d.phased 0 r) ++ inl))

/-- An MCTP message's packet enters pair 0's submission ring (12 R297, R303). -/
def Dev.placeZero (d : Dev) (pkt : BitVec 512) : Dev :=
  let tail := d.rd (Reg.sqTail 0)
  if d.rd Reg.stage = 0 then d else match d.ringStore (d.rd (Reg.sqBase 0) + 64 * tail) (leBytes 64 pkt.toNat) with
    | some e => e.wr (Reg.sqTail 0) ((tail + 1) % d.sqEntries 0)
    | none => d

/-- Writes the groups that wait, oldest first, as far as the ring has space (12 R311). Pair 0's records leave in MCTP responses (12 R297). -/
def Dev.drainCq (d : Dev) (q : Nat) : List (List Rec) → Dev
  | [] => d.setWaiting q []
  | g :: gs =>
    if q = 0 then
      ((g.foldl (fun d r => d.answerZero r) d).noteWritten g).drainCq q gs
    else if !d.qpOn q || d.bit (Reg.errBase q) || d.cqEntries q ≤ d.cqUnread q + g.length then
      d.setWaiting q (g :: gs)
    else match d.putGroup q g with
      | none =>
        let d1 := (d.setWaiting q (g :: gs)).setW1c (Reg.errBase q) 80
        match (List.range g.length).find? fun i => d.ringUnmapped (d.recordAddr q i) 32 with
        | some i => d1.raise (unmappedOcc true (d.recordAddr q i) 12 q)
        | none => d1
      | some d1 =>
        let d2 := if d.cqUnread q = 0 then d1.notifyQueue q else d1
        ((d2.noteWritten g).carryReplies q g).drainCq q gs

/-- Writes what waits on a pair. -/
def Dev.pumpCq (d : Dev) (q : Nat) : Dev := d.drainCq q (d.waitingOn q)

/-- Posts a group of records to a pair's completion ring. It waits where the ring has no space; the first wait sets `CQ_STALL` (12 R311). -/
def Dev.postGroup (d : Dev) (q : Nat) (g : List Rec) : Dev :=
  let before := d.waitingOn q
  let d1 := d.drainCq q (before ++ [g])
  if before.isEmpty && !(d1.waitingOn q).isEmpty && !d1.bit (Reg.errBase q) then
    if d1.bit (Reg.cqStall q) then d1 else d1.setW1c (Reg.cqStall q) 80
  else d1

/-- A completion reply, kind 0 (12 R300). -/
def replyRec (tag st detail result result2 sqHead q : Nat) : Rec :=
  BitVec.ofNat 256 (pack [(0, 32, tag), (32, 16, st), (48, 16, detail), (64, 64, result), (128, 64, result2),
    (192, 16, sqHead), (208, 14, q)])

/-- A delivery record, kind 1 (12 R300), and its continuations, kind 2, for `text` bytes. -/
def deliveryRecs (genTag stream seq token : Nat) (stop fin : Bool) (reason : Nat) (text : List Byte) : List Rec :=
  let first := BitVec.ofNat 256 (pack [(0, 16, genTag), (32, 15, stream), (48, 64, seq), (112, 32, token),
    (144, 1, b2n stop), (145, 1, b2n fin), (146, 4, reason), (150, 9, text.length), (160, 64, leNat (text.take 8)),
    (252, 3, 1)])
  let rest := text.drop 8
  first :: (List.range (ceilDiv rest.length 24)).map fun i =>
    BitVec.ofNat 256 (pack [(0, 192, leNat ((rest.drop (24 * i)).take 24)), (252, 3, 2)])

/-- The doorbell value `val` on pair `q` by path `path` (12 R305): refused with `ERR_DOORBELL`, or the new tail and head. -/
def Dev.ringDoorbell (d : Dev) (path q val : Nat) : Dev :=
  let tail := bitsOf val 0 16
  let head := bitsOf val 16 16
  let sv := bitOf val 32
  let cv := bitOf val 33
  let n := d.cqEntries q
  let used := d.cqUnread q
  -- the head may move over unread records only
  let adv := (head + n - d.rd (Reg.cqHead q) % n) % n
  let bad := !d.qpOn q || d.rd (Reg.qPath q) != path || (sv && d.sqEntries q ≤ tail) ||
    (cv && (n ≤ head || used < adv))
  if bad then d.setW1c (Reg.errDoorbell q) 80
  else
    let d1 := if sv then d.wr (Reg.sqTail q) tail else d
    let d2 := if sv ∧ d1.rd (Reg.sqHead q) ≠ tail ∧ (AMap.find d1.io.qpSince q).isNone then
        { d1 with io := { d1.io with qpSince := AMap.insert q d1.tick d1.io.qpSince } } else d1
    if cv then (d2.wr (Reg.cqHead q) head).pumpCq q else d2

/-- The entry of a pair as it stands holds rings that R304 allows. -/
def Dev.ringsValid (d : Dev) (q : Nat) : Bool :=
  3 ≤ d.rd (Reg.sqSize q) && 3 ≤ d.rd (Reg.cqSize q) && d.rd (Reg.qPath q) != 3 &&
    d.rd (Reg.sqBase q) % 64 == 0 && d.rd (Reg.cqBase q) % 32 == 0

/-- Puts a pair in use: the count of commands starts, the pair serves its rings again (12 R304, R311). -/
def Dev.enablePair (d : Dev) (q : Nat) : Dev :=
  (((d.wr (Reg.qEnable q) 1).wr (Reg.cmdCount q) 0)).pumpCq q

end Sys2Proof.Machine
end

