-- ==== Sys2Proof/Machine/Hosts.lean ====
section
/-! DEFINITION. Where the work of a logical tile runs (reserve tiles, 08 R206; girdle tiles in recovery or hosting a member, 09 R221, R229, R232), the records of the active image seen through that, and the KV pages of a stream (10 R242-R246). -/
namespace Sys2Proof.Machine

/-- The active image. -/
def Dev.image (d : Dev) : Image := d.img.active.getD {}

/-- The stripe record of a stripe. -/
def Dev.stripeRec (d : Dev) (n : Nat) : Option StripeRec := d.image.stripes[n]?

/-- A stripe's state. -/
def Dev.stripe (d : Dev) (n : Nat) : Stripe := AMap.get {} d.img.stripes n

/-- Sets a stripe's state. -/
def Dev.setStripe (d : Dev) (n : Nat) (s : Stripe) : Dev :=
  { d with img := { d.img with stripes := AMap.set {} d.img.stripes n s } }

/-- Tiles of a stripe: members, then girdle tiles. -/
def StripeRec.all (r : StripeRec) : List (Nat × Nat) := r.members ++ r.girdle

/-- The stripes of a weight tile, with its index in each, data members first (09 R218): a data member runs one product for each of its stripes (09 R213). -/
def Dev.stripesOf (d : Dev) (t : Nat) : List (Nat × Nat) :=
  (d.image.stripes.filter fun r => r.all.any fun m => m.1 == t).map fun r =>
    (r.stripe, (r.all.findIdx fun m => m.1 == t))

/-- The first stripe of a weight tile. -/
def Dev.stripeOf (d : Dev) (t : Nat) : Option (Nat × Nat) := (d.stripesOf t).head?

/-- The (member, girdle tile) pairs for which a stripe's girdle tiles run a member's program: hosted members, and the lost member in recovery by girdle tile 0 (09 R221, R229, R232). -/
def Dev.hostings (d : Dev) (n : Nat) : List (Nat × Nat) :=
  match d.stripeRec n with
  | none => []
  | some r =>
    let s := d.stripe n
    let rec_ := match s.lost with
      | some i => if s.state = 1 ∧ !s.waits ∧ i < r.members.length then [(i, 0)] else []
      | none => []
    (rec_ ++ s.hosted).filterMap fun p =>
      match r.members[p.1]?, r.girdle[p.2]? with
      | some m, some g => some (m.1, g.1)
      | _, _ => none

/-- Every (lost tile, tile that runs its work) pair: one for a tile, which girdle tile 0 of the lowest of its stripes runs. -/
def Dev.hostPairs (d : Dev) : List (Nat × Nat) :=
  (d.wafer.resMap ++ d.img.stripes.flatMap fun s => d.hostings s.1).foldl (fun (acc : List (Nat × Nat)) p =>
    if acc.any fun q => q.1 == p.1 then acc else acc ++ [p]) []

/-- The tile on which the work of a logical tile of the image runs. -/
def Dev.hostOf (d : Dev) (k : Nat) : Nat := ((d.hostPairs.find? fun p => p.1 == k).map (·.2)).getD k

/-- The logical tile of the image whose work a tile runs. -/
def Dev.guestOf (d : Dev) (t : Nat) : Nat := ((d.hostPairs.find? fun p => p.2 == t).map (·.1)).getD t

/-- The record of a tile of the image. -/
def Image.rec? (im : Image) (t : Nat) : Option TileRec := im.tiles.find? fun r => r.tile == t

/-- The record whose program a tile runs. -/
def Dev.recOf (d : Dev) (t : Nat) : Option TileRec := d.image.rec? (d.guestOf t)

/-- A channel of the active image, as a stripe in recovery has it (09 R221). -/
def Dev.chanRec (d : Dev) (c : Nat) : Option ChanRec := match AMap.find d.img.chanEdits c with
  | some r => some r
  | none => d.image.chans[c]?

/-- A tree of the active image, as a stripe in recovery has it (09 R221 step 3). -/
def Dev.treeRec (d : Dev) (id : Nat) : Option TreeRec := match AMap.find d.img.treeEdits id with
  | some r => some r
  | none => d.image.trees.find? fun t => t.id == id

/-- The node of a tree on a tile, with its index (06 R155). -/
def TreeRec.nodeOf (r : TreeRec) (t : Nat) : Option (Nat × NodeRec) :=
  (r.nodes.find? fun n => n.tile == t).map fun n => (r.nodes.findIdx fun n => n.tile == t, n)

/-- The inputs of a node: slots and child indices, in ascending slot (04 R104). -/
def TreeRec.inputsOf (r : TreeRec) (i : Nat) : List (Nat × Nat) :=
  let kids := (List.range r.nodes.length).filterMap fun j =>
    match r.nodes[j]? with
    | some n => if n.parent = i ∧ j ≠ i then some (n.slot, j) else none
    | none => none
  kids.foldl (fun acc p => (acc.filter fun q => q.1 < p.1) ++ [p] ++ (acc.filter fun q => p.1 ≤ q.1)) []

/-- The node of a tree at which a tile takes part: its own, else that of the tile whose work it does (08 R206, 09 R221). -/
def Dev.nodeAt (d : Dev) (tr : TreeRec) (t : Nat) : Option (Nat × NodeRec) := match tr.nodeOf t with
  | some x => some x
  | none => tr.nodeOf (d.guestOf t)

/-- A channel's end is at a tile: it names the tile, or the tile whose work the tile does (08 R206, 09 R221). -/
def Dev.endsAt (d : Dev) (e t : Nat) : Bool := e == t || e == d.guestOf t

/-- A stripe runs in recovery (09 R220, R221): its record and the index of the lost member, whose work its girdle tile 0 does. Of the stripes of one lost tile that is the one whose girdle tile 0 does the tile's work (log entry 33). -/
def Dev.recovering (d : Dev) (n : Nat) : Option (StripeRec × Nat) :=
  match d.stripeRec n, (d.stripe n).lost with
  | some r, some i =>
    match r.members[i]?, r.girdle.head? with
    | some k, some g => if (d.stripe n).state = 1 ∧ !(d.stripe n).waits ∧ d.hostOf k.1 = g.1 then some (r, i) else none
    | _, _ => none
  | _, _ => none

/-- The stripe for which a tile is a girdle tile, with its place among them (09 R211). -/
def Dev.girdleOf (d : Dev) (t : Nat) : Option (StripeRec × Nat) :=
  (d.image.stripes.find? fun r => r.girdle.any fun g => g.1 == t).map fun r => (r, r.girdle.findIdx fun g => g.1 == t)

/-- The channel that carries the result of a node (07 R175). -/
def Dev.edgeChan (d : Dev) (tree node : Nat) : Option Nat :=
  (List.range d.image.chans.length).find? fun c => match d.chanRec c with
    | some r => r.kind == 1 && r.treeId == tree && r.node == node
    | none => false

/-- A channel's state. -/
def Dev.chan (d : Dev) (c : Nat) : Chan := AMap.get {} d.mesh.chans c

/-- Sets a channel's state. -/
def Dev.setChan (d : Dev) (c : Nat) (x : Chan) : Dev :=
  { d with mesh := { d.mesh with chans := AMap.set {} d.mesh.chans c x } }

/-- A tenant may share a prefix (10 R264). -/
def Pfx.admits (x : Pfx) (t : Nat) : Bool := x.owner == t || x.access == 2 || (x.access == 1 && x.listed.contains t)

/-- The tenant for which an owner's table is read: that of the stream, or the prefix's owner (10 R245, R266). -/
def Dev.readerOf (d : Dev) (owner : Nat) : Nat :=
  if owner < 65536 then ((d.stream? owner).map (·.tenant)).getD 0
  else ((AMap.find d.serve.prefixes (owner - 65536)).map (·.owner)).getD 0

/-- A SHARED entry followed to its prefix's entry, as often as that is SHARED itself, through prefixes whose access sets include the tenant (10 R245); it stays SHARED, and is read by no transfer, where one does not. -/
def Dev.followShared (d : Dev) (t : Nat) (p : Pte) : Nat → Pte
  | 0 => p
  | fuel + 1 =>
    if p.state = 5 ∧ ((AMap.find d.serve.prefixes p.frame).map fun x => x.admits t) = some true then
      d.followShared t (d.pte (65536 + p.frame) p.layer p.block) fuel
    else p

/-- The entry that a KV transfer resolves to, a SHARED entry followed to its prefix (10 R245, R246). -/
def Dev.kvEntry (d : Dev) (stream layer block : Nat) : Pte :=
  d.followShared (d.readerOf stream) (d.pte stream layer block) (d.serve.prefixes.length + 1)

/-- Changes a page-table entry; an entry that becomes an empty one is dropped from the list. -/
def Dev.setPte (d : Dev) (p : Pte) : Dev :=
  let rest := d.serve.ptes.filter fun q => !(q.owner == p.owner && q.layer == p.layer && q.block == p.block)
  { d with serve := { d.serve with
      ptes := if p = { owner := p.owner, layer := p.layer, block := p.block, state := 0, fmt := p.fmt } then rest else p :: rest } }

/-- The KV geometry of a layer (10 R240). -/
def Image.kvOf (im : Image) (layer : Nat) : Option KvGeom := im.kv.find? fun g => g.layer == layer

/-- The smallest position among the valid columns of a stream in a wave record (10 R253). -/
def lowestPos (cols : List Col) (stream : Nat) : Option Nat :=
  match (cols.filter fun c => c.valid && c.stream == stream).map (·.position) with
  | [] => none
  | x :: xs => some (xs.foldl min x)

/-- A fetched row at a position is skipped: its block of 64 lies at or beyond the smallest position (10 R254). Without one, every row is masked and none is read (R141). -/
def rowSkipped (p0 : Option Nat) (pos : Nat) : Bool :=
  match p0 with
  | none => true
  | some p => p ≤ pos / 64 * 64

/-- Column `c` of a tile's wave record. -/
def Site.col (x : Site) (c : Nat) : Col := x.cols.getD c {}

/-- The valid columns of a tile's wave record, a bit each. -/
def Site.validMask (x : Site) : Nat := (List.range 4).foldl (fun n c => n + b2n (x.col c).valid * 2 ^ c) 0

/-- A section table entry of the program in working SRAM: first descriptor, stage, valid (06 R138). -/
def Site.sectionAt (x : Site) (i : Nat) : Nat × Nat × Bool :=
  let w := memNat x.sram (x.progBase + 4 * i) 4
  (bitsOf w 0 16, bitsOf w 16 10, bitOf w 26)

end Sys2Proof.Machine
end

