-- ==== Sys2Proof/Machine/Kv.lean ====
section
/-! DEFINITION. KV pages: frames of the KV pool (10 R240, 14 R344), page states and their changes (10 R243), readability (10 R246), the on-wafer copies (10 R249-R251), drops (10 R257) and holds (10 R256). -/
namespace Sys2Proof.Machine

/-- 64 KiB granules of a layer's frame (10 R240). -/
def KvGeom.granules (g : KvGeom) : Nat := ceilDiv g.pageBytes 65536

/-- The lowest granule at which something that overlaps [lo, hi) begins: an allocation or a frame. -/
def Dev.blocker (d : Dev) (lo hi : Nat) : Option Nat :=
  let a := d.mem.allocs.filterMap fun x =>
    let first := x.base / 65536
    let last := (x.base + x.size + 65535) / 65536
    if x.size ≠ 0 ∧ first < hi ∧ lo < last then some first else none
  let f := (d.mem.frames.filter fun e => lo ≤ e.1 && e.1 < hi).map (·.1)
  match a ++ f with
  | [] => none
  | x :: xs => some (xs.foldl min x)

/-- The highest run of `k` free granules that ends at or below `top` (14 R344). -/
def Dev.highFree (d : Dev) (k : Nat) : Nat → Nat → Option Nat
  | 0, _ => none
  | fuel + 1, top =>
    if top < k + 2 * d.mirrorBytes / 65536 then none
    else match d.blocker (top - k) top with
      | none => some (top - k)
      | some b => d.highFree k fuel b

/-- A free frame of `k` granules, as its device address / 65,536. -/
def Dev.findFrame (d : Dev) (k : Nat) : Option Nat :=
  d.highFree k (d.mem.allocs.length + d.mem.frames.length + 1) (d.dramTop / 65536)

/-- Takes a frame of `k` granules for an owner. -/
def Dev.takeFrame (d : Dev) (k owner frame : Nat) : Dev :=
  { d with mem := { d.mem with frames := (List.range k).foldl (fun m i => AMap.insert (frame + i) owner m) d.mem.frames } }

/-- Returns a frame of `k` granules to the pool. -/
def Dev.freeFrame (d : Dev) (k frame : Nat) : Dev :=
  { d with mem := { d.mem with frames := d.mem.frames.filter fun e => !(frame ≤ e.1 && e.1 < frame + k) } }

/-- Discards every on-wafer copy of a page (10 R251). -/
def Dev.uncache (d : Dev) (frame : Nat) : Dev :=
  { d with wafer := { d.wafer with sites := d.wafer.sites.map fun e =>
      (e.1, { e.2 with cache := e.2.cache.filter fun c => c.frame != frame }) } }

/-- The page's entry holds a frame of its own (10 R243). -/
def Pte.hasFrame (p : Pte) : Bool := p.state == 1 || p.state == 2 || p.state == 4

/-- Frees the frame of a page and its copies. -/
def Dev.releasePage (d : Dev) (p : Pte) : Dev :=
  if p.hasFrame then (d.uncache p.frame).freeFrame p.size p.frame else d

/-- The block that an owner recomputes now (10 R259). -/
def Dev.recNow (d : Dev) (owner : Nat) : Option Nat := (AMap.find d.serve.recPos owner).map fun n => (n - 1) / 256

/-- Drops a page: FULL, ACTIVE, RECOMPUTING or REMOTE becomes DROPPED, its frame is freed (10 R243, R257); where its block, or one above it, is being recomputed, recompute starts anew at the lowest block (R260). -/
def Dev.dropPage (d : Dev) (p : Pte) : Dev :=
  if p.hasFrame || p.state == 6 then
    let again := match d.recNow p.owner with
      | some b => decide (p.block ≤ b)
      | none => false
    let d0 := if again then { d with serve := { d.serve with recPos := AMap.erase p.owner d.serve.recPos } } else d
    (d0.releasePage p).setPte { p with state := 3, cached := false, frame := 0, size := 0 }
  else d

/-- Drops a page for a fault: during a beat at the beat's end, before the replay (10 R257, 14 R340). -/
def Dev.dropSoon (d : Dev) (p : Pte) : Dev :=
  if d.serve.between then d.dropPage p
  else { d with serve := { d.serve with dropLater := d.serve.dropLater ++ [(p.owner, p.layer, p.block)] } }

/-- The drops that waited for the end of the beat. -/
def Dev.dropsDue (d : Dev) : Dev :=
  let d1 := d.serve.dropLater.foldl (fun (d : Dev) k =>
    match d.serve.ptes.find? fun p => p.owner == k.1 && p.layer == k.2.1 && p.block == k.2.2 with
    | some p => d.dropPage p
    | none => d) d
  { d1 with serve := { d1.serve with dropLater := [] } }

/-- Drops every page that a predicate picks, whatever its holds (10 R256, R257). -/
def Dev.dropPages (d : Dev) (f : Pte → Bool) : Dev := (d.serve.ptes.filter f).foldl (fun d p => d.dropPage p) d

/-- The pages of an owner become EMPTY and their frames are freed (10 R263). -/
def Dev.freePages (d : Dev) (owner : Nat) : Dev :=
  let d1 := (d.serve.ptes.filter fun p => p.owner == owner).foldl (fun d p => d.releasePage p) d
  { d1 with serve := { d1.serve with ptes := d1.serve.ptes.filter fun p => p.owner != owner } }

/-- Why a page cannot be read by a KV_FETCH (10 R246 step 2): 0 state, 1 weight version, 2 image epoch, 3 format; none where it can. A page that is being recomputed is read by the owner's recompute waves alone: `own` (R243). -/
def Dev.pageCause (d : Dev) (p : Pte) (g : KvGeom) (own : Bool) : Option Nat :=
  if !p.hasFrame || (p.state == 4 && !own) then some 0
  else if p.version ≠ d.rd Reg.activeVersion then some 1
  else if p.epoch ≠ d.rd Reg.imageEpoch then some 2
  else if g.fmt ≠ 0xF ∧ p.fmt ≠ g.fmt then some 3
  else none

/-- The detail of KV_PAGE_MISSING (10 R268). -/
def kvDetail (layer state cause : Nat) : Nat := layer % 1024 + state * 1024 + cause * 8192

/-- A new page of a block: a frame from the pool, ACTIVE (10 R248); none where the pool has none. -/
def Dev.newPage (d : Dev) (owner : Nat) (g : KvGeom) (block state fill : Nat) : Option Dev :=
  (d.findFrame g.granules).map fun f =>
    (d.takeFrame g.granules owner f).setPte
      { owner := owner, layer := g.layer, block := block, state := state, fmt := g.fmt, fill := fill,
        version := d.rd Reg.activeVersion, epoch := d.rd Reg.imageEpoch, frame := f, size := g.granules
        pins := (d.pte owner g.layer block).pins }

/-- Notes the committed length of an owner in a block at the layers that `f` picks (10 R243): ACTIVE becomes FULL at 256. -/
def Dev.fillBlock (d : Dev) (f : Nat → Bool) (owner block n : Nat) : Dev :=
  (d.serve.ptes.filter fun p => p.owner == owner && p.block == block && f p.layer && (p.state == 1 || p.state == 2)).foldl
    (fun d p => if p.fill < n then d.setPte { p with fill := n, state := if n = 256 then 2 else p.state } else d) d

/-- Updates `fill` at the layers that `f` picks for the blocks that positions [lo, hi) reach (10 R243). -/
def Dev.fillTo (d : Dev) (f : Nat → Bool) (owner lo hi : Nat) : Dev :=
  (List.range (ceilDiv hi 256 - lo / 256)).foldl (fun d i =>
    let b := lo / 256 + i
    d.fillBlock f owner b (min 256 (hi - 256 * b))) d

/-- The entry of a page that another entry stands for: a SHARED one stands for the prefix's (10 R256, R264). -/
def Dev.pageOf (d : Dev) (p : Pte) : Nat → Pte
  | 0 => p
  | fuel + 1 => if p.state = 5 then d.pageOf (d.pte (65536 + p.frame) p.layer p.block) fuel else p

/-- The pages of blocks [0, n) of an owner, those of its prefixes among them. -/
def Dev.pagesBelow (d : Dev) (owner n : Nat) : List Pte :=
  (d.serve.ptes.filter fun p => p.owner == owner && p.block < n).map fun p => d.pageOf p (d.serve.prefixes.length + 1)

/-- Changes the holds on the pages of blocks [0, n) of an owner (10 R256). -/
def Dev.pinBlocks (d : Dev) (owner n : Nat) (up : Bool) : Dev :=
  (d.pagesBelow owner n).foldl (fun d p => d.setPte { p with pins := if up then p.pins + 1 else p.pins - 1 }) d

/-- A page of blocks [0, n) of an owner has as many holds as it can (10 R256). -/
def Dev.holdsFull (d : Dev) (owner n : Nat) : Bool := (d.pagesBelow owner n).any fun p => 255 ≤ p.pins

/-- The lowest block of an owner, below `n` blocks, with a page that is DROPPED at some layer, or whose recompute was broken off (10 R259, R260). -/
def Dev.droppedBlock (d : Dev) (owner n : Nat) : Option Nat :=
  match (d.serve.ptes.filter fun p => p.owner == owner && p.block < n && (p.state == 3 || p.state == 4)).map (·.block) with
  | [] => none
  | x :: xs => some (xs.foldl min x)

/-- A layer's page is stale: written under another version, epoch or format (10 R257). -/
def Dev.stalePage (d : Dev) (p : Pte) : Bool :=
  p.hasFrame && (match d.image.kvOf p.layer with
    | some g => (d.pageCause p g true).isSome
    | none => true)

/-- Chunks that a tile's cache holds (10 R249). -/
def Site.cacheCap (x : Site) : Nat := (Config.tableBase - roundUp x.dataTop 4096) / 4096

/-- The working SRAM that holds a chunk of the cache (10 R249). -/
def Site.slotBase (x : Site) (slot : Nat) : Nat := roundUp x.dataTop 4096 + 4096 * slot

/-- The cached copy of a chunk, if the tile holds one (10 R249). -/
def Site.cachedChunk (x : Site) (frame chunk : Nat) : Option CacheLine := x.cache.find? fun c => c.frame == frame && c.chunk == chunk

/-- A chunk that the cache holds is the one used last (10 R250). -/
def Site.touchChunk (x : Site) (c : CacheLine) : Site := { x with cache := c :: x.cache.filter (· != c) }

/-- Installs a chunk that was read in full: in the place of an older copy of it, in the lowest free one, or in that of the chunk used least recently (10 R250). -/
def Site.installChunk (x : Site) (frame chunk : Nat) (bs : List Byte) : Site :=
  if x.cacheCap = 0 then x
  else
    let free := (List.range x.cacheCap).find? fun k => !(x.cache.any fun c => c.slot == k)
    let slot := match x.cachedChunk frame chunk with
      | some c => c.slot
      | none => free.getD ((x.cache.getLast?.map (·.slot)).getD 0)
    { x with cache := { frame := frame, chunk := chunk, slot := slot } :: x.cache.filter fun c => c.slot != slot
             sram := memWrite x.sram (x.slotBase slot) bs }

end Sys2Proof.Machine
end

