-- ==== Sys2Proof/Machine/Reset.lean ====
section
/-! DEFINITION. Resets and Preserve: what each reset returns to its reset value, what flash keeps, and the Preserve set (17 R399-R401, 19 R422, R423). -/
namespace Sys2Proof.Machine

/-- The threshold that a ride-through would have now, in 100 µs: the smaller of `RIDE_THRESH` and (E − 100 J) / P; 0 where the HUM cannot deliver (17 R398, 23 R488). -/
def Dev.rideNow (d : Dev) : Nat :=
  let e := d.pwr.energyJ
  let p := d.rd Reg.inputW
  if d.pwr.hum.isNone || d.pwr.humAlarm || e < 70 then 0
  else if p = 0 then (if 100 < e then d.rd Reg.rideThresh else 0)
  else min (d.rd Reg.rideThresh) ((e - 100) * 10000 / p)

/-- Brings `RIDE_EFFECTIVE` and `RIDE_OK` up to date; during a ride-through the threshold stands as it was fixed (17 R398). -/
def Dev.updateRide (d : Dev) : Dev :=
  let t := match d.pwr.ride with
    | some r => r.1
    | none => d.rideNow
  (d.wr Reg.rideEffective t).wr Reg.rideOk (b2n (decide (50 ≤ t)))

/-- The serving state as the journal and the Preserve set hold it (17 R399, R400). -/
def Dev.servingState (d : Dev) : Kept :=
  { model := d.img.model, streams := d.serve.streams, prefixes := d.serve.prefixes, tenants := d.serve.tenants,
    epochs := d.img.epochs, nextEpoch := d.img.nextEpoch, faults := d.mem.faultLog }

/-- Registers that a device reset leaves: those of the always-on domain (13 R331, R334) and the feed, bus and hold-up readings, which the power plate makes anew (DEDUCED, log entry 13). -/
def keptByDeviceReset (key : Nat) : Bool :=
  let off := key / 64
  off == 0x10020 || off == 0x10030 || inRange off 0x10040 48 || off == 0x200000 || off == 0x200008 ||
    off == 0x200010 || off == 0x200020 || off == 0x200028 || (off == 0x1000 && key % 64 == 32) || off == 8

/-- Fields recorded as retired in the repair map: two consecutive bring-ups in which they tripped or failed (17 R393). -/
def Wafer.retiredFields (w : Wafer) : List Nat := (w.bringupTrips.filter fun p => 2 ≤ p.2).map (·.1)

/-- The device as a bring-up finds it: what flash and the outside world keep, everything else at reset (19 R422, R423). -/
def Dev.afterReset (d : Dev) : Dev :=
  { Dev.reset with
    freeCtr := d.freeCtr
    io := { Dev.reset.io with perst := d.io.perst, outbox := d.io.outbox }
    mem := { Dev.reset.mem with hostMem := d.mem.hostMem, faultLog := (d.pwr.sealed.getD d.pwr.journal).faults }
    wafer := { Dev.reset.wafer with bypass := d.wafer.bypass, bringupTrips := d.wafer.bringupTrips,
                                    quarantined := d.wafer.quarantined, rebuilding := d.wafer.rebuilding,
                                    spareCols := d.wafer.spareCols, lostFields := d.wafer.retiredFields }
    pwr := { Dev.reset.pwr with feeds := d.pwr.feeds, feedOpen := d.pwr.feedOpen, hum := d.pwr.hum, energyJ := d.pwr.energyJ,
                                journal := d.pwr.journal, sealed := d.pwr.sealed, packages := d.pwr.packages, chain := d.pwr.chain,
                                duties := d.pwr.duties, doubleFault := d.pwr.doubleFault,
                                phaseLost := d.pwr.phaseLost } }

/-- The Preserve set is written and sealed (17 R400 steps 1 to 4). With no flash package left nothing is sealed (20 R447). -/
def Dev.seal (d : Dev) : Dev :=
  if d.rd Reg.stage < 7 ∨ d.pwr.packages = [] then d
  else { d with pwr := { d.pwr with sealed := some d.servingState, unjournaled := 0 } }

/-- The reset of everything but the always-on domain, at bring-up stage B1 (19 R423). -/
def Dev.deviceResetNow (d : Dev) : Dev :=
  let r := d.afterReset
  ({ r with tick := d.tick, regs := d.regs.filter (fun e => keptByDeviceReset e.1),
            io := { r.io with eids := d.io.eids, alertLow := d.io.alertLow },
            meas := { r.meas with part := d.meas.part } }).wr Reg.stage 1

/-- The reset of everything, when a feed rises while the always-on domain is unpowered: stage B0 (19 R423). -/
def Dev.powerOnReset (d : Dev) : Dev := d.afterReset

/-- A device reset: Preserve steps 1 to 4 on feed power, then the reset (19 R423, 17 R400). -/
def Dev.doDeviceReset (d : Dev) : Dev := d.seal.deviceResetNow

/-- Everything is off: the always-on domain too (19 R424 P4). -/
def Dev.powerDown (d : Dev) : Dev :=
  let r := d.afterReset
  { r with pwr := { r.pwr with aonOn := false } }.wr Reg.pstate 4

/-- Disables a queue pair (12 R311). -/
def Dev.disablePair (d : Dev) (q : Nat) : Dev := d.wr (Reg.qEnable q) 0

/-- Disables an event ring: `ACTIVE` is cleared (13 R327). -/
def Dev.disableRing (d : Dev) (r : Nat) : Dev := (d.wr (Reg.ringEnable r) 0).wr (Reg.ringActive r) 0

/-- Queue pairs in use, other than pair 0, from the register file. -/
def Dev.pairsOn (d : Dev) : List Nat :=
  (d.regs.filter fun e => e.1 % 64 = 60 && inRange (e.1 / 64) 0x100040 0xFFFC0 && e.1 / 64 % 64 = 0).map
    fun e => (e.1 / 64 - 0x100000) / 64

/-- Event rings enabled, from the register file. -/
def Dev.ringsOn (d : Dev) : List Nat :=
  (d.regs.filter fun e => e.1 % 64 = 54 && inRange (e.1 / 64) 0x20000 0x20000 && e.1 / 64 % 32 = 0).map
    fun e => (e.1 / 64 - 0x20000) / 32

/-- An address in the host window (01 R30). -/
def inHostWin (a : Nat) : Bool := inRange a 0x800000000000 0x800000000000

/-- A PCIe reset: controller, configuration space and MSI-X table; pairs of path 0 and rings in host memory are disabled (19 R423). -/
def Dev.pcieResetNow (d : Dev) : Dev :=
  let d1 := { d with regs := d.regs.filter fun e => !(inRange (e.1 / 64) 0x18000 0x8000 || inRange (e.1 / 64) 0x11000 0x100),
                     io := { d.io with pcieUp := false } }
  let d2 := d1.pairsOn.foldl (fun d q => if d.rd (Reg.qPath q) = 0 then d.disablePair q else d) d1
  d2.ringsOn.foldl (fun d r => if inHostWin (d.rd (Reg.ringBase r)) then d.disableRing r else d) d2

end Sys2Proof.Machine
end

