-- ==== Sys2Proof/Machine/RegWrite.lean ====
section
/-! DEFINITION. Writes of registers: the access types and sizes (00 R6, R7, 22 R470-R472) and the fields whose write has a condition or an effect of its own. -/
namespace Sys2Proof.Machine

/-- A write of bytes [b0, b1) of a register word; `v` holds the value in its place. Part of a word that is not a whole word or an aligned half writes nothing (22 R470). -/
structure WordWrite where
  off : Nat
  b0 : Nat
  b1 : Nat
  v : Nat
  /-- the rim core that writes, if one does (13 R330) -/
  core : Option Nat := none
  deriving DecidableEq, Repr

/-- The write covers a field whole (22 R470). -/
def WordWrite.covers (w : WordWrite) (f : Fld) : Bool :=
  f.off == w.off && 8 * w.b0 ≤ f.lo && f.lo + f.width ≤ 8 * w.b1

/-- The value the write gives a field. -/
def WordWrite.value (w : WordWrite) (f : Fld) : Nat := bitsOf w.v f.lo f.width

/-- A whole word or an aligned half (22 R470). -/
def WordWrite.aligned (w : WordWrite) : Bool :=
  (w.b0 == 0 && w.b1 == 8) || (w.b0 == 0 && w.b1 == 4) || (w.b0 == 4 && w.b1 == 8)

/-- Stores the RW fields among `fs` that the write covers. -/
def Dev.storeRw (d : Dev) (w : WordWrite) (fs : List Fld) : Dev :=
  fs.foldl (fun d f => if f.acc = .rw ∧ w.covers f then d.wr f (w.value f) else d) d

/-- Clears the bits written 1 of the W1C fields among `fs` that the write covers; sets those of W1S fields (00 R6). -/
def Dev.storeW1 (d : Dev) (w : WordWrite) (fs : List Fld) : Dev :=
  fs.foldl (fun d f =>
    if !w.covers f then d
    else if f.acc = .w1c then d.wr f (d.rd f &&& (2 ^ f.width - 1 - w.value f))
    else if f.acc = .w1s then d.wr f (d.rd f ||| w.value f)
    else d) d

/-- The plain effect of a write: RW stores, W1C clears, W1S sets; RO, RC and reserved bits ignore it (00 R6, R7). -/
def Dev.storePlain (d : Dev) (w : WordWrite) : Dev :=
  let fs := Reg.wordFields w.off
  (d.storeRw w fs).storeW1 w fs

/-- A write to the entry of queue pair `q` (12 R304): while `ENABLE` is 1 only `ENABLE` and the W1C bits take it; a write that would set `ENABLE` is checked against the entry as it then stands. Pair 0 takes W1C bits only (12 R303). -/
def Dev.storeQueue (d : Dev) (q : Nat) (w : WordWrite) : Dev :=
  let fs := Reg.queueFields q
  let d1 := d.storeW1 w fs
  let d1 := if bitOf (d.rd (Reg.errBase q)) 0 && !bitOf (d1.rd (Reg.errBase q)) 0 then d1.pumpCq q else d1
  if q = 0 then d1
  else
    let en := Reg.qEnable q
    if d.qpOn q then
      (if w.covers en ∧ w.value en = 0 then d1.disablePair q else d1)
    else
      let d2 := d1.storeRw w (fs.filter fun f => f != en)
      if w.covers en ∧ w.value en = 1 ∧ d2.ringsValid q then d2.enablePair q else d2

/-- Puts an event ring in use: `HEAD`, `TAIL` and `LOST` start at 0, the phase at 1 (13 R323). -/
def Dev.enableRing (d : Dev) (r : Nat) : Dev :=
  let d1 := (((d.wr (Reg.ringEnable r) 1).wr (Reg.ringHead r) 0).wr (Reg.ringTail r) 0).wr (Reg.ringLost r) 0
  { d1 with io := { d1.io with ringPass := AMap.set 0 d1.io.ringPass r 0, ringLost := AMap.set 0 d1.io.ringLost r 0 } }

/-- A write to `HEAD` moves it over unread records only (13 R323). -/
def Dev.moveHead (d : Dev) (r v : Nat) : Dev :=
  let n := d.ringEntries r
  let h := d.rd (Reg.ringHead r)
  if n ≤ v ∨ (d.rd (Reg.ringTail r) + n - h % n) % n < (v + n - h % n) % n then d else d.wr (Reg.ringHead r) v

/-- A write to the registers of event ring `r` (13 R323, R334). -/
def Dev.storeRing (d : Dev) (r : Nat) (w : WordWrite) : Dev :=
  let d1 := d.storeW1 w (Reg.ringFields r)
  let en := Reg.ringEnable r
  let hd := Reg.ringHead r
  let d2 := if w.covers hd then d1.moveHead r (w.value hd) else d1
  if d.bit en then
    (if w.covers en ∧ w.value en = 0 then d2.disableRing r else d2)
  else
    let d3 := d2.storeRw w [Reg.ringBase r, Reg.ringSize r, Reg.ringTarget r, Reg.ringVector r]
    if w.covers en ∧ w.value en = 1 ∧ 3 ≤ d3.rd (Reg.ringSize r) ∧ d3.rd (Reg.ringTarget r) ≠ 3 ∧
        d3.rd (Reg.ringBase r) % 32 = 0 then d3.enableRing r else d3

/-- Completes the interrupt of a ring (13 R326). -/
def Dev.eoi (d : Dev) (r : Nat) : Dev :=
  if !d.bit (Reg.ringActive r) then d.bump Reg.evtSpuriousEoi
  else
    let d1 := d.wr (Reg.ringActive r) 0
    if d1.rd (Reg.ringHead r) ≠ d1.rd (Reg.ringTail r) then d1.activate r else d1

/-- Completes a line of a rim core's bank: lines 0 to 47 act as `EVT_EOI` of their ring; a line that is not active counts as spurious (13 R326, R334). -/
def Dev.bankEoi (d : Dev) (k line : Nat) : Dev :=
  let hits := d.ringsOn.filter fun r => d.bit (Reg.ringActive r) && d.rd (Reg.ringTarget r) == 2 &&
    d.coreOf (d.rd (Reg.ringVector r) % 16) == k && d.rd (Reg.ringVector r) / 16 == line && line < 48
  if hits.isEmpty then d.bump Reg.evtSpuriousEoi else hits.foldl (fun d r => d.eoi r) d

/-- Raises a software source (13 R322, R334); any other source is ignored. -/
def Dev.evtRaise (d : Dev) (source detail : Nat) : Dev :=
  if inRange source 128 384 then
    d.raise { code := Rc.evtSoftware, detail := detail, source := source }
  else d

/-- Clears latch bits: a cleared latch forgets its count and its first edge (13 R331, DEDUCED, log entry 14). -/
def Dev.clearLatch (d : Dev) (bits : Nat) : Dev :=
  forN 6 d fun i d =>
    if bitOf bits i then
      let v := d.rd Reg.aonLatch
      let c := d.rd Reg.aonCount
      let d1 := d.wr Reg.aonLatch (v - b2n (bitOf v i) * 2 ^ i)
      (d1.wr Reg.aonCount (c - bitsOf c (8 * i) 8 * 256 ^ i)).wr (Reg.aonTick i) 0
    else d

/-- Sends the messages of vectors that are pending and no longer masked (13 R327). -/
def Dev.unmask (d : Dev) (v : Nat) : Dev :=
  let w := d.rd (Reg.msixPba (v / 64))
  if bitOf w (v % 64) ∧ !d.bit (Reg.msixMask v) then
    (d.wr (Reg.msixPba (v / 64)) (w - 2 ^ (v % 64))).emit (.msix v)
  else d

/-- A weight package is staged or arriving, or an image, a stream, a prefix or a KV frame exists: `MIRROR_GIB` ignores writes (14 R348). -/
def Dev.mirrorBusy (d : Dev) : Bool :=
  d.rd Reg.imageState != 0 || d.img.loaded.isSome || !d.serve.streams.isEmpty || !d.serve.prefixes.isEmpty ||
    d.wts.staged.isSome || d.wts.arriving.isSome || !d.mem.frames.isEmpty

/-- Lists an allocation, keeping the list in rising base. -/
def insertAlloc (x : Alloc) : List Alloc → List Alloc
  | [] => [x]
  | y :: ys => if x.base < y.base then x :: y :: ys else y :: insertAlloc x ys

/-- The lowest free range of `n` bytes at or above `lo`, 4 KiB aligned, below `hi`, among allocations in rising base (14 R344). -/
def lowestFree (n lo hi : Nat) : List Alloc → Option Nat
  | [] => if lo + n ≤ hi then some lo else none
  | y :: ys =>
    if y.base + y.size ≤ lo then lowestFree n lo hi ys
    else if lo + n ≤ y.base then (if lo + n ≤ hi then some lo else none)
    else lowestFree n (max lo (roundUp (y.base + y.size) 4096)) hi ys

/-- Moves the device structures that lie above the old shadow to the lowest free ranges above the new one, and updates `TELEM_BASE` (14 R348). The shadow is a view of the mirrored range, so its copies need no move. -/
def Dev.setMirror (d : Dev) (g : Nat) : Dev :=
  let old := d.mirrorBytes
  let d1 := d.wr Reg.mirrorGib g
  let lo := 2 * d1.mirrorBytes
  let moved := d1.mem.allocs.filter fun x => 2 * old ≤ x.base
  let kept := d1.mem.allocs.filter fun x => x.base < 2 * old
  let placed := moved.foldl (fun acc x =>
    match lowestFree x.size lo Config.yieldBase acc with
    | some b => insertAlloc { x with base := b } acc
    | none => insertAlloc x acc) kept
  let d2 := { d1 with mem := { d1.mem with allocs := placed } }
  match placed.find? fun x => x.kind == 6 && x.owner == 0 with
  | some x => if d.rd Reg.telemBase = 0 then d2 else d2.wr Reg.telemBase x.base
  | none => d2

/-- A write to the word of `MIRROR_GIB` and `ECC_MODE` (14 R348). -/
def Dev.storeHbmCtrl (d : Dev) (w : WordWrite) : Dev :=
  let d1 := if w.covers Reg.eccMode then d.wr Reg.eccMode (w.value Reg.eccMode) else d
  let g := w.value Reg.mirrorGib
  if w.covers Reg.mirrorGib ∧ !d.mirrorBusy ∧ 1 ≤ g ∧ g ≤ 64 ∧ g % 3 ≠ 0 then d1.setMirror g else d1

/-- A ring of an enabled queue pair or event ring lies in the host window (22 R477). -/
def Dev.hostRings (d : Dev) : Bool :=
  (d.pairsOn.any fun q => inHostWin (d.rd (Reg.sqBase q)) || inHostWin (d.rd (Reg.cqBase q))) ||
    (d.ringsOn.any fun r => inHostWin (d.rd (Reg.ringBase r)))

/-- A write of `HOST_WIN_BASE` (22 R477). -/
def Dev.storeHostWin (d : Dev) (w : WordWrite) : Dev :=
  if w.covers Reg.hostWinBase ∧ !d.hostRings then d.wr Reg.hostWinBase (w.value Reg.hostWinBase) else d

/-- A write of `BAR4_BASE_GIB`: a base that carries the aperture past the end of DRAM is refused (01 R36, 14 R346). -/
def Dev.storeBar4 (d : Dev) (w : WordWrite) : Dev :=
  if w.covers Reg.bar4BaseGib ∧ (w.value Reg.bar4BaseGib + 64) * gib ≤ d.dramTop then
    d.wr Reg.bar4BaseGib (w.value Reg.bar4BaseGib)
  else d

/-- A write of `FREQ_STEP`: outside 16 to 64 it is ignored; else it waits for the next boundary, in place of an earlier one (18 R408). -/
def Dev.storeFreq (d : Dev) (w : WordWrite) : Dev :=
  let v := w.value Reg.freqStep
  if w.covers Reg.freqStep ∧ 16 ≤ v ∧ v ≤ 64 then (d.wr Reg.freqStep v).wr Reg.freqPending 1 else d

/-- A write of `RIDE_THRESH` outside 50 to 300 is ignored (17 R403). -/
def Dev.storeRide (d : Dev) (w : WordWrite) : Dev :=
  let v := w.value Reg.rideThresh
  if w.covers Reg.rideThresh ∧ 50 ≤ v ∧ v ≤ 300 then (d.wr Reg.rideThresh v).updateRide else d

/-- A write of `VMIN_TARGET` outside 650 to 850 is ignored (17 R403). -/
def Dev.storeVmin (d : Dev) (n : Nat) (w : WordWrite) : Dev :=
  let v := w.value (Reg.vminTarget n)
  if w.covers (Reg.vminTarget n) ∧ 650 ≤ v ∧ v ≤ 850 then d.wr (Reg.vminTarget n) v else d

/-- A write of `BEAT_WATCHDOG` outside 2^16 to 2^24 is ignored; within, it takes effect at the next boundary (22 R480). -/
def Dev.storeWatchdog (d : Dev) (w : WordWrite) : Dev :=
  let v := w.value Reg.beatWatchdog
  if w.covers Reg.beatWatchdog ∧ 2 ^ 16 ≤ v ∧ v ≤ 2 ^ 24 then
    d.wr Reg.beatWatchdog v
  else d

/-- A write of the fabric configuration word: all but `MIGRATE_PAGES` ignore it while the device is a member, the segment fields also while an image is active (15 R372). -/
def Dev.storeFabCfg (d : Dev) (w : WordWrite) : Dev :=
  let d1 := d.storeRw w [Reg.migratePages]
  if d.rd Reg.memberState = 2 then d1
  else
    let d2 := d1.storeRw w [Reg.timeSrc]
    if d.imgActive then d2 else d2.storeRw w [Reg.segPrev, Reg.segNext, Reg.segment]

/-- A write of `PLANE_PREFIX`, ignored while the device is a member (15 R372). -/
def Dev.storePlane (d : Dev) (p : Nat) (w : WordWrite) : Dev :=
  let d1 := d.storeW1 w (Reg.portFields p)
  if d.rd Reg.memberState = 2 then d1 else d1.storeRw w [Reg.planePrefix p]

/-- A write of `DEVICE_RESET` with its key (19 R423). -/
def Dev.storeReset (d : Dev) (w : WordWrite) : Dev :=
  if w.covers Reg.deviceReset ∧ w.value Reg.deviceReset = 1 ∧ w.covers Reg.resetKey ∧ w.value Reg.resetKey = 0xA5 then
    d.doDeviceReset
  else d

/-- The effect of a write on the word it names (22 R473). -/
def Dev.storeWord (d : Dev) (w : WordWrite) : Dev :=
  if w.off = 0x1010 then d.storeReset w
  else match Reg.entryAt w.off 0x100000 64 16384 with
  | some q => d.storeQueue q w
  | none => match Reg.entryAt w.off 0x20000 32 4096 with
  | some r => d.storeRing r w
  | none => match Reg.entryAt w.off 0x14000 256 16 with
  | some k =>
    if w.core = some k then
      (if w.covers (Reg.bankEoi k) then d.bankEoi k (w.value (Reg.bankEoi k)) else d.storePlain w)
    else d
  | none => match Reg.entryAt w.off 0x18000 16 2048 with
  | some v => (d.storePlain w).unmask v
  | none => match Reg.entryAt w.off 0x400100 16 16 with
  | some p => d.storePlane p w
  | none => match Reg.entryAt w.off 0x200108 16 36 with
  | some n => if w.off % 16 = 8 then d.storeVmin n w else d.storePlain w
  | none =>
    if w.off = 0x10008 then (if w.covers Reg.evtEoi then d.eoi (w.value Reg.evtEoi) else d)
    else if w.off = 0x10018 then
      (if w.covers Reg.raiseSource && w.covers Reg.raiseDetail then
        d.evtRaise (w.value Reg.raiseSource) (w.value Reg.raiseDetail) else d)
    else if w.off = 0x10020 then (if w.covers Reg.aonLatch then d.clearLatch (w.value Reg.aonLatch) else d)
    else if w.off = 0x500008 then d.storeHbmCtrl w
    else if w.off = 0x2000 then d.storeHostWin w
    else if w.off = 0x2008 then d.storeBar4 w
    else if w.off = 0x201000 then d.storeFreq w
    else if w.off = 0x200018 then d.storeRide w
    else if w.off = 0x600108 then d.storeWatchdog w
    else if w.off = 0x400018 then d.storeFabCfg w
    else d.storePlain w

/-- A write of a register word: before stage B7 only the status block takes it (19 R419, 22 R476); a write that is neither a whole word nor an aligned half has no effect (22 R470). -/
def Dev.regWrite (d : Dev) (w : WordWrite) : Dev :=
  if !w.aligned || (d.rd Reg.stage < 7 && 0x2000 ≤ w.off) then d else d.storeWord w

/-- The register write of a bus access (22 R470). -/
def regStore (off b0 b1 v : Nat) (d : Dev) : Dev := d.regWrite { off := off, b0 := b0, b1 := b1, v := v }

/-- Writes bytes at a device address, registers included (01 R34, 22 R470). -/
def Dev.write (d : Dev) (a : Nat) (bs : List Byte) : BusRes := Dev.busWrite regStore d a bs bs.length

end Sys2Proof.Machine
end

