-- ==== Sys2Proof/Machine/Ops.lean ====
section
/-! DEFINITION. The shared operations of commands: ending a command's cycle, what a Rhoic command passes before it starts, its buffers and its reply (12 R297-R315). -/
namespace Sys2Proof.Machine

/-- Ends a command that changes the device only. -/
def State.next (s : State) (d : Dev) : Host.Outcome State Fault Refusal := .next { s with dev := d.closeCycle }

/-- Ends a command that changes the identity too. -/
def State.nextSec (s : State) (sec : Sec) (d : Dev) : Host.Outcome State Fault Refusal :=
  .next { s with sec := sec, dev := d.closeCycle }

/-- A reply in the making (12 R300). -/
structure Reply where
  st : Nat := 0
  detail : Nat := 0
  result : Nat := 0
  result2 : Nat := 0
  /-- bytes that travel inline after the reply on the management path (12 R297) -/
  inl : List Byte := []
  deriving DecidableEq, Repr

/-- What the start of a command comes to. -/
inductive Start where
  /-- it completes now -/
  | done (r : Reply) (d : Dev)
  /-- it must wait before it starts -/
  | wait (d : Dev)
  /-- it has started and completes later -/
  | run (j : Job) (d : Dev)
  /-- it completes with no reply of kind 0 (12 R301) -/
  | quiet (d : Dev)
  deriving DecidableEq, Repr

/-- Parameter bytes off:len of the packet (12 R298, R313). -/
def arg (r : Rhoic) (off len : Nat) : Nat := bitsOf r.pkt.toNat (8 * off) (8 * len)

/-- The tag of a packet. -/
def tagOf (r : Rhoic) : Nat := bitsOf r.pkt.toNat 32 32

/-- The queue pair that a packet names for its reply. -/
def queueField (r : Rhoic) : Nat := bitsOf r.pkt.toNat 16 14

/-- `fence` (12 R298). -/
def fenceOf (r : Rhoic) : Bool := bitOf r.pkt.toNat 8

/-- `quiet` (12 R298). -/
def quietOf (r : Rhoic) : Bool := bitOf r.pkt.toNat 9

/-- The class of a pair; pair 0 is of class management (12 R303). -/
def Dev.classOf (d : Dev) (q : Nat) : Nat := d.rd (Reg.qClass q)

/-- The pair that a command may name (12 R299): the submitting one, or another enabled one of the same class, path and tenant. -/
def Dev.mayName (d : Dev) (r : Rhoic) (q : Nat) : Bool :=
  q == r.qp || (d.qpOn q && d.classOf q == d.classOf r.qp && d.rd (Reg.qPath q) == d.rd (Reg.qPath r.qp) &&
    d.rd (Reg.qTenant q) == d.rd (Reg.qTenant r.qp))

/-- The pair to which a reply goes (12 R299): that fixed when the command was accepted, else the one that it names where it may; none where it may not. -/
def Dev.replyPair (d : Dev) (r : Rhoic) : Option Nat :=
  match r.pair with
  | some q => some q
  | none => if d.mayName r (queueField r) then some (queueField r) else none

/-- A command once it is accepted: the pair of its reply is fixed (12 R299), whatever becomes of that pair meanwhile. -/
def Dev.accept (d : Dev) (r : Rhoic) : Rhoic := { r with pair := d.replyPair r }

/-- Writes the reply of a command (12 R298, R300). On the management bus it leaves in the response with any inline bytes (12 R297). -/
def Dev.reply (d : Dev) (r : Rhoic) (sqHead : Nat) (p : Reply) : Dev :=
  if quietOf r && p.st == St.success then d
  else
    let rec_ := replyRec (tagOf r) p.st p.detail p.result p.result2 sqHead r.qp
    let q := (d.replyPair r).getD r.qp
    if q = 0 then d.answerZero rec_ p.inl else d.postGroup q [rec_]

/-- A status with a detail. -/
def bad (st : Nat) (detail : Nat := 0) : Reply := { st := st, detail := detail }

/-- The commands accepted in P2 and P3 (12 R308). -/
def acceptedAsleep (op : Nat) : Bool :=
  op == 0x01 || op == 0x02 || op == 0x03 || op == 0x04 || op == 0x06 || op == 0x07 || op == 0x80 || op == 0x81 ||
    op == 0x82 || op == 0x72

/-- A row of the opcode table of 12 R313: opcode, the classes that may use it (bit = class), and its parameter bytes. -/
structure Row where
  op : Nat
  classes : Nat
  params : List (Nat × Nat)
  deriving DecidableEq, Repr

/-- The first reserved bit that is set in the header of a packet, as its byte (12 R298). -/
def headerReserved (r : Rhoic) : Option Nat :=
  let n := r.pkt.toNat
  if bitsOf n 10 6 ≠ 0 then some 1 else if bitsOf n 30 2 ≠ 0 then some 3 else none

/-- The first parameter byte that the opcode does not use and that is not 0 (12 R298, R312). -/
def paramReserved (ps : List (Nat × Nat)) (r : Rhoic) : Option Nat :=
  ((List.range 56).map (· + 8)).find? fun o =>
    !(ps.any fun p => p.1 ≤ o && o < p.1 + p.2) && arg r o 1 != 0

/-- The power state by which commands are accepted: from the barrier of a transition on its target (12 R308, 19 R425). -/
def Dev.acceptState (d : Dev) : Nat :=
  match d.pwr.transition with
  | some (t, true) => if 2 ≤ t then t else d.rd Reg.pstate
  | _ => d.rd Reg.pstate

/-- The refusal that a command meets before its own checks (12 R298, R299, R303, R307, R308, R312; 15 R364 for the stream group on a segment other than the head), in the order the log names (DEDUCED, log entry 15). -/
def Dev.refusal (d : Dev) (row : Row) (r : Rhoic) : Option Reply :=
  if d.rd Reg.stage < 7 ∧ row.op ≠ 0x01 ∧ row.op ≠ 0x02 then some (bad St.notReady (d.rd Reg.stage))
  else match headerReserved r with
  | some o => some (bad St.paramReserved o)
  | none =>
    if (d.replyPair r).isNone then some (bad St.notPermitted 1)
    else if !bitOf row.classes (d.classOf r.qp) then some (bad St.notPermitted 0)
    else if 0x20 ≤ row.op ∧ row.op ≤ 0x2A ∧ d.rd Reg.segment ≠ 0 then some (bad St.notPermitted 0)
    else if (d.acceptState = 2 ∨ d.acceptState = 3) ∧ !acceptedAsleep row.op then
      some (bad St.powerState d.acceptState)
    else (paramReserved row.params r).map fun o => bad St.paramReserved o

/-- A command with place `ord` in the order of fetches waits before it starts (12 R308-R310): for the wake from P1, for an earlier command of the pair when it is fenced, for an earlier one that names its object and has not taken effect. -/
def Dev.mustWait (d : Dev) (op ord : Nat) (objs : List Obj) (r : Rhoic) : Bool :=
  let live := (d.io.running ++ d.io.deferred).filter fun j => j.req.qp == r.qp && j.ord < ord
  d.rd Reg.pstate == 1 ||
    (fenceOf r && live.any fun j => !(j.op == 0x23 && j.effective)) ||
    (op != 0x24 && live.any fun j => !j.effective && objs.any fun o => j.objs.contains o)

/-- Starts the wake from P1 when a command is fetched there, whatever becomes of the command (12 R308, 19 R424). -/
def Dev.wakeOnFetch (d : Dev) : Dev :=
  if d.rd Reg.pstate = 1 ∧ !d.bit Reg.pstateBusy then (d.wr Reg.pstateBusy 1).wr Reg.pstateTarget 0 else d

/-- The fetch of a command from its ring: the head moves on where the ring is not empty, the command is counted (12 R300, R304), P1 is left (R308). Answers the head that its reply names and its place in the order of fetches. -/
def Dev.noteFetch (d : Dev) (q : Nat) : (Nat × Nat) × Dev :=
  let h := d.rd (Reg.sqHead q)
  let h1 := if h = d.rd (Reg.sqTail q) then h else (h + 1) % d.sqEntries q
  let d1 := ((d.wr (Reg.sqHead q) h1).bump (Reg.cmdCount q)).wakeOnFetch
  ((h1, d.io.cmdSeq), { d1 with io := { d1.io with cmdSeq := d.io.cmdSeq + 1 } })

/-- A job of a command that has been fetched. -/
def jobOf (op : Nat) (objs : List Obj) (r : Rhoic) (h : Nat × Nat) (j : Job) : Job :=
  { j with op := op, req := r, objs := objs, sqHead := h.1, ord := h.2 }

/-- Puts a command off (12 R309). -/
def Dev.defer (d : Dev) (j : Job) : Dev := { d with io := { d.io with deferred := d.io.deferred ++ [j] } }

/-- What follows a start: the reply, the wait, or the job that runs on (12 R309). -/
def Dev.settle (op : Nat) (objs : List Obj) (r : Rhoic) (h : Nat × Nat) : Start → Dev
  | .done p d => d.reply r h.1 p
  | .wait d => d.defer (jobOf op objs r h { op := op, req := r })
  | .run j d => { d with io := { d.io with running := d.io.running ++ [jobOf op objs r h j] } }
  | .quiet d => d

/-- The fetch of a command, or what is kept of it when it is started again. -/
def Dev.fetched (d : Dev) (r : Rhoic) : (Nat × Nat) × Dev :=
  match r.fetched with
  | some h => (h, d)
  | none => (if r.qp = 0 then d.placeZero r.pkt else d).noteFetch r.qp

/-- A Rhoic command: fetched on a pair that is in use, refused by the common checks, put off, or started by `start` (12 R303-R312). A pair that does not fetch leaves the packet where it is (12 R311). -/
def Dev.rhoic (d : Dev) (row : Row) (objs : List Obj) (r : Rhoic) (start : Dev → Start) : Dev :=
  if !d.mayTake r then d
  else
    let (h, d1) := d.fetched r
    match d1.refusal row r with
    | some p => d1.reply r h.1 p
    | none =>
      let r1 := d1.accept r
      if d1.mustWait row.op h.2 objs r then d1.defer (jobOf row.op objs r1 h { op := row.op, req := r1 })
      else Dev.settle row.op objs r1 h (start d1)

/-- Completes a job that was running (12 R300). -/
def Dev.finishJob (d : Dev) (j : Job) (p : Reply) : Dev :=
  ({ d with io := { d.io with running := d.io.running.erase j } }).reply j.req j.sqHead p

/-- The running jobs of an opcode, oldest first. -/
def Dev.jobs (d : Dev) (op : Nat) : List Job := d.io.running.filter fun j => j.op == op

/-- Changes a running job in its place. -/
def Dev.setJob (d : Dev) (j k : Job) : Dev :=
  { d with io := { d.io with running := d.io.running.map fun x => if x = j then k else x } }

/-- The end of the region of the address map in which an address lies; the address itself where it lies in none (01 R30). -/
def Dev.regionEnd (d : Dev) (a : Nat) : Nat :=
  if a < d.dramTop then d.dramTop
  else if inRange a 0x100000000000 0x4000000000 then 0x104000000000
  else if inRange a 0x104000000000 0x4000000000 then 0x108000000000
  else if inRange a 0x200000000000 0x4000000 then 0x200004000000
  else if inRange a 0x200010000000 0x2000000 then 0x200012000000
  else if inRange a 0x800000000000 0x800000000000 then 0x1000000000000
  else a

/-- A buffer of a tenant-class pair lies within its window (12 R307). -/
def Dev.inWindow (d : Dev) (q a n : Nat) : Bool :=
  d.classOf q != 3 ||
    (d.rd (Reg.bufBase q) ≤ a && a + n ≤ d.rd (Reg.bufBase q) + d.rd (Reg.bufBytes q))

/-- The buffer travels inline: address 0 on the management path (12 R297). -/
def Dev.isInline (d : Dev) (r : Rhoic) (a : Nat) : Bool := a == 0 && d.rd (Reg.qPath r.qp) == 2

/-- Records an UNMAPPED_ACCESS of a queue pair (01 R34). -/
def Dev.unmappedBy (d : Dev) (q : Nat) (write : Bool) (a : Nat) : Dev := d.raise (unmappedOcc write a 12 q)

/-- Memory that a command of pair `q` reads at a device address (01 R34, 10 R244, 12 R307, R312, 14 R340): a status and the bytes. A bad line ends the read with UNCORRECTABLE and its address. -/
def Dev.cmdRead (d : Dev) (q a n : Nat) : Nat × Nat × List Byte × Dev :=
  if !d.inWindow q a n then (St.notPermitted, 2, [], d)
  else if d.regionEnd a < a + n then
    (St.unmappedAddress, 0, [], d.unmappedBy q false (d.regionEnd a))
  else if a < d.dramTop then
    let cls := d.classOf q
    let hostOk := (firstIn (fun x => d.protectedAt x && !d.inTelem x && !d.inStatusArrays x) a n).isNone
    if (2 ≤ cls && (firstIn d.protectedAt a n).isSome && !(cls == 2 && hostOk)) then (St.notPermitted, 2, [], d)
    else match d.badLine a n with
      | some l => (St.uncorrectable, l, d.dramBytes a (l - a), d)
      | none => (St.success, 0, d.dramBytes a n, d.countReads (linesOf a n))
  else
    let res := d.read a n
    match res.unmapped with
    | some u => (res.st, 0, res.bytes, res.dev.unmappedBy q false u)
    | none => (res.st, 0, res.bytes, res.dev)

/-- Memory that a command of pair `q` writes at a device address (01 R34, 10 R244, 12 R307, R312, 14 R341): a status and its detail. -/
def Dev.cmdWrite (d : Dev) (q a : Nat) (bs : List Byte) : Nat × Nat × Dev :=
  let n := bs.length
  if !d.inWindow q a n then (St.notPermitted, 2, d)
  else if d.regionEnd a < a + n then (St.unmappedAddress, 0, d.unmappedBy q true (d.regionEnd a))
  else if a < d.dramTop then
    if (firstIn d.protectedAt a n).isSome then (St.writeProtected, 0, d)
    else if d.partialPoison a n then (St.uncorrectable, 0, d)
    else
      let d1 := d.clearPoisonIn a n
      (St.success, 0, { d1 with mem := { d1.mem with dram := memWrite d1.mem.dram (d1.dramKey a) bs } })
  else
    let res := d.write a bs
    match res.unmapped with
    | some u => (res.st, 0, res.dev.unmappedBy q true u)
    | none => (res.st, 0, res.dev)

/-- The input buffer of a command: inline or at its address (12 R297). -/
def Dev.bufIn (d : Dev) (r : Rhoic) (a n : Nat) : Nat × Nat × List Byte × Dev :=
  if d.isInline r a then (St.success, 0, (r.inl ++ List.replicate n 0).take n, d) else d.cmdRead r.qp a n

/-- An output buffer of `n` bytes that ends beyond its region: the command completes with UNMAPPED_ADDRESS and has no effect (12 R312). -/
def Dev.outBeyond (d : Dev) (r : Rhoic) (a n : Nat) : Option Start :=
  if !d.isInline r a && d.inWindow r.qp a n && d.regionEnd a < a + n then
    some (.done (bad St.unmappedAddress) (d.unmappedBy r.qp true (d.regionEnd a)))
  else none

/-- Ends a command with bytes in its output buffer: inline (up to 4 KiB) or at its address (12 R297); the status of the buffer write where that fails. -/
def Dev.bufOut (d : Dev) (r : Rhoic) (a : Nat) (bs : List Byte) (p : Reply) : Start :=
  if d.isInline r a then .done { p with inl := bs.take 4096 } d
  else
    let (st, det, d1) := d.cmdWrite r.qp a bs
    if st = St.success then .done p d1 else .done (bad st det) d1

end Sys2Proof.Machine
end

