-- ==== Sys2Proof/Machine/StreamOps.lean ====
section
/-! DEFINITION. What the serving rules share about streams: entries, deliveries (11 R292, 12 R300, R301), journal records (15 R368), the end of a generation and of a stream (11 R274, R291), the release of pages, prefixes and structures (10 R263, R267). -/
namespace Sys2Proof.Machine

/-- Sets a stream's entry. -/
def Dev.setStream (d : Dev) (i : Nat) (s : Stream) : Dev :=
  { d with serve := { d.serve with streams := AMap.insert i s d.serve.streams } }

/-- Changes the entry of a stream that is not FREE. -/
def Dev.onStream (d : Dev) (i : Nat) (f : Stream → Stream) : Dev :=
  match d.stream? i with
  | some s => d.setStream i (f s)
  | none => d

/-- Issue is held for a reason. -/
def Dev.held (d : Dev) (why : Nat) : Bool := d.serve.holds.contains why

/-- Holds issue for a reason. -/
def Dev.hold (d : Dev) (why : Nat) : Dev :=
  if d.held why then d else { d with serve := { d.serve with holds := d.serve.holds ++ [why] } }

/-- Releases a hold. -/
def Dev.release (d : Dev) (why : Nat) : Dev :=
  { d with serve := { d.serve with holds := d.serve.holds.filter (· != why) } }

/-- The stream has a wave in flight; a paired draft column belongs to its main wave (11 R272). -/
def Dev.inFlight (d : Dev) (i : Nat) : Bool :=
  (d.serve.waves ++ d.serve.replays).any fun w => w.cols.any fun c => c.stream == i && c.kind != 4

/-- The function of a bit of `MODE_SPLIT` is in host-assisted mode (12 R316). -/
def Dev.hostMode (d : Dev) (f : Nat) : Bool := bitOf (d.rd Reg.modeSplit) f

/-- The seed that the host has registered for a consumer, if any (05 R126). -/
def Dev.hostSeed (d : Dev) (c : Consumer) : Option Word :=
  AMap.find d.img.seeds (c.tile * 131072 + c.rng * 65536 + c.rngStream)

/-- The vocabulary bytes of a token that a delivery carries (11 R278, 12 R316 bit 0). -/
def Dev.textOf (d : Dev) (s : Stream) (tok : Nat) : List Byte :=
  if s.textOut && !d.hostMode 0 then
    match d.image.tok with
    | some t => t.vocab.getD tok []
    | none => []
  else []

/-- Writes the delivery records of a stream, or holds them while its newest journal record is not acknowledged (15 R368). -/
def Dev.queueRecs (d : Dev) (i : Nat) (recs : List Rec) : Dev :=
  match d.stream? i with
  | some s =>
    let s1 := { s with unwritten := s.unwritten ++ [recs] }
    match s.journalQ.getLast? with
    | some j => d.setStream i { s1 with journalQ := s.journalQ.dropLast ++ [(j.1, j.2 ++ [recs])] }
    | none => (d.setStream i s1).postGroup s.queue recs
  | none => d

/-- A delivery record of a stream waits for its ring (12 R311). -/
def Dev.deliveryWaits (d : Dev) (i : Nat) (s : Stream) : Bool :=
  (d.waitingOn s.queue).any fun g => g.any fun r => bitsOf r.toNat 252 3 == 1 && bitsOf r.toNat 32 15 == i

/-- Sends the oldest journal record of a stream to its partner over class 2: entry and tokens added. It waits while a delivery of the record before it is not written (15 R368). -/
def Dev.emitJournal (d : Dev) (i : Nat) : Dev :=
  match d.stream? i with
  | some s => match s.partner, s.journalQ with
    | some p, j :: _ =>
      if d.deliveryWaits i s then d.setStream i { s with journalSent := false } else
      let d1 := d.setStream i { s with journalNum := s.journalNum + 1, journalSent := true }
      d1.sendMsg 2 p (leBytes 1 1 ++ leBytes 2 (d.rd Reg.fabDevice) ++ leBytes 2 i ++ leBytes 8 (s.journalNum + 1) ++
        leBytes 128 (streamBits s) ++ j.1.flatMap fun t => leBytes 4 t) (some s.tenant)
    | _, _ => d
  | none => d

/-- Queues a journal record of a stream that has a partner (15 R368). -/
def Dev.pushJournal (d : Dev) (i : Nat) (toks : List Nat) : Dev :=
  d.onStream i fun s => if s.partner.isNone then s else { s with journalQ := s.journalQ ++ [(toks, [])] }

/-- Sends the newest journal record of a stream where no other waits for its acknowledgement (15 R368). -/
def Dev.kickJournal (d : Dev) (i : Nat) : Dev :=
  match d.stream? i with
  | some s => if s.journalQ.length = 1 then d.emitJournal i else d
  | none => d

/-- Journals a change of a stream that delivers nothing (15 R368). -/
def Dev.sendJournal (d : Dev) (i : Nat) (toks : List Nat) : Dev := (d.pushJournal i toks).kickJournal i

/-- Delivers a committed token: it takes the stream's next sequence number (11 R292). -/
def Dev.deliverToken (d : Dev) (i tok : Nat) (stop fin : Bool) (reason : Nat) : Dev :=
  match d.stream? i with
  | some s =>
    (d.setStream i { s with seq := s.seq + 1 }).queueRecs i
      (deliveryRecs s.genTag i s.seq tok stop fin (if fin then reason else 0) (d.textOf s tok))
  | none => d

/-- The end-only delivery of a generation (12 R301): no number of its own; `text` bytes for a migration (15 R366). -/
def Dev.deliverEnd (d : Dev) (i reason : Nat) (text : Nat := 0) : Dev :=
  match d.stream? i with
  | some s => d.queueRecs i [BitVec.ofNat 256 (pack [(0, 16, s.genTag), (32, 15, i), (48, 64, s.seq),
      (112, 32, 0xFFFFFFFF), (145, 1, 1), (146, 4, reason), (160, 64, text), (252, 3, 1)])]
  | none => d

/-- The running GENERATE of a stream is complete: its completion is a delivery (12 R301). -/
def Dev.dropGenJob (d : Dev) (i : Nat) : Dev :=
  { d with io := { d.io with running := d.io.running.filter fun j => !(j.op == 0x23 && j.objs.contains (.stream i)) } }

/-- Pending CANCEL commands of a stream complete (11 R293). -/
def Dev.finishCancels (d : Dev) (i : Nat) (p : Reply) : Dev :=
  ((d.jobs 0x24).filter fun j => j.objs.contains (.stream i)).foldl (fun d j => d.finishJob j p)
    (d.onStream i fun s => { s with cancelPending := false })

/-- The generation of a stream ends, its final delivery written: IDLE if `persist`, else ENDED (11 R274, R291); a HELD stream stays HELD and becomes IDLE when it is released. -/
def Dev.generationOver (d : Dev) (i reason : Nat) : Dev :=
  (d.dropGenJob i).onStream i fun s =>
    { s with state := if !s.persist then .ended else if s.state = .held then .held else .idle,
             prev := .idle, endReason := if s.persist then s.endReason else reason,
             genRemaining := 0, genWaits := false, drafts := [], roundK := 0 }

/-- Changes a prefix record. -/
def Dev.onPrefix (d : Dev) (p : Nat) (f : Pfx → Pfx) : Dev :=
  match AMap.find d.serve.prefixes p with
  | some x => { d with serve := { d.serve with prefixes := AMap.insert p (f x) d.serve.prefixes } }
  | none => d

/-- Frees a prefix record whose lease is over, that nothing references and nothing holds, and then the one that it shares (10 R267). -/
def Dev.reapFrom (d : Dev) (p : Nat) : Nat → Dev
  | 0 => d
  | fuel + 1 =>
    match AMap.find d.serve.prefixes p with
    | some x =>
      if !x.live && x.refs == 0 && !(d.serve.ptes.any fun e => e.owner == 65536 + p && e.pins != 0) then
        let d1 := d.freePages (65536 + p)
        let d2 := { d1 with serve := { d1.serve with prefixes := AMap.erase p d1.serve.prefixes },
                            mem := { d1.mem with allocs := d1.mem.allocs.filter fun a => a.owner != 65536 + p } }
        match x.parent with
        | some q => (d2.onPrefix q fun y => { y with refs := y.refs - 1 }).reapFrom q fuel
        | none => d2
      else d
    | none => d

/-- Frees a prefix record that is no longer needed. -/
def Dev.reapPrefix (d : Dev) (p : Nat) : Dev := d.reapFrom p (d.serve.prefixes.length + 1)

/-- The recompute of a prefix ends: its hold goes, and the record where nothing needs it any more (10 R266, R267). -/
def Dev.closePfxRec (d : Dev) (p : Nat) : Dev :=
  ((d.pinBlocks (65536 + p) 65536 false).onPrefix p fun x =>
    { x with recomputing := false, version := d.rd Reg.activeVersion, epoch := d.rd Reg.imageEpoch }).reapPrefix p

/-- The recompute of a prefix that nothing references any more is abandoned: its block is DROPPED again (10 R267). -/
def Dev.abandonPfxRec (d : Dev) (p : Nat) : Dev :=
  let d1 := (d.serve.ptes.filter fun e => e.owner == 65536 + p && e.state == 4).foldl (fun d e => d.dropPage e) d
  { d1 with serve := { d1.serve with recPos := AMap.erase (65536 + p) d1.serve.recPos } }.closePfxRec p

/-- A reference to a prefix is given up (10 R263). A recompute of it that no wave runs any more is over with the last one (R267). -/
def Dev.unrefPrefix (d : Dev) (p : Nat) : Dev :=
  let d1 := d.onPrefix p fun x => { x with refs := x.refs - 1 }
  match AMap.find d1.serve.prefixes p with
  | some x => if x.refs = 0 ∧ x.recomputing ∧ !d1.inFlight (65536 + p) then d1.abandonPfxRec p else d1.reapPrefix p
  | none => d1

/-- Gives up a stream's reference to its prefix (10 R263). -/
def Dev.dropReference (d : Dev) (i : Nat) : Dev :=
  match d.stream? i with
  | some s => match s.pfx with
    | some p => (d.setStream i { s with pfx := none }).unrefPrefix p
    | none => d
  | none => d

/-- The pages of a stream that ended become EMPTY; its SHARED entries drop the reference (10 R263). -/
def Dev.freeStreamPages (d : Dev) (i : Nat) : Dev := (d.dropReference i).freePages i

/-- A stream that is open ends with a reason; a running or waiting generation writes its end-only delivery (11 R274, 12 R301). Its pages are freed now if no wave of it is in flight (10 R263). -/
def Dev.endStream (d : Dev) (i reason : Nat) (text : Nat := 0) : Dev :=
  match d.stream? i with
  | some s =>
    if s.state = .ended then d
    else
      let gen := s.state == .generating || s.genWaits || (s.state == .held && s.prev == .generating)
      let d1 := if gen then d.deliverEnd i reason text else d
      let d2 := (d1.dropGenJob i).onStream i fun s =>
        { s with state := .ended, endReason := reason, genRemaining := 0, genWaits := false, drafts := [], roundK := 0 }
      let d3 := d2.finishCancels i (bad St.notActive 3)
      if d3.inFlight i then d3 else d3.freeStreamPages i
  | none => d

/-- The entry of an ended stream becomes FREE and its structures are freed; the CLOSE_STREAM that waits completes with the committed length (11 R274, 12 R313). -/
def Dev.freeStream (d : Dev) (i : Nat) : Dev :=
  match d.stream? i with
  | some s =>
    let d1 := d.freeStreamPages i
    let d2 := { d1 with serve := { d1.serve with streams := AMap.erase i d1.serve.streams },
                        mem := { d1.mem with allocs := d1.mem.allocs.filter fun a =>
                          !(a.owner == i && (a.kind == 0 || a.kind == 1 || a.kind == 2)) } }
    -- records held for a journal acknowledgement are written to the queue, none is discarded (12 R311)
    let d3 := (s.journalQ.flatMap (·.2)).foldl (fun d g => d.postGroup s.queue g) d2
    ((d3.jobs 0x25).filter fun j => j.objs.contains (.stream i)).foldl (fun d j => d.finishJob j { result := s.committed }) d3
  | none => d

/-- Holds every stream that has a wave to issue (11 R274): the image has stopped, or a migration starts. -/
def holdStream (s : Stream) : Stream :=
  if s.state = .idle ∨ s.state = .prefill ∨ s.state = .generating then { s with state := .held, prev := s.state } else s

/-- A held stream takes its state before HELD again (11 R274). -/
def resumeStream (s : Stream) : Stream := if s.state = .held then { s with state := s.prev } else s

/-- Changes every stream. -/
def Dev.mapStreams (d : Dev) (f : Stream → Stream) : Dev :=
  { d with serve := { d.serve with streams := d.serve.streams.map fun e => (e.1, f e.2) } }

/-- Indices of the streams that are not FREE. -/
def Dev.streamIds (d : Dev) : List Nat := d.serve.streams.map (·.1)

/-- A cancel takes effect: the drafts and generated tokens of the wave are discarded, `appended` is cut to `committed` + 1, the generation or prefill ends CANCELLED, the CANCEL completes (11 R293). -/
def Dev.applyCancel (d : Dev) (i : Nat) : Dev :=
  match d.stream? i with
  | some s =>
    let st := if s.state = .held then s.prev else s.state
    let keep := min s.appended (s.committed + 1)
    let d1 := d.setStream i { s with appended := keep, history := s.history.take keep, cancelPending := false }
    let d2 :=
      if st = .generating ∨ s.genWaits then (d1.deliverEnd i 2).generationOver i 2
      else if st = .prefill then d1.onStream i fun s =>
        (if s.state = .held then { s with prev := .idle } else { s with state := .idle })
      else d1
    let d3 := d2.finishCancels i {}
    match d3.stream? i with
    | some t => if t.state = .ended ∧ !d3.inFlight i then d3.freeStreamPages i else d3
    | none => d3
  | none => d

end Sys2Proof.Machine
end

