-- ==== Sys2Proof/Machine/Device.lean ====
section
/-! DEFINITION. The device group of Rhoic commands, READ_DRAM, WRITE_DRAM and FAULT_READ (12 R313, R316, 10 R244, 20 R444). -/
namespace Sys2Proof.Machine

/-- The 4 KiB register block at an offset, no RC field cleared (12 R313, 22 R470, R473). -/
def Dev.block (d : Dev) (off : Nat) : List Byte :=
  (List.range 512).flatMap fun i => leBytes 8 (d.regWord (off + 8 * i))

/-- The row of IDENTIFY (12 R313). -/
def rowIdentify : Row := { op := 0x01, classes := 15, params := [(8, 8)] }

/-- Writes the identity block to `buf`; the result holds the stage and the stepping (12 R313). -/
def startIdentify (r : Rhoic) (d : Dev) : Start :=
  d.bufOut r (arg r 8 8) (d.block 0) { result := d.rd Reg.stage + 256 * d.rd Reg.stepping }

/-- IDENTIFY (12 R313). -/
def execIdentify (r : Rhoic) (s : State) : Host.Outcome State Fault Refusal :=
  s.next (s.dev.rhoic rowIdentify [] r (startIdentify r))

/-- The row of STATUS (12 R313). -/
def rowStatus : Row := { op := 0x02, classes := 7, params := [(8, 8)] }

/-- Writes the status block to `buf`; the result holds stage, power state, DEGRADED_UNPROTECTED and image state (12 R313). -/
def startStatus (r : Rhoic) (d : Dev) : Start :=
  d.bufOut r (arg r 8 8) (d.block 0x1000)
    { result := d.rd Reg.stage + 8 * d.rd Reg.pstate + 64 * d.rd Reg.degradedUnprotected + 128 * d.rd Reg.imageState }

/-- STATUS (12 R313). -/
def execStatus (r : Rhoic) (s : State) : Host.Outcome State Fault Refusal :=
  s.next (s.dev.rhoic rowStatus [] r (startStatus r))

/-- The row of SET_MODE_SPLIT (12 R313). -/
def rowSetModeSplit : Row := { op := 0x03, classes := 5, params := [(8, 1), (9, 1)] }

/-- Consumers of the active image that have no registered seed (12 R316, 05 R126). -/
def Dev.seedsMissing (d : Dev) : Nat :=
  match d.img.active with
  | some im => (im.consumers.filter fun c => (d.hostSeed c).isNone).length
  | none => 0

/-- Bits of `old` outside `mask`, of `value` inside. -/
def mergeBits (old mask value : Nat) : Nat := (old &&& (255 - mask)) ||| (value &&& mask)

/-- No beat runs: another power state than P0, or no image active (19 R424, 22 R480). -/
def Dev.noBeats (d : Dev) : Bool := d.rd Reg.pstate != 0 || !d.imgActive

/-- Completes every waiting SCHEDULE_WAVE when scheduling is in hardware mode (12 R317). -/
def Dev.dropSchedules (d : Dev) : Dev :=
  if d.hostMode 2 then d
  else (d.jobs 0x2A).foldl (fun d j => d.finishJob j (bad St.modeDevice 2)) d

/-- Applies the mode changes that wait, in start order, and completes their commands (12 R316, R319). -/
def Dev.applyModes (d : Dev) : Dev :=
  let m := d.serve.modePending.foldl (fun m p => mergeBits m p.1 p.2) (d.rd Reg.modeSplit)
  let d1 := ({ d with serve := { d.serve with modePending := [] } }.wr Reg.modeSplit m).wr Reg.modePending 0
  let d2 := (d1.jobs 0x03).foldl (fun d j => d.finishJob j { result := m }) d1
  d2.dropSchedules

/-- Sets the modes of `mask`: at the next beat boundary, or at once where no beat runs (12 R308, R316). A change of sampling to host-assisted mode needs every seed (12 R316). -/
def startSetModeSplit (r : Rhoic) (d : Dev) : Start :=
  let mask := arg r 8 1
  let value := arg r 9 1
  let missing := d.seedsMissing
  if bitOf mask 5 && bitOf value 5 && !d.hostMode 5 && missing != 0 then
    .done (bad St.seedMissing (min missing 0xFFFF)) d
  else if d.noBeats then
    let m := mergeBits (d.rd Reg.modeSplit) mask value
    .done { result := m } (d.wr Reg.modeSplit m).dropSchedules
  else
    .run { op := 0x03, req := r }
      ({ d with serve := { d.serve with modePending := d.serve.modePending ++ [(mask, value)] } }.wr Reg.modePending
        (d.rd Reg.modePending ||| mask))

/-- SET_MODE_SPLIT (12 R316). -/
def execSetModeSplit (r : Rhoic) (s : State) : Host.Outcome State Fault Refusal :=
  s.next (s.dev.rhoic rowSetModeSplit [] r (startSetModeSplit r))

/-- The row of CREATE_QUEUE (12 R313). -/
def rowCreateQueue : Row := { op := 0x06, classes := 5, params := [(8, 2), (16, 48)] }

/-- The entry bytes of CREATE_QUEUE set a bit that R304 reserves; its byte in the packet (12 R304, R312). -/
def entryReserved (r : Rhoic) : Option Nat :=
  let n := r.pkt.toNat
  if bitsOf n (128 + 61) 3 ≠ 0 then some 23
  else if bitsOf n (192 + 60) 4 ≠ 0 then some 31
  else if bitsOf n (256 + 26) 6 ≠ 0 then some 35
  else if bitsOf n (256 + 32) 32 ≠ 0 then some 36
  else if bitsOf n (384 + 48) 16 ≠ 0 then some 54
  else if bitsOf n (448 + 48) 16 ≠ 0 then some 62
  else none

/-- Writes the RW fields of a queue pair's entry from the 48 bytes of CREATE_QUEUE (12 R304, R313). -/
def Dev.fillEntry (d : Dev) (q : Nat) (r : Rhoic) : Dev :=
  (Reg.queueFields q).foldl (fun d f =>
    let o := f.off - (0x100000 + 64 * q)
    if f.acc = .rw ∧ o < 48 ∧ f ≠ Reg.qEnable q then d.wr f (bitsOf r.pkt.toNat (128 + 8 * o + f.lo) f.width) else d) d

/-- Writes the entry of a pair and enables it (12 R313). -/
def startCreateQueue (r : Rhoic) (d : Dev) : Start :=
  let q := arg r 8 2
  if q = 0 ∨ Config.queuePairs ≤ q then .done (bad St.paramRange 8) d
  else match entryReserved r with
  | some o => .done (bad St.paramReserved o) d
  | none =>
    if d.qpOn q then .done (bad St.queueInvalid) d
    else
      let d1 := d.fillEntry q r
      if d1.ringsValid q then .done {} (d1.enablePair q) else .done (bad St.queueInvalid) d

/-- CREATE_QUEUE (12 R313). -/
def execCreateQueue (r : Rhoic) (s : State) : Host.Outcome State Fault Refusal :=
  s.next (s.dev.rhoic rowCreateQueue [] r (startCreateQueue r))

/-- The row of DELETE_QUEUE (12 R313). -/
def rowDeleteQueue : Row := { op := 0x07, classes := 5, params := [(8, 2)] }

/-- An open stream delivers to a pair, or the pair has records waiting (12 R313). -/
def Dev.pairInUse (d : Dev) (q : Nat) : Bool :=
  (d.serve.streams.any fun e => e.2.queue == q && e.2.state != .ended) || !(d.waitingOn q).isEmpty

/-- Returns every field of a pair's entry to its reset value (12 R313). -/
def Dev.clearEntry (d : Dev) (q : Nat) : Dev :=
  { d with regs := d.regs.filter fun e => !inRange (e.1 / 64) (0x100000 + 64 * q) 64,
           io := { d.io with qpPass := AMap.set 0 d.io.qpPass q 0, qpSince := AMap.erase q d.io.qpSince } }

/-- Disables a pair and clears its entry (12 R313). -/
def startDeleteQueue (r : Rhoic) (d : Dev) : Start :=
  let q := arg r 8 2
  if q = 0 ∨ Config.queuePairs ≤ q then .done (bad St.paramRange 8) d
  else if d.pairInUse q then .done (bad St.queueInUse) d
  else .done {} (d.clearEntry q)

/-- DELETE_QUEUE (12 R313). -/
def execDeleteQueue (r : Rhoic) (s : State) : Host.Outcome State Fault Refusal :=
  s.next (s.dev.rhoic rowDeleteQueue [] r (startDeleteQueue r))

/-- A packet whose opcode R313 does not list (12 R312). -/
def effOpcodeUnknown (r : Rhoic) (d : Dev) : Dev :=
  if !d.mayTake r then d
  else
    let (h, d1) := d.fetched r
    d1.reply r h.1 (bad St.opcodeUnknown (bitsOf r.pkt.toNat 0 8))

/-- OPCODE_UNKNOWN (12 R312). -/
def execOpcodeUnknown (r : Rhoic) (s : State) : Host.Outcome State Fault Refusal := s.next (effOpcodeUnknown r s.dev)

/-- The row of READ_DRAM (12 R313). -/
def rowReadDram : Row := { op := 0x50, classes := 5, params := [(8, 8), (16, 8), (24, 4)] }

/-- 64 bytes to 16 MiB, a multiple of 64 (12 R313). -/
def dramLength (n : Nat) : Bool := 64 ≤ n && n ≤ 0x1000000 && n % 64 == 0

/-- Copies device memory to `buf` (10 R244, 12 R313). At a bad line it ends UNCORRECTABLE with the line's address, the lines before it written. -/
def startReadDram (r : Rhoic) (d : Dev) : Start :=
  let n := arg r 24 4
  if !dramLength n then .done (bad St.paramRange 24) d
  else
    let (st, x, bs, d1) := d.cmdRead r.qp (arg r 8 8) n
    if st = St.uncorrectable then
      (if bs = [] then .done { st := st, result := x } d1 else d1.bufOut r (arg r 16 8) bs { st := st, result := x })
    else if st ≠ St.success then .done (bad st x) d1
    else d1.bufOut r (arg r 16 8) bs {}

/-- READ_DRAM (12 R313). -/
def execReadDram (r : Rhoic) (s : State) : Host.Outcome State Fault Refusal :=
  s.next (s.dev.rhoic rowReadDram [] r (startReadDram r))

/-- The row of WRITE_DRAM (12 R313). -/
def rowWriteDram : Row := { op := 0x51, classes := 5, params := [(8, 8), (16, 8), (24, 4)] }

/-- Copies `buf` to device memory (10 R244, 12 R313). -/
def startWriteDram (r : Rhoic) (d : Dev) : Start :=
  let n := arg r 24 4
  if !dramLength n then .done (bad St.paramRange 24) d
  else
    let (st, x, bs, d1) := d.bufIn r (arg r 16 8) n
    if st = St.uncorrectable then .done { st := st, result := x } d1
    else if st ≠ St.success then .done (bad st x) d1
    else
      let (st2, x2, d2) := d1.cmdWrite r.qp (arg r 8 8) bs
      if st2 = St.success then .done {} d2 else .done (bad st2 x2) d2

/-- WRITE_DRAM (12 R313). -/
def execWriteDram (r : Rhoic) (s : State) : Host.Outcome State Fault Refusal :=
  s.next (s.dev.rhoic rowWriteDram [] r (startWriteDram r))

/-- The row of FAULT_READ (12 R313). -/
def rowFaultRead : Row := { op := 0x72, classes := 5, params := [(8, 4), (12, 4), (16, 8)] }

/-- The bytes of the fault record with an index; zeroes where the log does not hold it (20 R444). -/
def Dev.faultBytes (d : Dev) (i : Nat) : List Byte :=
  match d.mem.faultLog.find? fun f => f.index == i with
  | some f => leBytes 64 (faultBits f)
  | none => List.replicate 64 0

/-- Writes fault records to `buf`; the result is the newest index (12 R313, 20 R444). -/
def startFaultRead (r : Rhoic) (d : Dev) : Start :=
  d.bufOut r (arg r 16 8) ((List.range (arg r 12 4)).flatMap fun i => d.faultBytes ((arg r 8 4 + i) % 2 ^ 32))
    { result := d.rd Reg.faultNewest }

/-- FAULT_READ (12 R313). -/
def execFaultRead (r : Rhoic) (s : State) : Host.Outcome State Fault Refusal :=
  s.next (s.dev.rhoic rowFaultRead [] r (startFaultRead r))

end Sys2Proof.Machine
end

