-- ==== Sys2Proof/Machine/Sha.lean ====
section
/-! DEFINITION. SHAKE256 of FIPS 202, which the spec names for every hash and seed (00_scope.md, 05 R124, 08 R196). -/
namespace Sys2Proof.Machine.Sha

/-- Rotation offsets of the rho step by lane x + 5y. -/
def rhoOffsets : List Nat :=
  [0, 1, 62, 28, 27, 36, 44, 6, 55, 20, 3, 10, 43, 25, 39, 41, 45, 15, 21, 8, 18, 2, 61, 56, 14]

/-- Round constants of the iota step. -/
def roundConstants : List Word :=
  [0x0000000000000001, 0x0000000000008082, 0x800000000000808A, 0x8000000080008000,
   0x000000000000808B, 0x0000000080000001, 0x8000000080008081, 0x8000000000008009,
   0x000000000000008A, 0x0000000000000088, 0x0000000080008009, 0x000000008000000A] ++
  [0x000000008000808B, 0x800000000000008B, 0x8000000000008089, 0x8000000000008003,
   0x8000000000008002, 0x8000000000000080, 0x000000000000800A, 0x800000008000000A,
   0x8000000080008081, 0x8000000000008080, 0x0000000080000001, 0x8000000080008008]

/-- Lane `i` of a state of 25 lanes. -/
def lane (a : List Word) (i : Nat) : Word := a.getD i 0

/-- The theta step. -/
def theta (a : List Word) : List Word :=
  let c := (List.range 5).map fun x =>
    lane a x ^^^ lane a (x + 5) ^^^ lane a (x + 10) ^^^ lane a (x + 15) ^^^ lane a (x + 20)
  let d := (List.range 5).map fun x => lane c ((x + 4) % 5) ^^^ (lane c ((x + 1) % 5)).rotateLeft 1
  (List.range 25).map fun i => lane a i ^^^ lane d (i % 5)

/-- The rho and pi steps: lane (x, y) moves to (y, 2x + 3y). -/
def rhoPi (a : List Word) : List Word :=
  (List.range 25).map fun j =>
    -- destination (X, Y) = (y, 2x + 3y): y = X, x = (X + 3Y) mod 5
    let bigX := j % 5
    let bigY := j / 5
    let x := (bigX + 3 * bigY) % 5
    let i := x + 5 * bigX
    (lane a i).rotateLeft (rhoOffsets.getD i 0)

/-- The chi step. -/
def chi (b : List Word) : List Word :=
  (List.range 25).map fun i =>
    let y5 := i / 5 * 5
    let x := i % 5
    lane b i ^^^ ((~~~ lane b (y5 + (x + 1) % 5)) &&& lane b (y5 + (x + 2) % 5))

/-- One round. -/
def round (a : List Word) (rc : Word) : List Word :=
  match chi (rhoPi (theta a)) with
  | [] => []
  | l :: ls => (l ^^^ rc) :: ls

/-- Keccak-f[1600]. -/
def keccakF (a : List Word) : List Word := roundConstants.foldl round a

/-- The rate of SHAKE256 in bytes. -/
def rate : Nat := 136

/-- Absorbs one block of 136 bytes. -/
def absorbBlock (a : List Word) (blk : List Byte) : List Word :=
  keccakF ((List.range 25).map fun i =>
    lane a i ^^^ (if i < 17 then BitVec.ofNat 64 (leNat ((blk.drop (8 * i)).take 8)) else 0))

/-- Absorbs `n` blocks. -/
def absorb (a : List Word) : Nat → List Byte → List Word
  | 0, _ => a
  | n + 1, bs => absorb (absorbBlock a (bs.take rate)) n (bs.drop rate)

/-- The padded message: domain bits 1111, then pad10*1. -/
def padded (msg : List Byte) : List Byte :=
  let m := msg.length % rate
  if m = rate - 1 then msg ++ [0x9F]
  else msg ++ (0x1F : Byte) :: (List.replicate (rate - 2 - m) 0 ++ [0x80])

/-- Squeezes `n` blocks. -/
def squeeze (a : List Word) : Nat → List Byte
  | 0 => []
  | n + 1 => ((a.take 17).flatMap fun w => leBytes 8 w.toNat) ++ squeeze (keccakF a) n

/-- SHAKE256 with `n` bytes of output. -/
def shake256 (msg : List Byte) (n : Nat) : List Byte :=
  let p := padded msg
  (squeeze (absorb (List.replicate 25 0) (p.length / rate) p) (ceilDiv n rate)).take n

end Sys2Proof.Machine.Sha
end

