-- ==== Sys2Proof/Machine/Requant.lean ====
section
/-! DEFINITION. Requantisation: the four rounding modes on one column (05 R116-R123), and the layout of their outputs (02 R40, R44, 06 R149). -/
namespace Sys2Proof.Machine

/-- An output element: the integer code, and what happened on the way (05 R128). -/
structure QOut where
  y : Int
  sat : Bool := false
  clamped : Bool := false
  nan : Bool := false
  deriving DecidableEq, Repr

/-- A finite value in units of 2^(q − 32), to nearest with ties to even (05 R117). -/
def fixAt (q : Int) : FV → Int
  | .fin neg m e => rneShift (signedOf neg m) (e - (q - 32))
  | _ => 0

/-- An output held to its range. -/
def saturate (lo hi y : Int) : QOut := { y := clamp lo hi y, sat := decide (y < lo) || decide (hi < y) }

/-- One element under a mode: `u` is the draw of mode 3; `r` the residual that enters, in units of 2^(q − 32) under mode 1 and of 2^(q − 8) under mode 2; answers the residual that leaves (05 R117-R119, R123). -/
def requantElem (mode : Nat) (lo hi q : Int) (u : Nat) (r : Int) (x : FV) : QOut × Int :=
  match x with
  | .nan => ({ y := clamp lo hi 0, nan := true }, 0)
  | .inf neg => ({ y := if neg then lo else hi, sat := true }, 0)
  | .fin _ _ _ =>
    let v0 := fixAt q x
    if mode = 1 then
      let v := v0 + r
      let o := saturate lo hi (rneDiv v (2 ^ 32))
      let left := v - o.y * 2 ^ 32
      let held := clamp (-(2 ^ 31)) (2 ^ 31) left
      ({ o with clamped := held != left }, held)
    else if mode = 2 then
      let v := v0 + r * 2 ^ 24
      let o := saturate lo hi (rneDiv v (2 ^ 32))
      let left := rneDiv (v - o.y * 2 ^ 32) (2 ^ 24)
      let held := clamp (-128) 127 left
      ({ o with clamped := held != left }, held)
    else if mode = 3 then (saturate lo hi ((v0 + u * 2 ^ 16) / 2 ^ 32), 0)
    else (saturate lo hi (rneDiv v0 (2 ^ 32)), 0)

/-- Elements of a column from index `i`, with the residual that mode 1 carries within a group of 32 (05 R118). `q` gives an element's quantum exponent, `u` its draw, `res` its mode-2 residual. -/
def requantList (mode : Nat) (lo hi : Int) (q : Nat → Int) (u : Nat → Nat) (res : Nat → Int) :
    Nat → Int → List FV → List (QOut × Int)
  | _, _, [] => []
  | i, r, x :: xs =>
    let r0 := if mode = 2 then res i else if i % 32 = 0 then 0 else r
    let o := requantElem mode lo hi (q i) (u i) r0 x
    o :: requantList mode lo hi q u res (i + 1) o.2 xs

/-- What a column of REQUANT comes to. -/
structure QCol where
  bytes : List Byte
  outs : List QOut
  /-- residuals that leave, per channel (mode 2) -/
  resid : List Int
  deriving DecidableEq, Repr

/-- The value that every mode forms first, in units of 2^(q − 32); NaN and infinities follow 02 R55 (05 R117). -/
def gridValue (q : Int) : FV → FV
  | .fin neg m e => FV.ofInt (fixAt q (.fin neg m e)) (q - 32)
  | v => v

/-- Conversion of an element, once on its grid, to a format that is not an integer (05 R117, 02 R55). -/
def convElem (fmt : Nat) (q : Int) (x : FV) : Conv := encodeFmt fmt (gridValue q x)

/-- The scales of the S4 blocks of a column (02 R56). -/
def s4Scales (xs : List FV) : List Int :=
  (List.range (ceilDiv xs.length 32)).map fun b => blockScale ((xs.drop (32 * b)).take 32)

/-- REQUANT of one column (05 R116-R123, 02 R55-R57). -/
def requantCol (mode fmt : Nat) (q : Int) (u : Nat → Nat) (res : Nat → Int) (xs : List FV) : QCol :=
  if fmt = Fmt.s4 then
    let sc := s4Scales xs
    let os := requantList mode (-8) 7 (fun i => sc.getD (i / 32) 0) u res 0 0 xs
    { bytes := padTo (roundUp xs.length 32 / 2) (packCodes 4 (os.map fun o => unsigned 4 o.1.y)) ++
               sc.map fun e => BitVec.ofNat 8 (unsigned 8 e)
      outs := os.map (·.1), resid := [] }
  else
    match intRange fmt with
    | some (lo, hi) =>
      let os := requantList mode lo hi (fun _ => q) u res 0 0 xs
      { bytes := packCodes (fmtBits fmt) (os.map fun o => unsigned (fmtBits fmt) o.1.y)
        outs := os.map (·.1), resid := os.map (·.2) }
    | none =>
      let cs := xs.map (convElem fmt q)
      { bytes := packCodes (fmtBits fmt) (cs.map (·.code))
        outs := cs.map fun c => { y := 0, sat := c.sat, nan := c.nan }, resid := [] }

/-- The targets that a mode permits (05 R116). -/
def modeAllows (mode fmt : Nat) : Bool :=
  if mode = 0 then 2 ≤ fmt && fmt ≤ 14
  else if mode = 2 then fmt == Fmt.i2 || fmt == Fmt.i4 || fmt == Fmt.i8 || fmt == Fmt.u8
  else fmt == Fmt.i2 || fmt == Fmt.i4 || fmt == Fmt.i8 || fmt == Fmt.u8 || fmt == Fmt.s4

/-- The 16-bit draw of element j at a position (05 R123). -/
def stochastic (seed pos j : Nat) : Nat := bitsOf (genOutput seed (pos * 2 ^ 20 + j / 4)) (16 * (j % 4)) 16

/-- The seed of a generator consumer from the image seed (05 R124). -/
def consumerSeed (seed : List Byte) (tile rng rngStream : Nat) : Nat :=
  leNat (Sha.shake256 (seed ++ leBytes 2 tile ++ leBytes 1 rng ++ leBytes 2 rngStream) 8)

end Sys2Proof.Machine
end

