-- ==== Sys2Proof/Machine/Image.lean ====
section
/-! DEFINITION. A Granath image as bytes: header, directory and sections (08 R195-R200, 07 R175, 04 R107, 09 R217, R218, 11 R277), and what the loader requires of their form (08 R195-R197). -/
namespace Sys2Proof.Machine

/-- `n` bytes of an image from an offset, as a number. -/
def numAt (b : List Byte) (off n : Nat) : Nat := leNat ((b.drop off).take n)

/-- `n` bytes from an offset. -/
def cut (b : List Byte) (off n : Nat) : List Byte := (b.drop off).take n

/-- Why a load is refused, and where (08 R207). -/
structure LoadRef where
  code : Nat
  tile : Nat := 0xFFFF
  idx : Nat := 0
  sect : Nat := 0
  fault : Nat := 0
  /-- the detail of a KV_GEOMETRY record (10 R268) -/
  detail : Nat := 0
  deriving DecidableEq, Repr

/-- The result field of a refused load (08 R207). -/
def LoadRef.result (r : LoadRef) : Nat := pack [(0, 16, r.tile), (16, 16, r.idx), (32, 16, r.sect), (48, 16, r.fault)]

/-- One refusal comes before another: lowest code, then tile, then index (08 R207). -/
def LoadRef.before (a b : LoadRef) : Bool :=
  if a.code ≠ b.code then a.code < b.code else if a.tile ≠ b.tile then a.tile < b.tile else a.idx < b.idx

/-- The refusal that a step reports (08 R207). -/
def firstRef : List LoadRef → Option LoadRef
  | [] => none
  | r :: rs => some (rs.foldl (fun a b => if b.before a then b else a) r)

/-- A condition as a refusal. -/
def refIf (c : Bool) (r : LoadRef) : List LoadRef := if c then [r] else []

/-- A directory entry (08 R196). -/
structure DirEnt where
  type : Nat
  count : Nat
  offset : Nat
  length : Nat
  hash : List Byte
  reserved : Bool
  deriving DecidableEq, Repr

/-- The directory of an image (08 R196). -/
def dirOf (b : List Byte) : List DirEnt :=
  (List.range (numAt b 6 2)).map fun i =>
    let o := 128 + 96 * i
    { type := numAt b o 2, count := numAt b (o + 4) 4, offset := numAt b (o + 8) 8, length := numAt b (o + 16) 8,
      hash := cut b (o + 24) 64, reserved := numAt b (o + 2) 2 != 0 || numAt b (o + 88) 8 != 0 }

/-- A section's entry. -/
def entOf (dir : List DirEnt) (type : Nat) : Option DirEnt := dir.find? fun e => e.type == type

/-- A section's bytes; none where it is left out. -/
def sectBytes (b : List Byte) (dir : List DirEnt) (type : Nat) : List Byte :=
  match entOf dir type with
  | some e => cut b e.offset e.length
  | none => []

/-- A section's count. -/
def countOf (dir : List DirEnt) (type : Nat) : Nat := ((entOf dir type).map (·.count)).getD 0

/-- The start of each program in the programs section: a running sum of padded lengths (08 R197). -/
def progStarts (lens : List Nat) : List Nat := (lens.foldl (fun (acc : List Nat × Nat) n =>
  (acc.1 ++ [acc.2], acc.2 + roundUp n 64)) ([], 0)).1

/-- The tile records with their programs (08 R199, R197). -/
def tilesOf (b : List Byte) (dir : List DirEnt) : List TileRec :=
  let s := sectBytes b dir 1
  let p := sectBytes b dir 2
  let raw := (List.range (countOf dir 1)).map fun i => numAt s (32 * i) 32
  let starts := progStarts (raw.map fun n => bitsOf n 64 19)
  (raw.zip starts).map fun e =>
    let n := e.1
    { tile := bitsOf n 0 16, role := bitsOf n 16 2, progBase := bitsOf n 32 19, progBytes := bitsOf n 64 19,
      dataTop := bitsOf n 96 19, wOffset := bitsOf n 128 64, wBytes := bitsOf n 192 22,
      prog := cut p e.2 (bitsOf n 64 19) }

/-- The channel table (07 R175). -/
def chansOf (b : List Byte) (dir : List DirEnt) : List ChanRec :=
  let s := sectBytes b dir 3
  let hops := sectBytes b dir 4
  (List.range (countOf dir 3)).map fun i =>
    let n := numAt s (32 * i) 32
    { src := bitsOf n 0 16, dst := bitsOf n 16 16, kind := bitsOf n 32 2, route := bitsOf n 34 2,
      bufferFlits := bitsOf n 36 6, rimTile := bitsOf n 48 16, stakeMask := bitsOf n 64 64, treeId := bitsOf n 128 16,
      node := bitsOf n 144 16, hopsOffset := bitsOf n 160 32, hopCount := bitsOf n 192 16,
      hops := (cut hops (bitsOf n 160 32) (bitsOf n 192 16)).map (·.toNat) }

/-- The nodes of a tree (04 R107). -/
def nodesOf (s : List Byte) (off n : Nat) : List NodeRec :=
  (List.range n).map fun i =>
    let w := numAt s (off + 8 * i) 8
    { tile := bitsOf w 0 16, parent := bitsOf w 16 16, slot := bitsOf w 32 8, kind := bitsOf w 40 2, device := bitsOf w 48 10 }

/-- The reduction trees, one after another (04 R107). -/
def treesFrom (s : List Byte) : Nat → Nat → List TreeRec
  | 0, _ => []
  | k + 1, off =>
    let h := numAt s off 16
    let n := bitsOf h 32 16
    { id := bitsOf h 0 16, tag := bitsOf h 16 4, cls := bitsOf h 20 3, wide := bitOf h 23, override := bitOf h 24,
      fields := bitsOf h 48 6, terms := bitsOf h 64 32, kTotal := bitsOf h 96 32, nodes := nodesOf s (off + 16) n } ::
      treesFrom s k (off + 16 + 8 * n)

/-- The trees of an image. -/
def treesOf (b : List Byte) (dir : List DirEnt) : List TreeRec := treesFrom (sectBytes b dir 5) (countOf dir 5) 0

/-- The region entries, without bases (08 R200). -/
def regionsOf (b : List Byte) (dir : List DirEnt) : List RegionRec :=
  let s := sectBytes b dir 7
  (List.range (countOf dir 7)).map fun i =>
    { num := numAt s (16 * i) 1, kind := bitsOf (numAt s (16 * i) 8) 8 4, size := numAt s (16 * i + 8) 8, base := 0 }

/-- The relocation entries (08 R200). -/
def relocsOf (b : List Byte) (dir : List DirEnt) : List RelocRec :=
  let s := sectBytes b dir 8
  (List.range (countOf dir 8)).map fun i =>
    { tile := numAt s (8 * i) 2, desc := numAt s (8 * i + 2) 2, region := numAt s (8 * i + 4) 1 }

/-- The stage entries (09 R217). -/
def stagesOf (s : List Byte) (n : Nat) : List StageRec :=
  (List.range n).map fun i =>
    let w := numAt s (16 * i) 16
    { stage := bitsOf w 0 10, rowFirst := bitsOf w 16 5, rowLast := bitsOf w 24 5, stripeFirst := bitsOf w 32 32,
      stripeCount := bitsOf w 64 16 }

/-- The stripe records with their member lists (09 R218); `base` is the end of the stage entries. -/
def stripesOf (s : List Byte) (base n : Nat) : List StripeRec :=
  (List.range n).map fun i =>
    let w := numAt s (base + 32 * i) 32
    let m := bitsOf w 48 6
    let list (k c : Nat) : List (Nat × Nat) := (List.range c).map fun j =>
      let e := bitsOf w 96 32 + 4 * (k + j)
      (numAt s e 2, numAt s (e + 2) 2)
    { stripe := bitsOf w 0 32, stage := bitsOf w 32 10, wFmt := bitsOf w 42 4, treeId := bitsOf w 64 16,
      members := list 0 m, girdle := list m (bitsOf w 54 4) }

/-- The tokeniser (11 R277). -/
def tokOf (s : List Byte) : TokRec :=
  let v := numAt s 0 4
  let m := numAt s 4 4
  let e := numAt s 8 4
  let pool := 16 + 8 * v + 12 * m
  { vocab := (List.range v).map fun i => cut s (pool + numAt s (16 + 8 * i) 4) (numAt s (16 + 8 * i + 4) 2)
    merges := (List.range m).map fun i =>
      let o := 16 + 8 * v + 12 * i
      (numAt s o 4, numAt s (o + 4) 4, numAt s (o + 8) 4)
    stopTok := if e = 0xFFFFFFFF then none else some e }

/-- The sparse form of bytes from offset 0. -/
def memOf (bs : List Byte) : Mem := cellsOfBytes 0 bs
where
  /-- cells from an offset -/
  cellsOfBytes (a : Nat) : List Byte → Mem
    | [] => []
    | x :: xs => if x = 0 then cellsOfBytes (a + 1) xs else (a, x) :: cellsOfBytes (a + 1) xs

/-- What the bytes of an image say, before relocation, seeds and geometry. -/
def parseImage (b : List Byte) : Image :=
  let dir := dirOf b
  let st := sectBytes b dir 0x0A
  let h := numAt b 0 128
  let n := bitsOf h 256 10 + 1
  { modelId := bitsOf h 128 64, weightVersion := bitsOf h 192 32, beatCycles := bitsOf h 224 32,
    stagesM1 := bitsOf h 256 10, w18 := bitOf h 266, seed := cut b 40 32, signer := cut b 72 32,
    hash := Sha.shake256 (cut b 0 (128 + 96 * numAt b 6 2)) 32,
    layoutHash := Sha.shake256 ([0x01, 0x0A].flatMap fun t => ((entOf dir t).map (·.hash)).getD []) 32,
    tiles := tilesOf b dir, chans := chansOf b dir, trees := treesOf b dir, regions := regionsOf b dir,
    relocs := relocsOf b dir,
    reserve := (List.range (countOf dir 9)).map fun i => numAt (sectBytes b dir 9) (2 * i) 2,
    stages := stagesOf st n, stripes := stripesOf st (16 * n) (countOf dir 0x0A),
    tok := (entOf dir 0x0B).map fun _ => tokOf (sectBytes b dir 0x0B),
    weights := memOf (sectBytes b dir 6), weightsLen := (sectBytes b dir 6).length }

/-- The weight tiles of an image: those of role 0 and 2 (08 R199). -/
def Image.weightTiles (im : Image) : List TileRec := im.tiles.filter fun r => r.role == 0 || r.role == 2

/-- Entry size of the section types whose entries have a fixed size (08 R197). -/
def entrySize (type : Nat) : Option Nat :=
  match type with
  | 0x01 => some 32
  | 0x03 => some 32
  | 0x07 => some 16
  | 0x08 => some 8
  | 0x09 => some 2
  | 0x0C => some 8
  | _ => none

/-- The largest of a list of numbers. -/
def maxOf (xs : List Nat) : Nat := xs.foldl max 0

/-- The length that a section's content gives it, where R197 says one; none for metadata. -/
def contentLen (im : Image) (b : List Byte) (dir : List DirEnt) (e : DirEnt) : Option Nat :=
  match entrySize e.type with
  | some n => some (n * e.count)
  | none =>
    match e.type with
    | 0x02 => some ((im.tiles.map fun t => roundUp t.progBytes 64).foldl (· + ·) 0)
    | 0x04 => some (maxOf ((im.chans.filter fun c => c.route == 2).map fun c => c.hopsOffset + c.hopCount))
    | 0x05 => some ((im.trees.map fun t => 16 + 8 * t.nodes.length).foldl (· + ·) 0)
    | 0x06 => some (maxOf ((im.tiles.filter fun t => t.wBytes != 0).map fun t => t.wOffset + t.wBytes))
    | 0x0A =>
      let s := sectBytes b dir 0x0A
      let base := 16 * (im.stagesM1 + 1)
      some (max (base + 32 * e.count) (maxOf ((List.range e.count).map fun i =>
        let w := numAt s (base + 32 * i) 32
        bitsOf w 96 32 + 4 * (bitsOf w 48 6 + bitsOf w 54 4))))
    | 0x0B =>
      let s := sectBytes b dir 0x0B
      let v := numAt s 0 4
      some (16 + 8 * v + 12 * numAt s 4 4 + maxOf ((List.range v).map fun i => numAt s (16 + 8 * i) 4 + numAt s (20 + 8 * i) 2))
    | 0x0F => some 4627
    | _ => none

/-- The count that a section must have (08 R197); none where any is allowed. Channels that name the same bytes share one hop list (DEDUCED, log entry 87). -/
def wantCount (im : Image) (tileCount : Nat) (type : Nat) : Option Nat :=
  match type with
  | 0x01 => some tileCount
  | 0x02 => some (im.tiles.filter fun t => t.progBytes != 0).length
  | 0x04 => some (((im.chans.filter fun c => c.route == 2).map fun c => (c.hopsOffset, c.hopCount)).eraseDups).length
  | 0x06 => some 0
  | 0x0B => some 0
  | 0x0D => some 0
  | 0x0F => some 0
  | _ => none

/-- The tokeniser section breaks R277. -/
def tokBad (s : List Byte) : Bool :=
  let t := tokOf s
  let v := t.vocab.length
  numAt s 12 4 != 0 ||
  ((List.range v).any fun i => numAt s (22 + 8 * i) 2 != 0 || numAt s (20 + 8 * i) 2 == 0 || 256 < numAt s (20 + 8 * i) 2) ||
  ((List.range 256).any fun k => (t.vocab.filter fun w => w == [BitVec.ofNat 8 k]).length != 1) ||
  (t.merges.any fun m => v ≤ m.1 || v ≤ m.2.1 || v ≤ m.2.2 ||
    t.vocab.getD m.2.2 [] != t.vocab.getD m.1 [] ++ t.vocab.getD m.2.1 [])

/-- A program of the programs section is not followed by zero bytes up to the next multiple of 64 (08 R197). -/
def padBad (im : Image) (s : List Byte) : Bool :=
  ((im.tiles.map (·.progBytes)).zip (progStarts (im.tiles.map (·.progBytes)))).any fun e =>
    (cut s (e.2 + e.1) (roundUp e.1 64 - e.1)).any (· != 0)

/-- A section type of R197. -/
def knownSection (t : Nat) : Bool := (1 ≤ t && t ≤ 0x0D) || t == 0x0F

/-- The header breaks R195 beside its magic and version. -/
def headBad (b : List Byte) (bytes : Nat) : Bool :=
  let n := numAt b 0 128
  let sc := bitsOf n 48 16
  let tc := bitsOf n 288 16
  sc < 2 || 16 < sc || bitsOf n 64 64 != bytes || bitsOf n 224 32 < 1024 || 2 ^ 24 < bitsOf n 224 32 || tc == 0 ||
    34560 < tc || bitsOf n 267 21 != 0 || bitsOf n 304 16 != 0 || bitsOf n 832 192 != 0

/-- The first section that breaks R196 or R197, as its directory index and type; a missing one has index 0. -/
def dirBad (im : Image) (b : List Byte) (bytes : Nat) : Option (Nat × Nat) :=
  let dir := dirOf b
  let tc := numAt b 36 2
  let tooFar (e : DirEnt) : Bool := e.offset % 64 != 0 || bytes < e.offset + e.length || e.offset < 128 + 96 * dir.length
  let wrong (e : DirEnt) : Bool :=
    e.reserved || !knownSection e.type || (dir.filter fun f => f.type == e.type).length != 1 || tooFar e ||
    (dir.any fun f => f.type != e.type && e.length != 0 && f.length != 0 && e.offset < f.offset + f.length && f.offset < e.offset + e.length) ||
    (match contentLen im b dir e with
      | some n => n != e.length
      | none => false) ||
    (match wantCount im tc e.type with
      | some n => n != e.count
      | none => false) ||
    (e.type == 3 && 4096 < e.count) || (e.type == 0x0F && e.hash.any (· != 0)) ||
    (e.type == 0x0B && tokBad (sectBytes b dir 0x0B)) || (e.type == 0x02 && padBad im (sectBytes b dir 0x02))
  match dir.find? wrong with
  | some e => some (dir.findIdx wrong, e.type)
  | none => ([1, 2, 3, 6, 9, 0x0A, 0x0F].find? fun t => (entOf dir t).isNone).map fun t => (0, t)

/-- The first section whose bytes do not hash to its entry, as its directory index and type (08 R198). -/
def hashBad (b : List Byte) : Option (Nat × Nat) :=
  let wrong (e : DirEnt) : Bool := e.type != 0x0F && Sha.shake256 (cut b e.offset e.length) 64 != e.hash
  ((dirOf b).find? wrong).map fun e => ((dirOf b).findIdx wrong, e.type)

end Sys2Proof.Machine
end

