-- ==== Sys2Proof/WellFormed.lean ====
section
/-! DEFINITION. Well-formed commands: every number that names a part of the W36 names one that exists (01 R15, 12 R303, 13 R320-R330, 14 R335, 15 R350, 17 R389). -/
namespace Sys2Proof.WellFormed

/-- A packed logical identifier names a tile (01 R15). -/
def tile (t : Nat) : Bool := t % 256 < 180 && t / 256 < 192

/-- A packed physical identifier names a site (01 R15). -/
def physSite (p : Nat) : Bool := p % 256 < 192 && p / 256 < 192

/-- A Rhoic command: its queue pair is one of 16,384, its inline buffer is at most 4 KiB (12 R297, R303). -/
def rhoic (r : Rhoic) : Bool := r.qp < 16384 && r.inl.length ≤ 4096

/-- A register access: 4 or 8 bytes, aligned, within BAR0 (22 R470, R473). -/
def reg (a : RegAcc) : Bool := (a.size == 4 || a.size == 8) && a.off % a.size == 0 && a.off < 0x4000000

/-- A window access writes or reads at least one byte. -/
def win (a : WinAcc) : Bool := match a.data with
  | some bs => !bs.isEmpty
  | none => 0 < a.len

/-- A packet arrives at one of 16 ports (15 R350). -/
def packet (p : NPkt) : Bool := p.port < 16

/-- A bypass table as a part leaves manufacture: at most two bypassed sites, no valid substitution slot, no retired position (01 R17). -/
def factoryTable (b : BitVec 128) : Bool :=
  ((List.range 32).filter b.getLsbD).length ≤ 2 && !b.getLsbD 32 && !b.getLsbD 48 && (List.range 30).all fun j => !b.getLsbD (64 + j)

/-- The facts of a part: its factory repair map is one with which a part leaves manufacture (01 R17). -/
def part (p : PartInfo) : Bool := p.bypass.all fun e => e.1 < 1152 && factoryTable e.2

/-- An HBM line with its check bytes has 72 bytes (14 R339). -/
def line (l : List Byte) : Bool := l.length == 72

/-- The command names only parts that exist. -/
def instr : Instr → Bool
  | .identify r => rhoic r
  | .status r => rhoic r
  | .setModeSplit r => rhoic r
  | .setPowerState r => rhoic r
  | .createQueue r => rhoic r
  | .deleteQueue r => rhoic r
  | .loadImage r => rhoic r
  | .patch r => rhoic r
  | .activateImage r => rhoic r
  | .imageActivated => true
  | .stageWeights r => rhoic r
  | .weightsStaged => true
  | .swapWeights r => rhoic r
  | .swapCopyDone => true
  | .weightCopyDone => true
  | .registerSeed r => rhoic r
  | .openStream r => rhoic r
  | .appendTokens r => rhoic r
  | .appendText r => rhoic r
  | .generate r => rhoic r
  | .cancel r => rhoic r
  | .closeStream r => rhoic r
  | .definePrefix r => rhoic r
  | .releasePrefix r => rhoic r
  | .streamSet r => rhoic r
  | .streamRead r => rhoic r
  | .scheduleWave r => rhoic r
  | .setBudget r => rhoic r
  | .queryUsage r => rhoic r
  | .readDram r => rhoic r
  | .writeDram r => rhoic r
  | .pageMigrate r => rhoic r
  | .pageDrop r => rhoic r
  | .join r => rhoic r
  | .foundSystem => true
  | .leave r => rhoic r
  | .setRole r => rhoic r
  | .forwardWeights r => rhoic r
  | .loupeRun r => rhoic r
  | .inclusionReport r => rhoic r
  | .faultRead r => rhoic r
  | .attest r => rhoic r
  | .rotateKey r => rhoic r
  | .humAuth r => rhoic r
  | .opcodeUnknown r => rhoic r
  | .getVersion _ => true
  | .getCapabilities _ => true
  | .negotiateAlgorithms _ => true
  | .getDigests _ => true
  | .getCertificate _ => true
  | .challenge _ => true
  | .getMeasurements _ => true
  | .spdmUnsupportedRequest _ => true
  | .pldmFirmwareUpdate _ => true
  | .activateFirmware _ => true
  | .pldmMonitoring _ => true
  | .mctpControl _ => true
  | .matmulTable t _ _ => tile t
  | .matmulDirect t _ _ => tile t
  | .logProduct t _ _ => tile t
  | .reduce t _ _ => tile t
  | .requant t _ _ => tile t
  | .facetOp t _ _ => tile t
  | .sample t _ _ => tile t
  | .send t _ _ => tile t
  | .recv t _ _ => tile t
  | .dramRead t _ _ => tile t
  | .dramWrite t _ _ => tile t
  | .kvFetch t _ _ => tile t
  | .kvStore t _ _ => tile t
  | .residLoad t _ _ => tile t
  | .residStore t _ _ => tile t
  | .waitToken t _ _ => tile t
  | .fenceFormat t _ _ => tile t
  | .endSection t _ _ => tile t
  | .opcodeInvalid t _ _ => tile t
  | .tokenDone t token _ => tile t && decide (token < 64)
  | .beatWatchdog t => tile t
  | .flitReceive f => tile f.tile && f.dir < 4
  | .linkDown t dir => tile t && decide (dir < 4)
  | .packetAgePromote _ => true
  | .livenessFlit t dir _ => tile t && decide (dir < 4)
  | .tileDead t _ => tile t
  | .issueResumed _ => true
  | .beatBoundary _ => true
  | .freqChanged _ => true
  | .inclusionSample x => tile x.tile
  | .inclusionCheck t _ => tile t
  | .inclusionSkipped t => tile t
  | .rebuildChunk _ _ => true
  | .girdleRebuilt _ => true
  | .girdleAudit _ _ _ => true
  | .memoryTierScrub site _ => physSite site
  | .hbmPatrolScrub stack raw _ => decide (stack < 12) && line raw
  | .hbmStackLost stack _ => decide (stack < 12)
  | .hbmRemapDone => true
  | .telemetry => true
  | .oscCalibration field _ => decide (field < 36)
  | .sensorCalibration field => decide (field < 36)
  | .journalAppend _ => true
  | .journalPackageLost pkg => decide (pkg < 2)
  | .rimCoreLost core => decide (core < 16)
  | .doorbell path qp _ => decide (path < 64) && decide (qp < 16384)
  | .queueEnable qp a => decide (qp < 16384) && reg a
  | .completionRecordWrite qp => decide (qp < 16384)
  | .evtEoi a => reg a
  | .bankEoi core a => decide (core < 16) && reg a
  | .evtRaise a => reg a
  | .eventRingEnable ring a => decide (ring < 4096) && reg a
  | .eventRingHeadWrite ring a => decide (ring < 4096) && reg a
  | .routeWrite source a => decide (source < 512) && reg a
  | .aonEdge bit => decide (bit < 6)
  | .rcRead a => reg a
  | .registerWrite a => reg a
  | .deviceReset a => reg a
  | .freqStepWrite a => reg a
  | .mirrorGibWrite a => reg a
  | .bar4BaseWrite a => reg a
  | .hostWinBaseWrite a => reg a
  | .tileWindowAccess a => win a
  | .bar4Access a => win a
  | .diagSlotAccess a => win a
  | .powerOn feed => decide (feed < 2)
  | .stageReached i => part i.part
  | .pcieReset _ => true
  | .pcieLinkTrained => true
  | .p1Entry => true
  | .pstateChanged => true
  | .feedLost feed _ _ _ => decide (feed < 2)
  | .feedRestored feed => decide (feed < 2)
  | .preserve => true
  | .fieldTrip field _ => decide (field < 36)
  | .fieldUndervolt field => decide (field < 36)
  | .regPhaseLost rail phase => decide (rail < 132) && decide (phase < 16)
  | .voltageUpdate field _ _ => decide (field < 36)
  | .suspectedBondCrack t _ => tile t
  | .humChanged _ => true
  | .humAlarm => true
  | .humHealth _ _ _ _ => true
  | .humChallenge => true
  | .oscUnlock field => decide (field < 36)
  | .oscInjectLost field => decide (field < 36)
  | .oscRelock field _ => decide (field < 36)
  | .tempSample x => decide (x.field < 36)
  | .sensorFault t => tile t
  | .throttleUpdate x => decide (x.field < 36)
  | .rthUpdate field => decide (field < 36)
  | .fieldOvertemp t => tile t
  | .coolantLost which => decide (which < 2)
  | .stepSyncPulse _ => true
  | .stepSyncLost => true
  | .ppsIn _ => true
  | .alertNAttention _ => true
  | .ptpMessage x => decide (x.port < 16)
  | .portDown port _ => decide (port < 16)
  | .portUp port => decide (port < 16)
  | .narlasData p => packet p
  | .ack p => packet p
  | .nack p => packet p
  | .probe p => packet p
  | .control p _ => packet p
  | .ackTimer peer => decide (peer < 1024)
  | .pathRetransmit peer path => decide (peer < 1024) && decide (path < 64)
  | .peerUnreachable peer => decide (peer < 1024)
  | .peerLost peer => decide (peer < 1024)
  | .coordinatorUnreachable => true
  | .assocKeyExchange m => decide (m.peer < 1024)
  | .rekey peer => decide (peer < 1024)
  | .waveHandoff h => decide (h.src < 1024)
  | .journalRecord j => decide (j.src < 1024)
  | .journalAcknowledge src stream _ => decide (src < 1024) && decide (stream < 32768)
  | .streamMigrated stream _ _ => decide (stream < 32768)
  | .weightChunk src _ _ _ => decide (src < 1024)
  | .prefixLeaseExpiry _ => true
  | .probeReply peer path => decide (peer < 1024) && decide (path < 64)
  | .humAlarmReleased => true
  | .loupeReferenceDone => true
  | .patchCopyDone => true
  | .previousKeyExpiry peer => decide (peer < 1024)
  | .cableModuleDetected port _ _ => decide (port < 16)

end Sys2Proof.WellFormed
end

