-- ==== Sys2Proof/Machine/Chain.lean ====
section
/-! DEFINITION. The chain of configuration records (19 R420, R421, 01 R22): records are only ever appended, each signed and holding the hash of the one before; bring-up stage B2 verifies them in order and takes the bypass tables, spare columns and spare bonds from those that verify. -/
namespace Sys2Proof.Machine

/-- SHAKE256 of a public key, 32 bytes: a `signer_id` (21 R452). -/
def signerId (key : List Byte) : List Byte := Sha.shake256 key 32

/-- The identifiers of the enrolled image-signing keys, which a `signer_id` can name (21 R452, R455). -/
def Sec.signers (sec : Sec) : List (List Byte) := sec.keys.map fun k => signerId k.2

/-- The body of a key enrolment record (21 R455): per slot a valid flag and its public key, and `min_svn`. -/
def keyBody (sec : Sec) : List Byte :=
  (List.range 8).flatMap (fun i => leBytes 1 (b2n (AMap.find sec.keys i).isSome) ++
    (((AMap.find sec.keys i).getD []) ++ List.replicate 2592 0).take 2592) ++ leBytes 4 sec.minSvn

/-- The valid slots of a key enrolment record's body (21 R455). -/
def keysOf (body : List Byte) : List (Nat × List Byte) :=
  (List.range 8).filterMap fun i => if numAt body (2593 * i) 1 = 1 then some (i, cut body (2593 * i + 1) 2592) else none

/-- The newest key enrolment record of a chain is the whole key state (21 R455); with none no key is enrolled. -/
def Sec.takeKeys (sec : Sec) (chain : List ConfRec) : Sec :=
  match (chain.filter fun r => r.type == 4).getLast? with
  | some r => { sec with keys := keysOf r.body, minSvn := numAt r.body (8 * 2593) 4 }
  | none => { sec with keys := [], minSvn := 0 }

/-- The hash that the record after a chain holds: that of its last record, 0 in record 0 (19 R421). -/
def chainHash (chain : List ConfRec) : List Byte := (chain.getLast?.map (·.hash)).getD (List.replicate 64 0)

/-- The header and body of the record that takes the next place in a chain (19 R421). -/
def recordBody (chain : List ConfRec) (type : Nat) (signer body : List Byte) : List Byte :=
  leBytes 2 type ++ leBytes 2 0 ++ leBytes 4 body.length ++ leBytes 8 chain.length ++ (signer ++ List.replicate 32 0).take 32 ++
    chainHash chain ++ leBytes 16 0 ++ body

/-- The key that a record type requires signs header and body (19 R421): the manufacturing key for types 0x01 and 0x03, else the device identity key. -/
def signRecord (key : List Byte) (type : Nat) (b : List Byte) : List Byte :=
  if type = 1 ∨ type = 3 then Config.factorySign b else Config.mldsaSign key b

/-- The record of a type and body that takes the next place in a chain, signed under the key its type requires (19 R421). -/
def makeRecord (key : List Byte) (chain : List ConfRec) (type : Nat) (body : List Byte) : ConfRec :=
  let signer := if type = 1 ∨ type = 3 then [] else signerId key
  let b := recordBody chain type signer body
  let sig := signRecord key type b
  { type := type, signer := signer, prev := chainHash chain, body := body, sig := sig, hash := Sha.shake256 (b ++ sig) 64 }

/-- A record verifies at its place (19 R421): its signature is the one that the key its type requires makes, and `prev_hash` is the hash of the record before. -/
def goodRecord (key : List Byte) (before : List ConfRec) (r : ConfRec) : Bool := r == makeRecord key before r.type r.body

/-- The chain as far as it verifies (19 R421): up to the first record that fails, or that every flash package holds damaged. -/
def verifiedFrom (key : List Byte) (damaged : Nat → Bool) (good : List ConfRec) : List ConfRec → List ConfRec
  | [] => good
  | r :: rest => if damaged good.length || !goodRecord key good r then good else verifiedFrom key damaged (good ++ [r]) rest

/-- Appends a record (19 R421); none without a journal flash package. -/
def Dev.appendRecord (d : Dev) (type : Nat) (body : List Byte) : Dev :=
  if d.pwr.packages = [] then d
  else { d with pwr := { d.pwr with chain := d.pwr.chain ++ [makeRecord d.meas.part.deviceKey d.pwr.chain type body] } }

/-- The body of a repair update that gives one segment's bypass table (19 R421 type 0x02; the bodies' layout is a DESIGN CHOICE, log entry 9). -/
def tableBody (seg : Nat) (b : BitVec 128) : List Byte := leBytes 1 0 ++ leBytes 2 seg ++ leBytes 16 b.toNat

/-- The body of a repair update that gives a macro column a spare: site, macro, column (19 R421, 01 R24). -/
def columnBody (c : Nat × Nat × Nat) : List Byte := leBytes 1 1 ++ leBytes 2 c.1 ++ leBytes 1 c.2.1 ++ leBytes 2 c.2.2

/-- The body of a repair update that gives a failed signal bond a spare: site, bond (19 R421, 01 R10). -/
def bondBody (b : Nat × Nat) : List Byte := leBytes 1 2 ++ leBytes 2 b.1 ++ leBytes 2 b.2

/-- The body of a repair update that retires a field (17 R393, 19 R420). -/
def fieldBody (n : Nat) : List Byte := leBytes 1 3 ++ leBytes 1 n

/-- A change of a bypass table: the record is appended first, then the table takes effect; without a journal flash package there is no change (01 R22). -/
def Dev.changeTable (d : Dev) (seg : Nat) (b : BitVec 128) : Dev :=
  if d.pwr.packages = [] then d else (d.appendRecord 2 (tableBody seg b)).setTable seg b

/-- The body of the factory repair map: 1,152 bypass tables, then spare columns and bonds (19 R421). -/
def factoryBody (p : PartInfo) : List Byte :=
  ((List.range 1152).flatMap fun s => leBytes 16 (((AMap.find p.bypass s).map (·.toNat)).getD 0)) ++
    p.columns.flatMap columnBody ++ p.bonds.flatMap bondBody

/-- The records of the factory: repair map and part record, signed by the manufacturing key (19 R421). -/
def factoryChain (p : PartInfo) : List ConfRec :=
  let r0 := makeRecord p.deviceKey [] 1 (factoryBody p)
  [r0, makeRecord p.deviceKey [r0] 3 (p.serial ++ leBytes 1 p.stepping ++ p.deviceCert)]

/-- What the configuration area of the flash holds: as the part left manufacture until it has been read (01 R17, R22). -/
def Dev.flashChain (d : Dev) : List ConfRec := if d.pwr.chain = [] then factoryChain d.meas.part else d.pwr.chain

/-- The records that verify at B2 (19 R421); `damaged` are the (package, sequence) pairs of the records found damaged: a record that fails in one copy is taken from the other. -/
def Dev.verifiedChain (d : Dev) (damaged : List (Nat × Nat)) : List ConfRec :=
  verifiedFrom d.meas.part.deviceKey (fun n => d.pwr.packages.all fun p => damaged.contains (p, n)) [] d.flashChain

/-- The tables of `k` segments from segment `s` on, those that are not zero. -/
def tablesFrom : Nat → Nat → List Byte → List (Nat × BitVec 128)
  | _, _, [] => []
  | 0, _, _ => []
  | k + 1, s, b :: bs =>
    let n := numAt (b :: bs) 0 16
    let rest := tablesFrom k (s + 1) (bs.drop 15)
    if n = 0 then rest else (s, BitVec.ofNat 128 n) :: rest

/-- The tables of a factory repair map, those that are not zero (19 R421). -/
def factoryTables (body : List Byte) : List (Nat × BitVec 128) := tablesFrom 1152 0 body

/-- A chain starts with the repair map of a part as it leaves manufacture (01 R17, R22). -/
def chainFits (chain : List ConfRec) : Bool := match chain.head? with
  | some r => r.type == 1 && (factoryTables r.body).all fun e => WellFormed.factoryTable e.2
  | none => false

/-- A record changes the bypass tables (19 R421). -/
def tablesAfter (m : List (Nat × BitVec 128)) (r : ConfRec) : List (Nat × BitVec 128) :=
  if r.type = 1 then factoryTables r.body
  else if r.type = 2 ∧ numAt r.body 0 1 = 0 then AMap.set 0 m (numAt r.body 1 2) (BitVec.ofNat 128 (numAt r.body 3 16))
  else m

/-- The spare columns that a chain assigns, as (site, macro, column) (01 R24, 19 R421). -/
def columnsOf (p : PartInfo) (chain : List ConfRec) : List (Nat × Nat × Nat) :=
  p.columns ++ chain.filterMap fun r =>
    if r.type = 2 ∧ numAt r.body 0 1 = 1 then some (numAt r.body 1 2, numAt r.body 3 1, numAt r.body 4 2) else none

/-- The spare bonds that a chain assigns, as (site, failed bond) (01 R10, 19 R421). -/
def bondsOf (p : PartInfo) (chain : List ConfRec) : List (Nat × Nat) :=
  p.bonds ++ chain.filterMap fun r =>
    if r.type = 2 ∧ numAt r.body 0 1 = 2 then some (numAt r.body 1 2, numAt r.body 3 2) else none

/-- Signal bonds of a tile site that a spare can replace: read data, write data, address and control (01 R10). -/
def signalBonds : Nat := 2304 + 288 + 48

/-- Spare signal bonds of a tile site (01 R10). -/
def spareBonds : Nat := 64

/-- Spare columns of a macro (01 R24). -/
def spareColumns : Nat := 4

/-- A macro of a site still has a spare column (01 R24). -/
def columnFree (cols : List (Nat × Nat × Nat)) (c : Nat × Nat × Nat) : Bool :=
  decide ((cols.filter fun x => x.1 == c.1 && x.2.1 == c.2.1).length < spareColumns)

/-- A failing macro column is recorded, while its macro has a spare column (01 R24, 19 R420, 20 R438). -/
def Dev.recordColumn (d : Dev) (c : Nat × Nat × Nat) : Dev :=
  if d.pwr.packages = [] || (d.wafer.colMap ++ d.wafer.spareCols).contains c || !columnFree (d.wafer.colMap ++ d.wafer.spareCols) c then d
  else { (d.appendRecord 2 (columnBody c)) with wafer := { d.wafer with spareCols := d.wafer.spareCols ++ [c] } }

end Sys2Proof.Machine
end

