-- ==== Sys2Proof/Machine/Moves.lean ====
section
/-! DEFINITION. The data movement of transfers: the bytes that a token stands for, moved when it becomes done (06 R145, R159-R162, 07 R188, 10 R246, R247, R250), and what an uncorrectable line comes to by its content (14 R340, R341). -/
namespace Sys2Proof.Machine

/-- Writes DRAM bytes one by one, those in a poisoned line that the write does not cover whole discarded (14 R341). -/
def Dev.dramPutSome (d : Dev) (lo n : Nat) : Nat → List Byte → Dev
  | _, [] => d
  | a, b :: bs =>
    let line := a / 64 * 64
    let bad := d.lineBadAt line && !wholeLine lo n line
    let d1 := if bad then d else { d with mem := { d.mem with dram := memSet d.mem.dram (d.dramKey a) b } }
    d1.dramPutSome lo n (a + 1) bs

/-- Writes DRAM; a line that the write covers whole is poisoned no longer (14 R341). -/
def Dev.dramPut (d : Dev) (a : Nat) (bs : List Byte) : Dev :=
  if d.partialPoison a bs.length then (d.dramPutSome a bs.length a bs).clearPoisonIn a bs.length
  else
    let d1 := d.clearPoisonIn a bs.length
    { d1 with mem := { d1.mem with dram := memWrite d1.mem.dram (d1.dramKey a) bs } }

/-- Reads DRAM as plain bytes. -/
def Dev.dramGet (d : Dev) (a n : Nat) : List Byte := memRead d.mem.dram (d.dramKey a) n

/-- Columns on which a residual transfer acts: a load on valid columns of rank 0, a store on every valid column (06 R141, R162). -/
def residCols (x : Site) (load : Bool) : List (Nat × Col) :=
  (List.range 4).filterMap fun c =>
    let k := x.col c
    if k.valid && (!load || k.rank == 0) then some (c, k) else none

/-- The fields of a residual descriptor (06 R162): layer, first channel, channels, row bytes. -/
def residDesc (n : Nat) : Nat × Nat × Nat × Nat := (bitsOf n 14 10, bitsOf n 24 10, bitsOf n 34 11, bitsOf n 45 14 * 64)

/-- Device address of a column's residuals (05 R120, 06 R162). -/
def residAddr (k : Col) (load : Bool) (n : Nat) : Nat :=
  let (layer, base, _, row) := residDesc n
  k.residBase + (layer * 4 + (if load then k.residSlot else k.rank)) * row + base

/-- The device ranges of a token (07 R189): start and length. -/
def tokRanges (x : Site) (k : Tok) : List (Nat × Nat) :=
  if k.resid then (residCols x (k.op == 0x16)).map fun c => (residAddr c.2 (k.op == 0x16) k.desc, k.len)
  else if k.devLen = 0 then [] else [(k.devLo, k.devLen)]

/-- The fields of a KV descriptor (06 R161): layer, column, block, page offset in bytes, length in bytes. -/
def kvDesc (n : Nat) : Nat × Nat × Nat × Nat × Nat :=
  (bitsOf n 33 10, bitsOf n 43 2, bitsOf n 45 20, bitsOf n 65 14 * 64, (bitsOf n 79 14 + 1) * 64)

/-- The row bytes of a layer (10 R240). -/
def Dev.rowBytes (d : Dev) (layer : Nat) : Nat := ((d.image.kvOf layer).map (·.r)).getD 64

/-- The 64-byte units of a KV_FETCH that are read: those whose rows are not skipped (10 R246, R253). -/
def kvUnits (x : Site) (r n : Nat) : List Nat :=
  let (_, col, block, off, len) := kvDesc n
  let c := x.col col
  if !c.valid then []
  else
    let p0 := lowestPos x.cols c.stream
    (List.range (len / 64)).filter fun i => !rowSkipped p0 (256 * block + (off + 64 * i) / r % 256)

/-- The chunk of its page in which a unit of a KV_FETCH lies. -/
def unitChunk (off i : Nat) : Nat := (off + 64 * i) / 4096

/-- The units of a KV_FETCH that the tile's cache holds at issue (10 R250). -/
def Dev.cachedUnits (d : Dev) (t : Nat) (k : Tok) : List Nat :=
  let x := d.tile t
  let (layer, _, _, off, _) := kvDesc k.desc
  let fr := (k.devLo - off) / 65536
  (kvUnits x (d.rowBytes layer) k.desc).filter fun i => (x.cachedChunk fr (unitChunk off i)).isSome

/-- The lines that a transfer of a DRAM queue reads or writes, in the order in which they are requested (07 R188): of a KV_FETCH, those of its units that are read and that the cache does not hold. -/
def Dev.tokLines (d : Dev) (t : Nat) (k : Tok) : List Nat :=
  if k.op = 0x14 then
    if k.devLen = 0 then [] else
      let hit := d.cachedUnits t k
      ((kvUnits (d.tile t) (d.rowBytes (kvDesc k.desc).1) k.desc).filter fun i => !hit.contains i).map fun i => k.devLo + 64 * i
  else (tokRanges (d.tile t) k).flatMap fun r => linesOf r.1 r.2

/-- The units of a KV_FETCH that the cache holds are taken from it, and their chunks are used anew, in ascending order (10 R250). -/
def Dev.takeCached (d : Dev) (t : Nat) (k : Tok) : Dev :=
  let off := (kvDesc k.desc).2.2.2.1
  let fr := (k.devLo - off) / 65536
  (d.cachedUnits t k).foldl (fun (d : Dev) i => d.onTile t fun x =>
    match x.cachedChunk fr (unitChunk off i) with
    | some c => (writeSram x (k.lo + 64 * i) (memRead x.sram (x.slotBase c.slot + (off + 64 * i) % 4096) 64)).touchChunk c
    | none => x) d

/-- Moves the bytes of a KV_FETCH that come from DRAM: line by line, skipped rows left unwritten; the chunks of which every line was read are installed in ascending order (10 R246, R250). -/
def Dev.moveFetch (d : Dev) (t : Nat) (k : Tok) : Dev :=
  let x := d.tile t
  let (layer, col, block, off, len) := kvDesc k.desc
  let fr := (k.devLo - off) / 65536
  let d1 := k.lines.foldl (fun (d : Dev) a => d.onTile t fun x => writeSram x (k.lo + (a - k.devLo)) (d.dramGet a 64)) d
  let chunks := (List.range (ceilDiv (off + len) 4096)).filter fun c => off ≤ 4096 * c && 4096 * c + 4096 ≤ off + len &&
    (List.range 64).all fun j => k.lines.contains (fr * 65536 + 4096 * c + 64 * j)
  let p := d.kvEntry (x.col col).stream layer block
  let d2 := chunks.foldl (fun (d : Dev) c => d.onTile t fun y => y.installChunk fr c (d.dramGet (fr * 65536 + 4096 * c) 4096)) d1
  if chunks.isEmpty || x.cacheCap == 0 || p.cached || !p.hasFrame then d2 else d2.setPte { p with cached := true }

/-- A KV_STORE writes its row to DRAM, and into the tile's own copy of its chunk (10 R247, R250). -/
def Dev.moveStore (d : Dev) (t : Nat) (k : Tok) : Dev :=
  let off := (kvDesc k.desc).2.2.2.1
  let r := d.rowBytes (kvDesc k.desc).1
  let page := (k.devLo - off - (((d.tile t).col (kvDesc k.desc).2.1).position % 256) * r) / 65536
  (linesOf k.devLo k.devLen).foldl (fun (d : Dev) a =>
    d.onTile t fun x => match x.cachedChunk page ((a - page * 65536) / 4096) with
      | some c => { x with sram := memWrite x.sram (x.slotBase c.slot + (a - page * 65536) % 4096) (d.dramGet a 64) }
      | none => x) (d.dramPut k.devLo (memRead (d.tile t).sram k.lo k.devLen))

/-- Moves residuals between the residual file and their rows (05 R119, R120). -/
def Dev.moveResid (d : Dev) (t : Nat) (k : Tok) : Dev :=
  let x := d.tile t
  let load := k.op == 0x16
  let (_, base, n, _) := residDesc k.desc
  (residCols x load).foldl (fun d c =>
    let a := residAddr c.2 load k.desc
    if load then d.onTile t fun y => { y with resid := (List.range n).foldl (fun m i =>
      AMap.set 0 m (c.1 * 1024 + base + i) (signed 8 (memGet d.mem.dram (d.dramKey (a + i))).toNat)) y.resid }
    else d.dramPut a ((List.range n).map fun i => BitVec.ofNat 8 (unsigned 8 (AMap.get 0 x.resid (c.1 * 1024 + base + i))))) d

/-- Moves the data of a transfer whose token becomes done. The data of a channel moves with its flits. -/
def Dev.moveTok (d : Dev) (t : Nat) (k : Tok) : Dev :=
  match k.op with
  | 0x12 => d.onTile t fun x => writeSram x k.lo (d.dramGet k.devLo k.devLen)
  | 0x13 => d.dramPut k.devLo (memRead (d.tile t).sram k.lo k.devLen)
  | 0x14 => if k.devLen = 0 then d else d.moveFetch t k
  | 0x15 => if k.devLen = 0 then d else d.moveStore t k
  | 0x16 => d.moveResid t k
  | 0x17 => d.moveResid t k
  | _ => d

/-- The region of the active image that holds an address. -/
def Dev.regionAt (d : Dev) (a : Nat) : Option RegionRec := d.image.regions.find? fun r => inRange a r.base r.size

/-- Poisons a line (14 R341). -/
def Dev.poison (d : Dev) (line : Nat) : Dev :=
  if d.lineBadAt line then d else { d with mem := { d.mem with lineBad := AMap.insert line true d.mem.lineBad } }

/-- The page whose frame holds an address (10 R240). -/
def Dev.pageAt (d : Dev) (a : Nat) : Option Pte :=
  match AMap.find d.mem.frames (a / 65536) with
  | none => none
  | some o => d.serve.ptes.find? fun p => p.owner == o && p.hasFrame && p.frame ≤ a / 65536 &&
      a / 65536 < p.frame + p.size

/-- Streams whose history or table entry a line of the mirrored range holds (14 R340). -/
def Dev.streamsAt (d : Dev) (line : Nat) : List Nat :=
  d.streamIds.filter fun i =>
    inRange line (d.rd Reg.streamTableBase) 0x400000 && (line - d.rd Reg.streamTableBase) / 128 == i ||
      d.mem.allocs.any fun a => a.kind == 2 && a.owner == i && a.base < line + 64 && line < a.base + a.size

/-- The image, active or on its way to be, stops at the next boundary for a reason that no descriptor raised (08 R208): the first cause is kept. -/
def Dev.wantStop (d : Dev) (code tile desc : Nat) : Dev :=
  if d.img.stop.isSome || !(d.imgActive || d.img.placed) then d else { d with img := { d.img with stop := some (code, tile, desc) } }

/-- The counts and the error bit of an uncorrectable line (14 R348). -/
def Dev.countUncorr (d : Dev) (line : Nat) : Dev :=
  let s := d.stackOf line
  (d.bump (Reg.uncorr s)).setW1c (Reg.errUncorr s) (38 + s)

/-- A line of the weight copy is rewritten from the on-wafer weights (14 R340). -/
def Dev.rewriteCopy (d : Dev) (r : RegionRec) (line : Nat) : Dev :=
  let d1 := d.clearPoisonIn line 64
  { d1 with mem := { d1.mem with dram := memWrite d1.mem.dram (d1.dramKey line) (memRead d.image.weights (line - r.base) 64) } }

/-- What is done about an uncorrectable line of device memory, by what it holds (14 R340). `both`: neither copy of a mirrored line could be read. -/
def Dev.lineLost (d : Dev) (line : Nat) (both : Bool) : Dev :=
  if line < 2 * d.mirrorBytes then
    if !both then d
    else
      let k := d.dramKey line
      let d1 := (d.poison k).raise { code := Rc.hbmUncorrectable, detail := d.stackOf line, source := 38 + d.stackOf line,
                                     addr := line, unitKind := 4, unit := d.stackOf line }
      let d2 := (d1.streamsAt k).foldl (fun d i => d.endStream i 3) d1
      match d2.regionAt k with
      | some r => if r.kind = 2 ∨ r.kind = 3 then d2.wantStop Rc.hbmUncorrectable 0xFFFF 0xFFFF else d2
      | none => d2
  else match d.pageAt line with
    | some p => d.dropSoon p
    | none => match d.regionAt line with
      | some r => if r.kind = 0 then d.rewriteCopy r line else d.poison line
      | none => d.poison line

end Sys2Proof.Machine
end

