-- ==== Sys2Proof/Machine/Program.lean ====
section
/-! DEFINITION. Tile programs as the image holds them: the section table and the descriptors of a section (06 R138), and the programs that the girdle code builds: recovery templates made valid, and the section of a member that a girdle tile runs for it (09 R221, R229). -/
namespace Sys2Proof.Machine

/-- Descriptor `i` of a program. -/
def TileRec.descAt (r : TileRec) (i : Nat) : Nat := numAt r.prog (64 + 16 * i) 16

/-- Descriptors of a program. -/
def TileRec.descCount (r : TileRec) : Nat := (r.progBytes - 64) / 16

/-- Section entry `i` of a program, as its word (06 R138). -/
def TileRec.sectWord (r : TileRec) (i : Nat) : Nat := numAt r.prog (4 * i) 4

/-- Section entries that are not all zero. -/
def TileRec.written (r : TileRec) : List Nat := (List.range 16).filter fun i => r.progBytes != 0 && r.sectWord i != 0

/-- Section entries that are in use or recovery templates. An all-zero entry is none, except the first of a girdle tile with no other entry marked not valid: that one is its template of stage 0 from descriptor 0 (09 R221; DEDUCED, log entry 60). -/
def TileRec.sections (r : TileRec) : List Nat :=
  if r.role == 2 && r.progBytes != 0 && r.written.all (fun i => bitOf (r.sectWord i) 26) then
    match (List.range 16).find? fun i => r.sectWord i == 0 with
    | some z => (List.range 16).filter fun i => r.sectWord i != 0 || i == z
    | none => r.written
  else r.written

/-- Stage of a section entry. -/
def TileRec.sectStage (r : TileRec) (i : Nat) : Nat := bitsOf (r.sectWord i) 16 10

/-- A section entry is valid. -/
def TileRec.sectValid (r : TileRec) (i : Nat) : Bool := bitOf (r.sectWord i) 26

/-- Descriptor indices of a run from `i` through the first END_SECTION, within the program. -/
def TileRec.runFrom (r : TileRec) : Nat → Nat → List Nat
  | 0, _ => []
  | n + 1, i =>
    if r.descCount ≤ i then []
    else if r.descAt i % 64 = 0x3F then [i]
    else i :: r.runFrom n (i + 1)

/-- Descriptor indices of a section. -/
def TileRec.sectDescs (r : TileRec) (s : Nat) : List Nat := r.runFrom r.descCount (bitsOf (r.sectWord s) 0 16)

/-- A section of which no END_SECTION lies in the program. -/
def TileRec.openEnded (r : TileRec) (s : Nat) : Bool := !((r.sectDescs s).any fun i => r.descAt i % 64 == 0x3F)

/-- Every (section, descriptor index) of a program. -/
def TileRec.allDescs (r : TileRec) : List (Nat × Nat) := r.sections.flatMap fun s => (r.sectDescs s).map fun i => (s, i)

/-- The section of a program that holds a stripe product and is marked not valid, the recovery template of a girdle tile (09 R221). -/
def TileRec.templateSect (r : TileRec) (stage prod : Nat) : Option Nat :=
  r.sections.find? fun s => !r.sectValid s && r.sectStage s == stage && (r.sectDescs s).contains prod

/-- The recovery template of a girdle tile, as descriptor indices (09 R221). -/
def TileRec.template (r : TileRec) (stage prod : Nat) : Option (List Nat) := (r.templateSect stage prod).map r.sectDescs

/-- A program with one of its sections marked valid (09 R221 step 4). -/
def TileRec.validated (r : TileRec) (sect : Nat) : List Byte :=
  let b := r.prog.take r.progBytes
  b.set (4 * sect + 3) (b.getD (4 * sect + 3) 0 ||| 4)

/-- A number with the field of `w` bits from bit `lo` on set to a value. -/
def putBits (n lo w v : Nat) : Nat := n - bitsOf n lo w * 2 ^ lo + v % 2 ^ w * 2 ^ lo

/-- A descriptor of the root template, patched for the product of a lost member (09 R221 step 5): SEND takes x from the member's `x_base`, the product writes at its `acc_base` and REDUCE has that as `dst`. The product then reads at that `x_base` too, and REDUCE at that `acc_base` (DEDUCED, log entry 33). -/
def patchTemplate (k : ProdDesc) (n : Nat) : Nat :=
  let place (sram : Bool) : Nat := if sram then 64 * k.accBase else k.accBase
  if n % 64 = 0x10 then putBits n 18 19 k.xBase
  else if n % 64 = 0x01 ∨ n % 64 = 0x02 then putBits (putBits n 85 19 k.xBase) 104 13 k.accBase
  else if n % 64 = 0x08 then putBits (putBits n 26 19 (place (bitsOf n 6 2 == 1))) 58 19 (place (bitOf n 8))
  else n

/-- The root template of a girdle tile for a lost member, without its END_SECTION (09 R221 step 5). -/
def TileRec.rootTemplate (g : TileRec) (stage prod : Nat) (k : ProdDesc) : List Nat :=
  (((g.template stage prod).getD []).map g.descAt).filterMap fun n => if n % 64 = 0x3F then none else some (patchTemplate k n)

/-- A section under construction: its stage, and its descriptors with the index of each in the program it is copied from; none for one of the root template. -/
abbrev Built := List (Nat × List (Nat × Option Nat))

/-- The valid sections of a member's program as a girdle tile runs them (09 R221 step 5, R229): with a root template in place of the stripe product, or with that product itself, copied; every other descriptor unchanged. -/
def TileRec.hostSections (k : TileRec) (prod : Nat) (root : Option (List Nat)) : Built :=
  (k.sections.filter k.sectValid).map fun s => (k.sectStage s, (k.sectDescs s).flatMap fun i =>
    match root with
    | some ws => if i = prod then ws.map fun n => (n, none) else [(k.descAt i, some i)]
    | none => [(k.descAt i, some i)])

/-- The section table of a program that is built (06 R138): first descriptor, stage, valid; `first` is the first of the section at the front. -/
def builtTable : Nat → Built → List Byte
  | _, [] => []
  | first, s :: ss => leBytes 4 (pack [(0, 16, first), (16, 10, s.1), (26, 1, 1)]) ++ builtTable (first + s.2.length) ss

/-- A program that is built: 16 section entries, then the descriptors (06 R137, R138). -/
def buildProgram (b : Built) : List Byte :=
  (builtTable 0 b ++ List.replicate 64 0).take 64 ++ b.flatMap fun s => s.2.flatMap fun e => leBytes 16 e.1

/-- What descriptor `i` of a program that is built is a copy of. -/
def Built.origin (b : Built) (i : Nat) : Option Nat := ((b.flatMap (·.2))[i]?).bind (·.2)

end Sys2Proof.Machine
end

