-- ==== Sys2Proof/Machine/Girdle.lean ====
section
/-! DEFINITION. Stripes and what becomes of them: their states (09 R223, R224), how a stripe in recovery is arranged (R216, R220, R221: taps, recovery tree, programs, gating), what is rebuilt (R225, R233), and losses (R221, R225, R230, R232); with the tiles that work and double faults (20 R447). -/
namespace Sys2Proof.Machine

/-- A combination that exceeds a single fault (20 R447): the second fault's code in the detail, `ERR_DOUBLE`. -/
def Dev.doubleFaulted (d : Dev) (code : Nat) : Dev :=
  let d1 := (d.raise { code := Rc.doubleFault, detail := code, source := 1 }).setW1c Reg.errDouble 0
  { d1 with pwr := { d1.pwr with doubleFault := true } }

/-- A site works: it exists, its tile is not quarantined and its field is not lost. -/
def Dev.works (d : Dev) (t : Nat) : Bool :=
  (d.physOf t).isSome && !d.wafer.quarantined.contains t && !d.wafer.lostFields.contains (fieldOf t)

/-- A tile's program runs: on its site, or at the rim for a lost embedding tile (09 R237). -/
def Dev.runs (d : Dev) (t : Nat) : Bool := d.wafer.served.contains t || d.works t

/-- A tile of the image holds an embedding table: a weight member of no stripe (09 R237). -/
def Dev.isEmbedding (d : Dev) (t : Nat) : Bool :=
  match d.image.rec? t with
  | some r => r.role == 0 && (d.stripeOf t).isNone
  | none => false

/-- The lowest free spare of a tile's row segment that no pending substitution takes, as a site (01 R18, R20). None in a lost field (09 R225). -/
def Dev.spareFor (d : Dev) (t : Nat) : Option Nat :=
  if d.wafer.lostFields.contains (fieldOf t) then none
  else match d.wafer.subst.find? fun p => p.1 == t with
    | some p => some p.2
    | none => ((freeSpares (d.table (segOf t))).map (siteAt (segOf t))).find? fun s =>
        !d.wafer.subst.any fun p => p.2 == s

/-- Brings the stripe counts up to date; DEGRADED_UNPROTECTED is raised when the first stripe becomes UNPROTECTED (09 R223, R224, 22 R475). -/
def Dev.countStripes (d : Dev) : Dev :=
  let n (st : Nat) := (d.img.stripes.filter fun s => s.2.state == st).length
  let all := d.image.stripes.length
  let d1 := (((d.wr Reg.stripesProtected (all - n 1 - n 2 - n 3)).wr Reg.stripesRecovering (n 1)).wr
    Reg.stripesUnprotected (n 2)).wr Reg.stripesLost (n 3)
  if d.rd Reg.stripesUnprotected = 0 ∧ n 2 ≠ 0 then
    d1.raise { code := Rc.degradedUnprotected, detail := 63, source := 79 }
  else d1

/-- The weight-store bytes that the image gives a tile (08 R199). -/
def Image.tileWeights (im : Image) (r : TileRec) : Mem :=
  (im.weights.filter fun e => r.wOffset ≤ e.1 && e.1 < r.wOffset + r.wBytes).map fun e => (e.1 - r.wOffset, e.2)

/-- Detail of a girdle record (09 R238). -/
def girdleDetail (member stage : Nat) : Nat := member % 64 + 64 * stage

/-- Raises a girdle event (09 R238); the location fields name the tile. -/
def Dev.girdleEvent (d : Dev) (code : Nat) (r : StripeRec) (idx t : Nat) : Dev :=
  d.raise (d.atTile { code := code, detail := girdleDetail (if idx < r.members.length ∨ idx = 63 then idx else 62) r.stage,
                      source := 79, stage := r.stage } t)

/-- The stripe product of a member (09 R213). -/
def Dev.stripeProd (d : Dev) (m : Nat × Nat) : Option ProdDesc :=
  (d.image.rec? m.1).map fun r =>
    let n := leNat ((r.prog.drop (64 + 16 * m.2)).take 16)
    prodDesc (n % 64 == 2) n

/-- A site with a program in its working SRAM (06 R137). -/
def Site.withProgram (x : Site) (base : Nat) (bs : List Byte) (top : Nat) : Site :=
  { x with sram := memWrite x.sram base bs, progBase := base, progBytes := bs.length, dataTop := top }

/-- Loads the program of a tile of the image into the working SRAM of the tile that runs its work (08 R206, 09 R228). -/
def Dev.loadProgram (d : Dev) (guest host : Nat) : Dev :=
  match d.image.rec? guest with
  | some r => d.onTile host fun x => x.withProgram r.progBase (r.prog.take r.progBytes) r.dataTop
  | none => d

/-- The program that is built for a girdle tile which does the work of a data member (09 R221 step 5, R229): the root section of a stripe in recovery, the section of a member that the tile hosts. -/
def Dev.builtOf (d : Dev) (t : Nat) : Option Built :=
  (d.girdleOf t).bind fun (r, j) =>
    let hosted := (d.stripe r.stripe).hosted.find? fun h => h.2 == j
    let lost := if j = 0 then (d.recovering r.stripe).map (·.2) else none
    ((hosted.map (·.1)).or lost).bind fun i => (r.members[i]?).bind fun m => (d.image.rec? m.1).bind fun k =>
      if d.hostOf m.1 ≠ t then none
      else if hosted.isSome then some (k.hostSections m.2 none)
      else match r.girdle[j]?, d.image.rec? t, d.stripeProd m with
        | some g, some tr, some p => some (k.hostSections m.2 (some (tr.rootTemplate r.stage g.2 p)))
        | _, _, _ => none

/-- The index in its image program of what a tile's descriptor `i` is a copy of: its own, but in a program that is built; none for one of the root template. -/
def Dev.originOf (d : Dev) (t i : Nat) : Option Nat := match d.builtOf t with
  | some b => b.origin i
  | none => some i

/-- A descriptor that a girdle tile runs is its stripe's product in recovery: in the root section, the product of the root template; in another girdle tile, that of its own template (09 R220, R221). -/
def Dev.recoveryProduct (d : Dev) (t i : Nat) : Bool :=
  match d.girdleOf t with
  | some (r, j) => (d.recovering r.stripe).isSome && (if j = 0 then (d.originOf t i).isNone
      else ((r.girdle[j]?).map (·.2)) == some i)
  | none => false

/-- The program of a girdle tile in its stripe's present state, and whether it runs: the one built for it, its own with the template marked valid in recovery, else its own, gated (09 R216, R221 steps 1, 4 and 5, R228, R229). -/
def Dev.girdleRuns (d : Dev) (t : Nat) (r : TileRec) : List Byte × Bool :=
  match d.builtOf t with
  | some b => (buildProgram b, true)
  | none =>
    let sect := (d.girdleOf t).bind fun (s, j) => if (d.recovering s.stripe).isNone then none
      else (s.girdle[j]?).bind fun g => r.templateSect s.stage g.2
    match sect with
    | some i => (r.validated i, true)
    | none => (r.prog.take r.progBytes, false)

/-- Arranges a girdle tile: its program, its gating (09 R216, R221, R228). -/
def Dev.arrangeTile (d : Dev) (t : Nat) : Dev :=
  match d.image.rec? t with
  | some r =>
    if !d.works t then d
    else
      let (bs, on) := d.girdleRuns t r
      d.onTile t fun x => { x.withProgram r.progBase bs (max r.dataTop (roundUp (r.progBase + bs.length) 64)) with gated := !on }
  | none => d

/-- The slots that a node leaves free for the inputs of a node that is removed (09 R221 step 3), ascending. -/
def TreeRec.freeSlots (t : TreeRec) (parent removed : Nat) : List Nat :=
  let taken := ((t.inputsOf parent).filter fun q => q.2 != removed).map (·.1)
  (List.range 255).filter fun s => !taken.contains s

/-- A recovery tree without the node of a lost member (09 R221 step 3): each of its inputs becomes an input of its parent, in ascending slot at the lowest free slots. The node keeps its place in the list, on no tile. -/
def TreeRec.remove (t : TreeRec) (k : Nat) : TreeRec :=
  match t.nodes[k]? with
  | none => t
  | some nk =>
    let moved := ((t.inputsOf k).map (·.2)).zip (t.freeSlots nk.parent k)
    { t with nodes := (List.range t.nodes.length).filterMap fun j => (t.nodes[j]?).map fun q =>
        if j = k then { q with tile := 0xFFFF, parent := k }
        else match moved.find? fun e => e.1 == j with
          | some e => { q with parent := nk.parent, slot := e.2 }
          | none => q }

/-- A tree as the image has it. -/
def Image.tree? (im : Image) (id : Nat) : Option TreeRec := im.trees.find? fun t => t.id == id

/-- The recovery tree and its channels take the form that the state of a stripe needs (09 R221 steps 3 and 5, R228): those of the image, or without the lost member, whose inputs' channels then end at its parent, X-first and with an empty `stake_mask` (08 R206). -/
def Dev.arrangeTree (d : Dev) (r : StripeRec) (lost : Option Nat) : Dev :=
  let bare := { d with img := { d.img with treeEdits := AMap.erase r.treeId d.img.treeEdits,
                                           chanEdits := d.img.chanEdits.filter fun e => e.2.treeId != r.treeId } }
  match lost.bind fun i => r.members[i]?, d.image.tree? r.treeId with
  | some m, some t =>
    match t.nodeOf m.1 with
    | none => bare
    | some (k, nk) =>
      let dst := ((t.nodes[nk.parent]?).map (·.tile)).getD 0xFFFF
      let chans := ((t.inputsOf k).map (·.2)).filterMap fun j => (bare.edgeChan t.id j).bind fun c => (bare.chanRec c).map fun e =>
        (c, { e with dst := dst, route := 0, stakeMask := 0 })
      { bare with img := { bare.img with treeEdits := AMap.insert t.id (t.remove k) bare.img.treeEdits
                                         chanEdits := chans.foldl (fun m e => AMap.insert e.1 e.2 m) bare.img.chanEdits } }
  | _, _ => bare

/-- The taps of a stripe: one on the stripe product of every surviving data member in recovery, none else (09 R220, R221 step 2, R228). -/
def Dev.arrangeTaps (d : Dev) (n : Nat) (r : StripeRec) (lost : Option Nat) : Dev :=
  (List.range r.members.length).foldl (fun (d : Dev) i => match r.members[i]? with
    | some m => d.onTile m.1 fun x =>
        { x with taps := (x.taps.filter fun e => e.2 != n) ++ (if lost.isSome && lost != some i then [(m.2, n)] else []) }
    | none => d) d

/-- Arranges the tiles, tree and channels of a stripe as its state has them (09 R216, R221 steps 1 to 5, R228, R229). -/
def Dev.arrange (d : Dev) (n : Nat) : Dev :=
  match d.stripeRec n with
  | none => d
  | some r =>
    let lost := (d.recovering n).map (·.2)
    r.girdle.foldl (fun d g => d.arrangeTile g.1) ((d.arrangeTree r lost).arrangeTaps n r lost)

/-- A stripe and the others that have a data member in common with it: what one girdle tile does for the tile, no other does. -/
def Dev.kin (d : Dev) (n : Nat) : List Nat :=
  match d.stripeRec n with
  | none => [n]
  | some r => n :: ((d.image.stripes.filter fun s => s.stripe != n && s.members.any fun m => r.members.any fun e => e.1 == m.1).map (·.stripe))

/-- Sets a stripe's state: its tiles, tree and channels follow, and the counts. -/
def Dev.putStripe (d : Dev) (n : Nat) (s : Stripe) : Dev :=
  ((d.kin n).foldl (fun d k => d.arrange k) (d.setStripe n s)).countStripes

/-- Arranges every stripe of the active image. -/
def Dev.arrangeAll (d : Dev) : Dev := (d.image.stripes.map (·.stripe)).foldl (fun d n => d.arrange n) d

/-- The plane count of a girdle tile's container: the `w_fmt` of its stripe product (09 R215). -/
def Dev.container (d : Dev) (m : Nat × Nat) : Nat := ((d.stripeProd m).map fun p => planesOf p.wFmt).getD 0

/-- A tile's rebuild is off: it holds what it is to hold, or another target has been chosen (09 R225, R232, R233). -/
def Dev.rebuildOff (d : Dev) (t : Nat) : Dev := { d with wafer := { d.wafer with rebuilding := d.wafer.rebuilding.filter (· != t) } }

/-- Writes weights and program of a tile of the image from the weight copy into its site (09 R232, R235). -/
def Dev.writeDirect (d : Dev) (r : TileRec) : Dev :=
  ((d.rebuildOff r.tile).onTile r.tile fun x => { x with weights := d.image.tileWeights r }).loadProgram r.tile r.tile

/-- Writes a lost data member from the weight copy (09 R232): into its site where a substitution has given it a working one, else into a free spare of its segment, else into a girdle tile whose container holds the planes of the format and that hosts no member. None where no target remains. -/
def Dev.writeMember (d : Dev) (n : Nat) (r : StripeRec) (i : Nat) : Option Dev :=
  match r.members[i]? with
  | none => some d
  | some m =>
    match d.image.rec? m.1 with
    | none => some d
    | some tr =>
      if d.works m.1 then some (d.writeDirect tr)
      else match d.spareFor m.1 with
      | some s =>
        let x := { d.site s with weights := d.image.tileWeights tr }
        let d1 := (d.rebuildOff m.1).setSite s (x.withProgram tr.progBase (tr.prog.take tr.progBytes) tr.dataTop)
        some (if d.wafer.subst.any fun p => p.1 == m.1 then d1
          else { d1 with wafer := { d1.wafer with subst := d1.wafer.subst ++ [(m.1, s)] } })
      | none =>
        let st := d.stripe n
        match (List.range r.girdle.length).find? fun j => match r.girdle[j]? with
          | some g => d.works g.1 && planesOf r.wFmt ≤ d.container g && !(st.hosted.any fun h => h.2 == j)
          | none => false with
        | none => none
        | some j =>
          match r.girdle[j]? with
          | none => none
          | some g =>
            let d1 := (d.rebuildOff m.1).onTile g.1 fun x => { x with weights := d.image.tileWeights tr }
            some (d1.setStripe n { st with hosted := st.hosted ++ [(i, j)], out := st.out.filter (· != r.members.length + j) })

/-- A stripe without a rebuild: what was under way is dropped. -/
def Stripe.idle (s : Stripe) : Stripe :=
  { s with lost := none, target := 0, nextChunk := 0, complete := false, buffer := [], pageRepair := false, waits := false }

/-- A stripe is lost (09 R232): STRIPE_LOST, a double fault whose detail is the code of the loss, its lost members written from the weight copy; it is LOST until issue resumes, and UNPROTECTED then, or the image stops. -/
def Dev.stripeLost (d : Dev) (n : Nat) (r : StripeRec) (lost : List Nat) (idx t code : Nat) : Dev :=
  let d1 := d.setStripe n { (d.stripe n).idle with state := 3 }
  let who := girdleDetail (if idx < r.members.length then idx else 62) r.stage
  let o := d1.atTile { code := Rc.stripeLost, detail := who, cls := 1, stage := r.stage, outcome := 1, unitKind := 1,
                       unit := d.ptileOf t } t
  let d2 := (d1.raise o).doubleFaulted code
  let res := lost.foldl (fun (acc : Option Dev) i => match acc with
    | some d => d.writeMember n r i
    | none => none) (some d2)
  match res with
  | some d3 => d3.putStripe n (d3.stripe n)
  | none => (d2.putStripe n (d2.stripe n)).wantStop Rc.stripeLost t 0xFFFF

/-- Data members of a stripe that are served by nothing once tile `idx` of it is lost: the member in recovery, a member that a lost girdle tile hosts, and `idx` itself (09 R232). -/
def lostMembers (r : StripeRec) (s : Stripe) (idx : Nat) : List Nat :=
  let m := r.members.length
  let before := match s.lost with
    | some i => if i < m ∧ i ≠ idx then [i] else []
    | none => []
  let host := (s.hosted.filter fun h => h.2 + m == idx).map (·.1)
  before ++ host ++ (if idx < m then [idx] else [])

/-- The state of a stripe whose data members are all served: PROTECTED where every girdle tile holds its planes and hosts no member (09 R223). -/
def Stripe.served (s : Stripe) : Nat := if s.out = [] ∧ s.hosted = [] ∧ s.unsettled = false then 0 else 2

/-- A stripe with no rebuild under way takes up that of a lost girdle tile for which there is a spare (09 R225). -/
def Dev.nextRebuild (d : Dev) (n : Nat) : Dev :=
  let s := d.stripe n
  let canBuild (r : StripeRec) (i : Nat) : Bool := match r.all[i]? with
    | some m => (d.works m.1 || (d.spareFor m.1).isSome) && !(s.hosted.any fun h => h.2 + r.members.length == i)
    | none => false
  match d.stripeRec n with
  | some r => if s.lost.isSome || (s.state ≠ 0 && s.state ≠ 2) then d
    else match s.out.find? (canBuild r) with
    | some i => d.setStripe n { s with lost := some i, target := 1, nextChunk := 0, complete := false }
    | none => d
  | none => d

/-- A stripe enters RECOVERING with data member `i` as k (09 R221, R230): at once after a loss, from the next boundary for a page that is rewritten in place. -/
def Dev.enterRecovery (d : Dev) (n : Nat) (r : StripeRec) (i t target : Nat) (page : Bool) : Dev :=
  (d.putStripe n { (d.stripe n).idle with state := 1, lost := some i, target := target, complete := page, pageRepair := page,
                                          waits := page }).girdleEvent Rc.girdleRecovery r i t

/-- A girdle tile of a stripe whose data members are all served is lost (09 R225): its planes are rebuilt into a spare where there is one, else the stripe is UNPROTECTED. -/
def Dev.girdleLoss (d : Dev) (n i t : Nat) : Dev :=
  let s := d.stripe n
  let out := (s.out.filter (· != i)) ++ [i]
  let spare := (d.spareFor t).isSome
  (d.putStripe n { s.idle with out := out, state := if spare && s.state == 0 then 0 else 2 }).nextRebuild n

/-- Tile `idx` of a stripe serves nothing any more: a girdle tile runs its work, or its planes are gone already. -/
def Stripe.idles (s : Stripe) (m idx : Nat) : Bool :=
  if idx < m then s.hosted.any fun h => h.1 == idx else s.out.contains idx && s.lost != some idx

/-- Tile `idx` of stripe `n` is lost (09 R221, R225, R232, R233). -/
def Dev.stripeLoss (d0 : Dev) (n idx t code : Nat) : Dev :=
  match d0.stripeRec n with
  | none => d0
  | some r =>
    let d := d0.rebuildOff t
    let s := d.stripe n
    let m := r.members.length
    let target := if (d.spareFor t).isSome then 1 else 2
    if s.idles m idx then d
    else if idx < m ∧ ((s.state = 0 ∧ s.lost = none) ∨ (s.state = 1 ∧ s.lost = some idx)) then d.enterRecovery n r idx t target false
    else if m ≤ idx ∧ (s.state = 0 ∨ s.state = 2) ∧ (s.lost = none ∨ s.lost = some idx) ∧ !(s.hosted.any fun h => h.2 + m == idx) then
      d.girdleLoss n idx t
    else
      let s1 := { s with hosted := s.hosted.filter fun h => h.2 + m != idx
                         out := s.out ++ (if m ≤ idx ∧ !s.out.contains idx then [idx] else []) }
      (d.setStripe n s1).stripeLost n r (lostMembers r s idx) idx t code

/-- Stripes that were LOST are UNPROTECTED when issue resumes (09 R232). -/
def Dev.resumeLost (d : Dev) : Dev :=
  if d.img.stop.isSome then d
  else (d.img.stripes.filter fun e => e.2.state == 3).foldl (fun (d : Dev) e =>
    (d.putStripe e.1 { d.stripe e.1 with state := 2 }).nextRebuild e.1) d

end Sys2Proof.Machine
end

