-- ==== Sys2Proof/Machine/Faults.lean ====
section
/-! DEFINITION. Faults and what follows: records against descriptors and their classes (06 R164-R169), interruption and replay (20 R433, R434), quarantine (20 R435), substitution and retirement (01 R20, R21), reserve tiles (08 R206). -/
namespace Sys2Proof.Machine

/-- A record against the descriptor that a tile runs (06 R165, 20 R442). -/
def Dev.descOcc (d : Dev) (t code detail cls outcome : Nat) (addr : Nat := 0) (stream : Option Nat := none) : Occ :=
  let x := d.tile t
  d.atTile { code := code, detail := detail, cls := cls, outcome := outcome, desc := x.seqIndex, sect := x.seqSection,
             stage := x.stage, unitKind := 1, unit := d.ptileOf t, addr := addr, stream := stream } t

/-- A channel that ends at a stopped tile holds nothing for it. -/
def Dev.stopChan (d : Dev) (t : Nat) (e : Nat × Chan) : Nat × Chan :=
  let ends := match d.chanRec e.1 with
    | some r => r.dst != 0xFFFF && d.hostOf r.dst == t
    | none => false
  if ends then (e.1, { e.2 with posted := none, overrun := false, held := [], gather := [] }) else e

/-- Stops a tile's sequencer: DRAM writes already queued complete, its tokens are freed and its entries closed, data that has arrived or arrives is discarded (06 R169). -/
def Dev.haltTile (d : Dev) (t st : Nat) : Dev :=
  let d1 := ((d.tile t).tokens.filter fun k => !k.2.done && k.2.devWrite).foldl (fun d k => d.moveTok t k.2) d
  let d2 := d1.onTile t fun x => { x with seqState := st, todo := [], waitTok := none, waitTree := none, waitEnd := false,
                                          tokens := [], entries := [] }
  { d2 with mesh := { d2.mesh with chans := d2.mesh.chans.map (d2.stopChan t)
                                   packets := d2.mesh.packets.filter fun p => p.id / 8192 / 64 != t } }

/-- Stages whose waves a tile serves in the running beat. -/
def Dev.stagesOn (d : Dev) (t : Nat) : List Nat :=
  let x := d.tile t
  ((List.range 16).filterMap fun i =>
    let (_, stage, v) := x.sectionAt i
    if v && d.serve.waves.any (fun w => w.stage == stage) then some stage else none) ++ [x.stage]

/-- Stages that a tile has still to run in the beat: the current one and those of its sections to come. -/
def Site.stagesLeft (x : Site) : List Nat := x.stage :: x.todo.map fun i => (x.sectionAt i).2.1

/-- The waves of stages are abandoned in this beat: class 1 by a data fault, 2 by an image fault (06 R164). -/
def Dev.abandon (d : Dev) (stages : List Nat) (cls : Nat) : Dev :=
  { d with serve := { d.serve with
      faulted := stages.foldl (fun l s => if l.contains (s, cls) then l else l ++ [(s, cls)]) d.serve.faulted } }

/-- Raises an image fault against the running descriptor: the tile stops, the waves of the stages it had still to run are abandoned, the image stops at the boundary (06 R164, R168, 08 R208). -/
def Dev.imageFault (d : Dev) (t code detail : Nat) : Dev :=
  let x := d.tile t
  let d1 := (d.raise (d.descOcc t code detail 2 3)).haltTile t 3
  (d1.abandon x.stagesLeft 2).wantStop code t x.seqIndex

/-- Raises a data fault against the running descriptor: the waves of the stages on the tile are replayed (06 R164, 20 R434). -/
def Dev.dataFault (d : Dev) (t code detail : Nat) (addr : Nat := 0) (stream : Option Nat := none) (outcome : Nat := 1) : Dev :=
  (d.raise (d.descOcc t code detail 1 outcome addr stream)).abandon (d.stagesOn t) 1

/-- The wave that a stage runs. -/
def Dev.waveAt (d : Dev) (stage : Nat) : Option Wave := d.serve.waves.find? fun w => w.stage == stage

/-- Original entry beat of the wave that a tile's section runs. -/
def Dev.entryOn (d : Dev) (t : Nat) : Nat := ((d.waveAt (d.tile t).stage).map (·.entry)).getD 0

/-- The same place failed in the abandoned attempt of this wave (06 R167, 20 R437). -/
def Dev.failedBefore (d : Dev) (t mark : Nat) : Bool := (d.tile t).lastFaults.contains (mark, d.entryOn t)

/-- Notes the place at which a wave failed. -/
def Dev.noteFailure (d : Dev) (t mark : Nat) : Dev :=
  let e := d.entryOn t
  d.onTile t fun x => { x with lastFaults := (mark, e) :: x.lastFaults }

/-- An image fault of a descriptor that has raised a data fault: data-fault handling; the image stops only if it recurs on the replay (06 R169). -/
def Dev.imageFaultAfterData (d : Dev) (t code detail : Nat) : Dev :=
  let mark := 0x1000000 + code * 0x10000 + (d.tile t).seqIndex
  if d.failedBefore t mark then d.imageFault t code detail
  else
    let d1 := (d.raise (d.descOcc t code detail 2 1)).noteFailure t mark
    (d1.haltTile t 3).abandon (d.stagesOn t) 1

/-- The first stage of the pipeline of a wave. -/
def Wave.start (w : Wave) : Wave := { w with stage := if w.draft then 512 else 0 }

/-- Puts a wave among those to be replayed, in ascending original entry beat (20 R434). -/
def insertReplay (w : Wave) : List Wave → List Wave
  | [] => [w]
  | v :: vs => if w.entry < v.entry then w :: v :: vs else v :: insertReplay w vs

/-- Abandons the waves that a predicate picks: they replay from their first stage with the same columns (20 R434). -/
def Dev.replayWaves (d : Dev) (f : Wave → Bool) : Dev :=
  let hit := d.serve.waves.filter f
  let d1 := { d with serve := { d.serve with
      waves := d.serve.waves.filter fun w => !f w
      replays := hit.foldl (fun l w => insertReplay w.start l) d.serve.replays } }
  if hit.isEmpty then d1 else d1.bump Reg.wavesReplayed hit.length

/-- Every tile stops what it ran for waves that are abandoned; channels and reduction buffers are emptied (06 R168, 20 R434). -/
def Dev.clearBeat (d : Dev) : Dev :=
  { d with
    wafer := { d.wafer with sites := d.wafer.sites.map fun e =>
      (e.1, { e.2 with seqState := 0, todo := [], waitTok := none, waitTree := none, waitEnd := false, tokens := [],
                       entries := [], table := none, curBind := [], kvBind := [], cycles := 0 }) }
    mesh := { d.mesh with chans := d.mesh.chans.filterMap fun e => e.2.detour.map fun hs => (e.1, { detour := some hs })
                          redBufs := [], packets := [] }
    serve := { d.serve with sampled := [], faulted := [] } }

/-- A fault interrupts issue: every wave in flight is abandoned and issue is held until the reconfiguration ends (20 R433, R434). In a beat that runs, the tiles run on to their END_SECTION and its end puts the waves among the replays (06 R169). -/
def Dev.interrupt (d : Dev) : Dev :=
  if !d.imgActive then d
  else if d.serve.between then (d.dropsDue.replayWaves fun _ => true).hold 4
  else (d.abandon (d.serve.waves.map (·.stage)) 1).hold 4

/-- The reserve tile that takes the work of a tile: the lowest free one of its own field, else of the field with the most free, the lowest index breaking ties (08 R206). -/
def Dev.pickReserve (d : Dev) (k : Nat) : Option Nat :=
  match d.reserveFree (fieldOf k) with
  | r :: _ => some r
  | [] =>
    let best := (List.range 36).foldl (fun (b : Nat × Nat) n =>
      let c := (d.reserveFree n).length
      if b.2 < c then (n, c) else b) (0, 0)
    (d.reserveFree best.1).head?

/-- Assigns a reserve tile to a tile's work; it takes effect at the next boundary. Where none is free anywhere, a tile that held no weights stops the image (20 R436). -/
def Dev.assignReserve (d : Dev) (k code : Nat) : Dev :=
  let d0 := { d with wafer := { d.wafer with resMap := d.wafer.resMap.filter fun p => p.1 != k
                                             resPending := d.wafer.resPending.filter fun p => p.1 != k } }
  match d0.pickReserve k with
  | some r => { d0 with wafer := { d0.wafer with resPending := d0.wafer.resPending ++ [(k, r)] } }
  | none =>
    match d.image.rec? k with
    | some r => if r.role = 1 then (d0.doubleFaulted code).wantStop code k 0xFFFF else d0
    | none => d0

/-- The compute-only tiles whose work a tile runs: itself, and those it stands in for as a reserve tile (08 R204, R206). -/
def Dev.looseWork (d : Dev) (t : Nat) : List Nat :=
  let own := match d.image.rec? t with
    | some r => r.role == 1 && !(d.wafer.resMap.any fun p => p.1 == t)
    | none => false
  (if own then [t] else []) ++ (d.wafer.resMap.filter fun p => p.2 == t).map (·.1)
    ++ (d.wafer.resPending.filter fun p => p.2 == t).map (·.1)

/-- A lost embedding tile is served from the weight copy in DRAM from now on (09 R237). -/
def Dev.serveTile (d : Dev) (t : Nat) : Dev :=
  if d.wafer.served.contains t then d
  else ({ d with wafer := { d.wafer with served := d.wafer.served ++ [t] } }.onTile t fun _ => {}).loadProgram t t

/-- An embedding tile stands on a site again: DRAM fetches end (09 R237). -/
def Dev.unserveTile (d : Dev) (t : Nat) : Dev :=
  { d with wafer := { d.wafer with served := d.wafer.served.filter (· != t), sites := AMap.erase (65536 + t) d.wafer.sites } }

/-- Covers the work of a lost tile (20 R435, 09 R221, R225, R237, 08 R206). -/
def Dev.coverTile (d : Dev) (t code : Nat) : Dev :=
  if d.img.active.isNone then d
  else
    let d1 := (d.stripesOf t).foldl (fun (d : Dev) e => d.stripeLoss e.1 e.2 t code) d
    (d1.looseWork t).foldl (fun d k => d.assignReserve k code) (if d1.isEmbedding t then d1.serveTile t else d1)

/-- A quarantined tile moves to the lowest free spare at the next boundary, or is retired at once (01 R20, R21). Either is a change of the repair map, which takes a journal flash package (R22): without one the tile stays quarantined on its site. -/
def Dev.moveOrRetire (d : Dev) (t : Nat) : Dev :=
  if d.pwr.packages = [] then d
  else match d.spareFor t with
  | some s =>
    if d.wafer.subst.any fun p => p.1 == t then d
    else { d with wafer := { d.wafer with subst := d.wafer.subst ++ [(t, s)] } }
  | none =>
    if d.wafer.lostFields.contains (fieldOf t) then d
    else
      let d1 := d.raise (d.atTile { code := Rc.tileRetired, detail := posOf t, source := 1, unitKind := 1, unit := d.ptileOf t } t)
      let d2 := d1.changeTable (segOf t) (withRetired (d1.table (segOf t)) (posOf t))
      { d2 with wafer := { d2.wafer with quarantined := d2.wafer.quarantined.filter (· != t) } }

/-- Quarantines a tile for a cause (20 R435). -/
def Dev.quarantine (d : Dev) (t cause : Nat) : Dev :=
  if d.wafer.quarantined.contains t || (d.physOf t).isNone then d
  else
    let d1 := d.haltTile t 3
    let d2 := { d1 with wafer := { d1.wafer with quarantined := d1.wafer.quarantined ++ [t]
                                                 sensorOut := d1.wafer.sensorOut ++ [d.ptileOf t] } }
    let d3 := d2.raise (d2.atTile { code := Rc.tileQuarantined, detail := cause, source := 1, unitKind := 1,
                                    unit := d.ptileOf t, outcome := 2 } t)
    ((d3.interrupt.onTile t fun x => { x with cache := [] }).coverTile t cause).moveOrRetire t

end Sys2Proof.Machine
end

