-- ==== Sys2Proof/Machine/Tile.lean ====
section
/-! DEFINITION. The tile sequencer: when a descriptor issues, the checks that every descriptor passes, the hazards of tokens, and what follows a descriptor (06 R137-R148, R163-R169). -/
namespace Sys2Proof.Machine

/-- What a descriptor comes to at issue. -/
inductive Issue where
  /-- it does not start: an image fault with this code and detail -/
  | refuse (code detail : Nat)
  /-- the device after it -/
  | run (d : Dev)
  deriving DecidableEq, Repr

/-- The sequencer takes the next descriptor: it is not gated (09 R216), and it runs or waits for room in a queue or channel (06 R142). -/
def Site.ready (x : Site) : Bool :=
  !x.gated && (x.seqState == 1 || (x.seqState == 2 && x.waitTok.isNone && x.waitTree.isNone && !x.waitEnd))

/-- The next descriptor becomes the one to run; nothing where the tile was stopped meanwhile. -/
def Dev.nextDesc (d : Dev) (t : Nat) : Dev :=
  d.onTile t fun x => if x.seqState = 1 ∨ x.seqState = 2 then
    { x with seqState := 1, seqIndex := x.seqIndex + 1, waitTok := none, waitTree := none, waitEnd := false } else x

/-- The sequencer waits (06 R142, R145). -/
def Dev.waitDesc (d : Dev) (t : Nat) (tok tree : Option Nat) (fin : Bool) : Dev :=
  d.onTile t fun x => { x with seqState := 2, waitTok := tok, waitTree := tree, waitEnd := fin }

/-- The device address of a word of a tile's working SRAM (01 R31). -/
def sramAddr (t off : Nat) : Nat := 0x100000000000 + t * 0x400000 + 0x200000 + off

/-- Raises WSRAM_UNCORRECTABLE; the tile is quarantined where the wave's earlier attempt met the same offset (20 R437). -/
def Dev.sramFault (d : Dev) (t off : Nat) : Dev :=
  if d.failedBefore t off then
    (d.dataFault t Rc.wsramUncorrectable (off / 64) (sramAddr t off) none 2).quarantine t Rc.wsramUncorrectable
  else (d.dataFault t Rc.wsramUncorrectable (off / 64) (sramAddr t off)).noteFailure t off

/-- A descriptor fetch that corrects a single-bit error runs on and is counted (06 R138). -/
def Dev.countCorr (d : Dev) (m : Met) : Dev := if m.descCorr then { d with wafer := { d.wafer with descCorr := d.wafer.descCorr + 1 } } else d

/-- A descriptor that has been fetched: a fetch beyond `prog_bytes` first (06 R165); then `body` on the descriptor with the row's opcode in bits [5:0]. `body` learns whether a data fault of the same descriptor stands (06 R169). -/
def Dev.issueFetched (dv : Dev) (t op : Nat) (desc : Desc) (m : Met) (body : Bool → Nat → Dev → Issue) : Dev :=
  let x := dv.tile t
  if x.progBytes < 64 + 16 * (x.seqIndex + 1) then dv.imageFault t Rc.descInvalid 0x08
  else
    let n := desc.toNat / 64 * 64 + op
    match body false n dv with
    | .refuse c det => dv.imageFault t c det
    | .run d1 =>
      match m.sramBad with
      | none => d1
      | some off =>
        if dv.failedBefore t off then dv.sramFault t off
        else match body true n (dv.sramFault t off) with
          | .run d2 => d2
          | .refuse c det => (dv.sramFault t off).imageFaultAfterData t c det

/-- A descriptor at the front of a tile's section: nothing where the tile's sequencer takes none; DESC_ECC first (06 R163, R165). -/
def Dev.issue (dv : Dev) (t op : Nat) (desc : Desc) (m : Met) (body : Bool → Nat → Dev → Issue) : Dev :=
  let x := dv.tile t
  if (dv.seatOf t).isNone || !x.ready then dv
  else if m.descEcc then
    (dv.dataFault t Rc.descEcc x.seqIndex 0 none 2).quarantine t Rc.descEcc
  else (dv.countCorr m).issueFetched t op desc m body

/-- The lowest bit of a descriptor's reserved ranges (low bit, width) that is set (06 R148). -/
def reservedBit (n : Nat) (rs : List (Nat × Nat)) : Option Nat :=
  (rs.find? fun r => bitsOf n r.1 r.2 != 0).bind fun r => ((List.range r.2).map (· + r.1)).find? fun b => bitOf n b

/-- A detail of DESC_INVALID: reason and lowest bit of the field (06 R166). -/
def invalid (reason field : Nat) : Option (Nat × Nat) := some (Rc.descInvalid, reason + 256 * field)

/-- A check of a descriptor: the fault where the condition holds. -/
def fault? (c : Bool) (code detail : Nat) : Option (Nat × Nat) := if c then some (code, detail) else none

/-- A check against DESC_INVALID. -/
def invalid? (c : Bool) (reason field : Nat) : Option (Nat × Nat) := if c then invalid reason field else none

/-- Reserved bits as a check. -/
def reserved? (n : Nat) (rs : List (Nat × Nat)) : Option (Nat × Nat) := (reservedBit n rs).bind fun b => invalid 0x01 b

/-- The first check that fails. -/
def firstFault : List (Option (Nat × Nat)) → Option (Nat × Nat)
  | [] => none
  | some f :: _ => some f
  | none :: fs => firstFault fs

/-- Two ranges overlap. -/
def overlaps (a n b m : Nat) : Bool := n != 0 && m != 0 && a < b + m && b < a + n

/-- What is wrong with a local range: 1 alignment, 2 outside the general region, 3 on the program (06 R149, R165). -/
def localBad (progBase progBytes base n : Nat) : Option Nat :=
  if base % 64 ≠ 0 then some 1
  else if Config.tableBase < base + n then some 2
  else if overlaps base n progBase progBytes then some 3
  else none

/-- A local range of a compute descriptor (06 R165 BLOCK_MISALIGNED). -/
def computeRange (x : Nat × Nat) (base n : Nat) : Option (Nat × Nat) :=
  (localBad x.1 x.2 base n).map fun k => (Rc.blockMisaligned, if k = 1 then 3 else 4)

/-- A local range of a transfer (06 R165 LOCAL_RANGE). -/
def transferRange (x : Nat × Nat) (base n : Nat) : Option (Nat × Nat) :=
  (localBad x.1 x.2 base n).map fun k => (Rc.localRange, k)

/-- The program range of a site. -/
def Site.prog (x : Site) : Nat × Nat := (x.progBase, x.progBytes)

/-- BUFFER_HAZARD of a compute descriptor: a local or residual-file range overlaps that of an issued token (06 R147). -/
def computeHazard (x : Site) (ranges : List (Nat × Nat)) (resid : Option (Nat × Nat)) : Option (Nat × Nat) :=
  (x.tokens.find? fun k => if k.2.resid then
      (match resid with
        | some r => overlaps r.1 r.2 k.2.lo k.2.len
        | none => false)
    else ranges.any fun r => overlaps r.1 r.2 k.2.lo k.2.len).map fun k => (Rc.bufferHazard, k.1)

/-- BUFFER_HAZARD of a transfer (06 R147): overlap with an issued token where either writes local memory. -/
def transferHazard (x : Site) (lo len : Nat) (writes resid : Bool) : Option (Nat × Nat) :=
  (x.tokens.find? fun k => k.2.resid == resid && (writes || k.2.writesLocal) && overlaps lo len k.2.lo k.2.len).map
    fun k => (Rc.bufferHazard, k.1)

/-- DRAM_HAZARD (07 R189): a device range overlaps that of a token of the same tile that is not done, and one of the two writes. -/
def dramHazard (x : Site) (ranges : List (Nat × Nat)) (write : Bool) : Option (Nat × Nat) :=
  (x.tokens.find? fun k => !k.2.done && (write || k.2.devWrite) &&
    ranges.any fun r => (tokRanges x k.2).any fun q => overlaps r.1 r.2 q.1 q.2).map fun k => (Rc.dramHazard, k.1)

/-- Requests that a queue of a tile holds; read and write queues are apart (07 R187). -/
def Site.queued (x : Site) (queue : Nat) (write : Bool) : Nat :=
  (x.tokens.filter fun k => !k.2.done && 0x12 ≤ k.2.op && k.2.queue == queue && k.2.devWrite == write).length

/-- Statistics of a tile for a stage that it serves (05 R128). -/
def Dev.stat (d : Dev) (t stage : Nat) (f : StageStat → StageStat) : Dev :=
  { d with img := { d.img with stats := AMap.modify {} d.img.stats (t * 1024 + stage) f } }

/-- An event against the descriptor that a tile runs (06 R164). -/
def Dev.descEvent (d : Dev) (t code detail : Nat) : Dev := d.raise (d.descOcc t code detail 0 0)

/-- FORMAT_NONFINITE for each column named, counted (02 R54, 05 R128). -/
def Dev.nonfinite (d : Dev) (t : Nat) (cols : List Nat) : Dev :=
  cols.foldl (fun d c => (d.descEvent t Rc.formatNonfinite c).stat t (d.tile t).stage fun s =>
    { s with nonfinite := s.nonfinite + 1 }) d

/-- Array cycles that the section has taken (03 R85); a product descriptor has run (05 R133). -/
def Dev.addCycles (d : Dev) (t n : Nat) : Dev := d.onTile t fun x => { x with cycles := x.cycles + n, ranProduct := true }

/-- An entry of a site; none while it is not open. -/
def Site.entry? (x : Site) (i : Nat) : Option Entry := (AMap.find x.entries i).filter (·.isOpen)

/-- Sets entries from index `i` on. -/
def setEntries (m : List (Nat × Entry)) (i : Nat) : List Entry → List (Nat × Entry)
  | [] => m
  | e :: es => setEntries (AMap.insert i e m) (i + 1) es

/-- The weight store that a tile's products read: its own; for a lost embedding tile the weight copy in DRAM (09 R237). -/
def Dev.weightsOf (d : Dev) (t : Nat) : Mem :=
  if d.wafer.served.contains t then
    match d.image.rec? t with
    | some r => d.image.tileWeights r
    | none => []
  else (d.tile t).weights

/-- A member's or girdle tile's share of a weight, scaled (09 R214, R226). -/
def Dev.shareOf (d : Dev) (m : Nat × Nat) (r k : Nat) : Int :=
  match d.stripeProd m with
  | some p => p.weight (d.tile m.1).weights r k * 3 ^ p.planeBase
  | none => 0

/-- The girdle code's reconstruction of tile `i` of a stripe: parity less the other members; for a girdle tile, the sum of the members (09 R226). -/
def Dev.decodeWeight (d : Dev) (s : StripeRec) (i r k : Nat) : Int :=
  let members := (List.range s.members.length).foldl (fun acc j =>
    if j = i then acc else acc + (match s.members[j]? with
      | some m => d.shareOf m r k
      | none => 0)) 0
  if i < s.members.length then s.girdle.foldl (fun acc g => acc + d.shareOf g r k) 0 - members else members

/-- The weights of another stripe's product in the program of a member that a girdle tile runs: decoded while that stripe is in recovery too (09 R226), else those of the tile that holds the member's share of that stripe (09 R229; log entry 33). None where the tile's own store holds them. -/
def Dev.standIn (d : Dev) (t i : Nat) : Option (Nat → Nat → Int) :=
  let g := d.guestOf t
  (d.originOf t i).bind fun idx =>
  let read (m : Nat × Nat) (u : Nat) : Option (Nat → Nat → Int) :=
    if u = t then none else (d.stripeProd m).map fun p => fun r k => p.weight (d.tile u).weights r k * 3 ^ p.planeBase
  if g = t then none
  else match d.image.stripes.find? fun s => s.members.any fun m => m.1 == g && m.2 == idx with
    | none => none
    | some s =>
      let st := d.stripe s.stripe
      let i := s.members.findIdx fun m => m.1 == g && m.2 == idx
      if st.state = 1 ∧ st.lost = some i ∧ !st.waits then some fun r k => d.decodeWeight s i r k
      else match (st.hosted.find? fun h => h.1 == i).bind fun h => s.girdle[h.2]? with
        | some e => read (g, idx) e.1
        | none => read (g, idx) g

/-- The binding of a causal descriptor's rows (10 R252): the fetch's column, block, first byte, layer and bytes. -/
def Site.fetchBind (x : Site) (base : Nat) : Option (Nat × Nat × Nat × Nat × Nat) :=
  (x.kvBind.find? fun b => b.1 == base).map (·.2)

/-- Row `i` of fetched rows and its position (10 R252). -/
def fetchedPos (block off r i : Nat) : Nat := 256 * block + off / r % 256 + i

/-- Rows of a causal product that are skipped, and (row, column) pairs that are masked (10 R253, R254). `base` is the trit operand's local address. -/
def Dev.causalMask (d : Dev) (t base rows cols : Nat) : List Nat × List (Nat × Nat) :=
  let x := d.tile t
  let pairs := (List.range rows).flatMap fun i => (List.range cols).map fun c => (i, c)
  match x.fetchBind base with
  | some (col, block, off, layer, _) =>
    let f := x.col col
    let p0 := if f.valid then lowestPos x.cols f.stream else none
    let pos := fetchedPos block off (d.rowBytes layer)
    ((List.range rows).filter fun i => rowSkipped p0 (pos i),
     pairs.filter fun p =>
       let c := x.col p.2
       !f.valid || !c.valid || c.stream != f.stream || (match p0 with
         | some q => q ≤ pos p.1
         | none => true))
  | none =>
    ([], pairs.filter fun p =>
      let i := x.col p.1
      let c := x.col p.2
      !i.valid || !c.valid || i.stream != c.stream || c.position < i.position)

end Sys2Proof.Machine
end

