-- ==== Sys2Proof/Machine/Compute.lean ====
section
/-! DEFINITION. The compute descriptors: MATMUL_TABLE, MATMUL_DIRECT, LOG_PRODUCT, REDUCE, REQUANT, FACET_OP and SAMPLE (06 R150-R158, 03 R68-R90, 04 R92-R113, 05 R116-R127, 11 R287, R288). -/
namespace Sys2Proof.Machine

/-- A check turned into the fault of a descriptor, or what it does where no check fails. -/
def issueOr (checks : List (Option (Nat × Nat))) (run : Unit → Dev) : Issue :=
  match firstFault checks with
  | some f => .refuse f.1 f.2
  | none => .run (run ())

/-- Pipeline latency of the array: 5 on B0, 7 on A1 (03 R87). -/
def Dev.arrayLatency (d : Dev) : Nat := if d.rd Reg.stepping = 0 then 7 else 5

/-- Entries from `i`, `n` of them, that a descriptor adds to: none not open, a tag that differs, a class that differs (06 R152, R166); `field` is the entry field's low bit. -/
def entryChecks (x : Site) (i n field tag : Nat) (cls : AccClass) : List (Option (Nat × Nat)) :=
  let es := (List.range n).map fun j => x.entry? (i + j)
  [invalid? (es.any (·.isNone)) 0x07 field,
   fault? (es.any fun e => (e.map (·.tag)).getD tag != tag) Rc.formatMismatch tag,
   invalid? (es.any fun e => (e.map (·.cls)).getD cls != cls) 0x0A 0]

/-- The checks of a product descriptor that depend on it alone (06 R148, R150, R151, R153, R165). -/
def prodStatic (pr : Nat × Nat) (p : ProdDesc) (n stride : Nat) : List (Option (Nat × Nat)) :=
  let planes := planesOf p.wFmt
  let c := p.cols
  [reserved? n [(13, 1), (127, 1)],
   invalid? (10 < p.planeBase + planes - 1) 0x02 24,
   invalid? (p.rows == 0) 0x02 28,
   invalid? (p.k == 0 || 2 ^ 20 < p.k) 0x02 43,
   invalid? (!p.direct && p.fresh && p.bandUnits == 0) 0x02 117,
   invalid? (planes == 0 || (!p.wSram && !isWeightFmt p.wFmt)) 0x03 16,
   invalid? (p.xFmt ≤ 1 || p.xFmt == Fmt.f32 || p.xFmt == Fmt.l8 || p.xFmt == Fmt.l16 || p.xFmt == 15 ||
     (!p.direct && p.xFmt == Fmt.f8a)) 0x03 20,
   invalid? (p.direct && p.fresh) 0x04 8,
   invalid? (p.direct && p.reuse) 0x04 9,
   invalid? (!p.direct && p.wSram) 0x04 10,
   invalid? (p.causal && (!p.direct || !p.wSram)) 0x04 11,
   invalid? (p.fresh && !p.accOpen) 0x04 12,
   invalid? (!p.fresh && p.bandUnits != 0) 0x04 117,
   (if p.fresh then fault? (8192 < 8 * p.bandUnits * c) Rc.accCapacity (8 * p.bandUnits * c - 8192)
    else fault? (8192 < p.accBase + p.rows * c) Rc.accCapacity (p.accBase + p.rows * c - 8192)),
   fault? (!p.wSram && p.wBase % 256 != 0) Rc.blockMisaligned 1,
   fault? (!p.wSram && Config.weightBytes < p.wBase + p.streamBytes) Rc.blockMisaligned 2,
   computeRange pr p.xBase (c * colBytes p.xFmt p.k),
   (if p.wSram then computeRange pr p.wBase ((p.rows - 1) * stride + vecSize p.wFmt p.k) else none),
   (if p.fresh then computeRange pr (64 * p.accBase) (8 * p.rows * c) else none)]

/-- TABLE_STALE (03 R71, 06 R165): the valid set does not suit a descriptor that reuses it. -/
def tableStale (x : Site) (p : ProdDesc) : Option (Nat × Nat) :=
  if !p.reuse then none
  else match x.table with
    | none => some (Rc.tableStale, 1)
    | some s =>
      if s.xBase ≠ p.xBase then some (Rc.tableStale, 2)
      else if s.xFmt ≠ p.xFmt then some (Rc.tableStale, 3)
      else if s.cols ≠ p.cols then some (Rc.tableStale, 4)
      else if s.shape ≠ p.shape then some (Rc.tableStale, 5)
      else none

/-- Local ranges of a product: activations, trit operand in working SRAM, output under fresh. -/
def prodRanges (p : ProdDesc) (stride : Nat) : List (Nat × Nat) :=
  [(p.xBase, p.cols * colBytes p.xFmt p.k)] ++
    (if p.wSram then [(p.wBase, (p.rows - 1) * stride + vecSize p.wFmt p.k)] else []) ++
    (if p.fresh then [(64 * p.accBase, 8 * p.rows * p.cols)] else [])

/-- Bytes from one row of the trit operand to the next: for fetched rows of a causal product, the layer's row bytes (10 R252). -/
def Dev.prodStride (d : Dev) (t : Nat) (p : ProdDesc) : Nat :=
  match (if p.causal then (d.tile t).fetchBind p.wBase else none) with
  | some b => d.rowBytes b.2.2.2.1
  | none => p.rowStride

/-- The pages of the KV_FETCH transfers whose local ranges overlap a range, the latest first. -/
def Dev.operandPages (d : Dev) (t base n : Nat) : List Pte :=
  let x := d.tile t
  (x.kvBind.filter fun e => overlaps e.1 e.2.2.2.2.2 base n).filterMap fun e =>
    let p := d.kvEntry (x.col e.2.1).stream e.2.2.2.2.1 e.2.2.1
    if p.hasFrame then some p else none

/-- OPERAND_CODE_INVALID at a local offset of an operand that takes `n` bytes from `base` (06 R167): cached copies of the pages that overlap the operand go; on a repeat at the same operand the page that the offset came from is dropped, or the tile is quarantined. -/
def Dev.operandFault (d : Dev) (t off base n : Nat) : Dev :=
  let d1 := (d.operandPages t base n).foldl (fun (d : Dev) p => d.uncache p.frame) d
  if d1.failedBefore t (0x200000 + off) then
    match (d.operandPages t off 1).head? with
    | some p => (d1.dataFault t Rc.operandCodeInvalid (off / 64) (sramAddr t off)).dropSoon p
    | none => (d1.dataFault t Rc.operandCodeInvalid (off / 64) (sramAddr t off) none 2).quarantine t Rc.operandCodeInvalid
  else (d1.dataFault t Rc.operandCodeInvalid (off / 64) (sramAddr t off)).noteFailure t (0x200000 + off)

/-- A reduce descriptor (06 R155). -/
structure RedDesc where
  srcSel : Nat
  dstSram : Bool
  wideOut : Bool
  tree : Nat
  src : Nat
  count : Nat
  dst : Nat
  deriving DecidableEq, Repr

/-- The fields of a reduce descriptor (06 R155). -/
def redDesc (n : Nat) : RedDesc :=
  { srcSel := bitsOf n 6 2, dstSram := bitOf n 8, wideOut := bitOf n 9, tree := bitsOf n 10 16, src := bitsOf n 26 19,
    count := bitsOf n 45 13 + 1, dst := bitsOf n 58 19 }

/-- A maximum or minimum tree (04 R107). -/
def TreeRec.best (tr : TreeRec) : Bool := tr.cls == 3 || tr.cls == 4

/-- A node is the root that writes the result: it has no parent and stands at no boundary (04 R107). -/
def NodeRec.isRoot (n : NodeRec) : Bool := n.parent == 0xFFFF && n.kind != 1

/-- The peer device to which a node's result leaves: its own where the boundary is the last entry, its parent's where that is a boundary (04 R107). -/
def TreeRec.peerOf (tr : TreeRec) (n : NodeRec) : Option Nat :=
  if n.parent = 0xFFFF then (if n.kind = 1 then some n.device else none)
  else match tr.nodes[n.parent]? with
    | some q => if q.kind = 1 then some q.device else none
    | none => none

/-- The reduction buffer of a node: at most one for a tile and tree. -/
def Dev.redBuf (d : Dev) (g tree : Nat) : RedBuf :=
  (d.mesh.redBufs.find? fun b => b.tile == g && b.tree == tree).getD { tile := g, tree := tree }

/-- Sets a reduction buffer. -/
def Dev.setRedBuf (d : Dev) (b : RedBuf) : Dev :=
  { d with mesh := { d.mesh with redBufs := b :: d.mesh.redBufs.filter fun x => !(x.tile == b.tile && x.tree == b.tree) } }

/-- Empties a reduction buffer. -/
def Dev.dropRedBuf (d : Dev) (g tree : Nat) : Dev :=
  { d with mesh := { d.mesh with redBufs := d.mesh.redBufs.filter fun x => !(x.tile == g && x.tree == tree) } }

/-- A partial of a maximum or minimum tree from an entry: its index is the element's number (DEDUCED, log entry 40). -/
def bestPartial (i : Nat) (p : Partial) : Partial :=
  if p.kind = 3 then pairPartial p.tag p.value i else { p with kind := 2, idx := i }

/-- The local partials of a REDUCE (06 R155). -/
def redLocal (x : Site) (tr : TreeRec) (p : RedDesc) : List Partial :=
  (List.range p.count).map fun i =>
    if p.srcSel = 0 then
      let q := ((x.entry? (p.src % 8192 + i)).getD {}).partial_
      if tr.best then bestPartial i q else q
    else if p.srcSel = 2 then
      pairPartial tr.tag (of32 (memNat x.sram (p.src + 8 * i) 4)) (memNat x.sram (p.src + 8 * i + 4) 4)
    else if tr.best then partialPairOf (memNat x.sram (p.src + 16 * i) 8) (memNat x.sram (p.src + 16 * i + 8) 8)
    else partialOf (memNat x.sram (p.src + 8 * i) 8)

/-- The accumulation class of an entry in which a tree's result lands: that of its source entries, else by tag (04 R93). -/
def redClass (x : Site) (tr : TreeRec) (p : RedDesc) (q : Partial) : AccClass :=
  match (if p.srcSel = 0 then x.entry? (p.src % 8192) else none) with
  | some e => e.cls
  | none =>
    if q.kind = 3 then .log
    else if tr.tag = Fmt.l16 then .antilog
    else if tr.tag = Fmt.f8a then .f8a
    else if isWindowed tr.tag || q.exp != 0 then .windowed
    else .integer

/-- The entry that a root writes. A sum of zero is written as significand 0 with its exponent, and is not an empty entry in the sense of 04 R97 (DESIGN CHOICE, log entry 104). -/
def redEntry (cls : AccClass) (q : Partial) : Entry :=
  { sig := some (if q.kind = 3 then 0 else q.sig), exp := q.exp, tag := q.tag, cls := cls, isOpen := true,
    masked := q.kind == 2 && q.vclass == 2, special := if q.kind = 2 ∧ q.vclass ≠ 2 then q.vclass else 0,
    levels := if q.kind = 3 then [some q.sig.toNat] else [] }

/-- Bytes of an element that a root writes to working SRAM (06 R155, 04 R109). -/
def redOutSize (tr : TreeRec) (p : RedDesc) : Nat :=
  if tr.best then (if p.wideOut then 16 else 8) else if tr.wide && !p.wideOut then 4 else 8

/-- What is wrong with inputs that have arrived for a node: their element count, their tag (06 R155, 04 R106). -/
def inputFault (tr : TreeRec) (count : Nat) (inputs : List (Nat × List Partial)) : Option (Nat × Nat) :=
  firstFault (inputs.map fun i =>
    if i.2.length ≠ count then some (Rc.reductionUnexpected, i.1)
    else (i.2.find? fun p => p.tag != tr.tag).map fun p => (Rc.formatMismatch, p.tag))

/-- The flits of a result, each of 64 bytes: eight partials of 8 bytes, or four pairs of 16 (04 R105, R106, 07 R171). -/
def resultFlits (per : Nat) : Nat → List Partial → List ChFlit
  | 0, _ => []
  | n + 1, ps => { parts := ps.take per, last := (ps.drop per).isEmpty, bytes := (ps.take per).flatMap (·.bytes) } ::
      (if (ps.drop per).isEmpty then [] else resultFlits per n (ps.drop per))

/-- A node's result leaves over its reduction channel, `per` partials to a flit (04 R104, 07 R175). -/
def Dev.sendResult (d : Dev) (tree node per : Nat) (rs : List Partial) : Dev :=
  match d.edgeChan tree node with
  | some c => d.setChan c { d.chan c with flight := (d.chan c).flight ++ resultFlits per rs.length rs }
  | none => d

/-- A node whose inputs are all folded: the root writes its result, another node sends it on (04 R104, 06 R155); the nodes of a recovery tree add exactly, and its root adds the lost member's partials to its entries (09 R220). -/
def Dev.redFinish (d : Dev) (g : Nat) (tr : TreeRec) (i : Nat) (nd : NodeRec) (b : RedBuf) : Dev :=
  let t := d.hostOf g
  let p := redDesc b.desc
  let x := d.tile t
  let parts := (List.range p.count).map fun e => foldOrder (b.loc.getD []) b.inputs e
  let d0 := d.dropRedBuf g tr.id
  let d1 :=
    if b.exact then
      let rs := sumExact (b.loc.getD []) b.inputs
      if nd.isRoot then
        let es := recoveredEntries (x.exact.take p.count) rs
        d0.onTile t fun y => if p.dstSram then writeSram y p.dst (es.flatMap fun e => e.partial_.bytes)
          else { y with entries := setEntries y.entries (p.dst % 8192) es }
      else d0.sendResult tr.id i 8 rs
    else if nd.isRoot then
      if tr.wide then
        d0.onTile t fun x => writeSram x p.dst (parts.flatMap fun ps =>
          if p.wideOut then leBytes 8 (widePartial ps).word else leBytes 4 (code32 (wideF32 ps)))
      else
        let rs := parts.map (foldNode tr.cls true)
        if p.dstSram then
          d0.onTile t fun x => writeSram x p.dst (rs.flatMap fun q =>
            if tr.best && !p.wideOut then pairBytes (round32 q.value) q.idx else q.bytes)
        else
          let es := rs.map fun q => redEntry (redClass x tr p q) q
          d0.onTile t fun y => { y with entries := setEntries y.entries (p.dst % 8192) es }
    else
      let rs := parts.map (foldNode tr.cls false)
      match tr.peerOf nd with
      | some dev => d0.sendMsg 1 dev (leBytes 1 2 ++ leBytes 2 (d.rd Reg.fabDevice) ++ leBytes 2 tr.id ++ leBytes 2 nd.slot ++ rs.flatMap (·.bytes))
      | none => d0.sendResult tr.id i (if tr.best then 4 else 8) rs
  if b.tap then d1 else d1.nextDesc t

/-- Finishes a node that has started once all its inputs are there (04 R104). -/
def Dev.redTry (d : Dev) (g tree : Nat) : Dev :=
  match d.treeRec tree with
  | none => d
  | some tr =>
    match tr.nodeOf g with
    | none => d
    | some (i, nd) =>
      let b := d.redBuf g tree
      if (b.tap || (d.tile (d.hostOf g)).waitTree == some tree) && b.loc.isSome &&
          ((tr.inputsOf i).all fun q => b.inputs.any fun p => p.1 == q.1) then d.redFinish g tr i nd b
      else d

/-- The tap of a surviving member sends its partials into its node of the recovery tree (09 R220). -/
def Dev.tapSend (d : Dev) (t tree : Nat) (ps : List Partial) : Dev :=
  (d.setRedBuf { d.redBuf t tree with loc := some ps, tap := true, exact := true }).redTry t tree

/-- A tree is that of a stripe in recovery (09 R220). -/
def Dev.recoveryTree (d : Dev) (tree : Nat) : Bool :=
  d.image.stripes.any fun r => r.treeId == tree && (d.recovering r.stripe).isSome

/-- Writes the entries of a product, and under fresh its partial words (06 R151, R152). -/
def prodEntries (p : ProdDesc) (es : List Entry) (x : Site) : Site :=
  if p.fresh then
    let band := p.bandRows * p.cols
    let done := es.drop ((p.bands - 1) * band)
    let rest := List.replicate (band - done.length) (openEntry p.cls p.xFmt p.openExp)
    writeSram { x with entries := setEntries x.entries 0 (done ++ rest) } (64 * p.accBase)
      (es.flatMap fun e => leBytes 8 e.partial_.word)
  else { x with entries := setEntries x.entries p.accBase es }

/-- The table file and the table set after a product (03 R71). -/
def prodTables (p : ProdDesc) (cw : List (List Window)) (valid : Nat) (x : Site) : Site :=
  if p.direct then { x with table := none }
  else if p.reuse then x
  else
    { x with sram := p.tableFile cw x.sram
             table := if p.k ≤ kWindow p.shape && slicesOf p.xFmt == 1 then
               some { xBase := p.xBase, xLen := p.cols * colBytes p.xFmt p.k, k := p.k, xFmt := p.xFmt, cols := p.cols,
                      shape := p.shape, valid := valid }
             else none }

/-- What a product does for a recovery tree (09 R220): on a surviving data member with a tap the negation of its exact partials goes to its node, on a girdle tile the exact partials stand ready for REDUCE; else nothing. -/
def Dev.recoveryPart (d : Dev) (t : Nat) (p : ProdDesc) (exact : Unit → List (Entry × List Partial)) : Dev :=
  let i := (d.tile t).seqIndex
  match (d.tile t).taps.find? fun e => e.1 == i with
  | some e => match (d.stripeRec e.2).map (·.treeId) with
    | some tree => d.tapSend t tree ((exact ()).flatMap fun x => x.2.map (·.neg))
    | none => d
  | none => if !p.wSram && d.recoveryProduct t i then d.onTile t fun x => { x with exact := exact () } else d

/-- Forms a product: entries, tables, cycles, events and data faults (03 R68-R80, 06 R150-R152, R167). One that reuses a table set takes the activations as the set was built, zeros beyond its K (03 R71), and lets no new value enter a window (02 R54). -/
def Dev.product (d : Dev) (t : Nat) (p : ProdDesc) : Dev :=
  let x := d.tile t
  let stride := d.prodStride t p
  let (skipped, masked) := if p.causal then d.causalMask t p.wBase p.rows p.cols else ([], [])
  let (valid, built) := match (if p.reuse then x.table else none) with
    | some s => (s.valid, { p with k := s.k })
    | none => (x.validMask, p)
  let weights := d.weightsOf t
  let c : ProdCtx := { weights := weights, sram := x.sram, valid := valid, stride := stride, masked := masked,
                       skipped := skipped }
  let cw := built.colWindows c
  let old (r k : Nat) : Entry := (x.entry? (p.accBase + r * p.cols + k)).getD (openEntry p.cls p.xFmt p.openExp)
  let es := p.rowEntries c (d.standIn t x.seqIndex) cw old 0 p.rows
  let d1 := (d.onTile t fun x => prodEntries p es (prodTables p cw valid x)).recoveryPart t p fun _ => p.exactRows c cw old
  let d2 := d1.addCycles t (p.cycles (p.rows - skipped.length) d.arrayLatency)
  let d3 := if p.reuse then d2 else d2.nonfinite t ((p.nonfiniteCols c cw).filter fun k => bitOf valid k || k == 0)
  let d4 := match (if p.wSram then none else p.badWeight weights) with
    | some off => d3.dataFault t Rc.weightCodeInvalid (off / 256) (0x100000000000 + t * 0x400000 + off) none 2
    | none => d3
  let d5 := match p.badOperand c with
    | some off => d4.operandFault t off p.wBase ((p.rows - 1) * stride + vecSize p.wFmt p.k)
    | none => d4
  if p.wSram || (p.badWeight weights).isNone then d5.nextDesc t
  else (d5.nextDesc t).quarantine t Rc.weightCodeInvalid

/-- A product descriptor at issue: its own checks, then those of the tables, entries and tokens (06 R150-R153, R165). -/
def prodBody (t : Nat) (direct : Bool) (n : Nat) (d : Dev) : Issue :=
  let p := prodDesc direct n
  let x := d.tile t
  let stride := d.prodStride t p
  issueOr (prodStatic x.prog p n stride ++
    [invalid? (p.causal && (x.fetchBind p.wBase).isNone && !x.curBind.contains p.wBase) 0x04 11, tableStale x p] ++
    (if p.accOpen || p.fresh then [] else entryChecks x p.accBase (p.rows * p.cols) 104 p.xFmt p.cls) ++
    [computeHazard x (prodRanges p stride) none]) fun _ => d.product t p

/-- The effect of MATMUL_TABLE. -/
def effMatmulTable (t : Nat) (desc : Desc) (m : Met) (d : Dev) : Dev :=
  d.issue t 0x01 desc m fun _ n d => prodBody t false n d

/-- MATMUL_TABLE: a table-mode product (06 R150). -/
def execMatmulTable (t : Nat) (d : Desc) (m : Met) (s : State) : Host.Outcome State Fault Refusal :=
  s.next (effMatmulTable t d m s.dev)

/-- The effect of MATMUL_DIRECT. -/
def effMatmulDirect (t : Nat) (desc : Desc) (m : Met) (d : Dev) : Dev :=
  d.issue t 0x02 desc m fun _ n d => prodBody t true n d

/-- MATMUL_DIRECT: a direct-mode product (06 R150, 03 R75-R80). -/
def execMatmulDirect (t : Nat) (d : Desc) (m : Met) (s : State) : Host.Outcome State Fault Refusal :=
  s.next (effMatmulDirect t d m s.dev)

/-- Local ranges of a log descriptor (06 R154). -/
def logRanges (p : LogDesc) : List (Nat × Nat) :=
  [(p.xBase, logBytes p.xL8 p.xBcast p.nCycles), (p.yBase, logBytes p.yL8 p.yBcast p.nCycles)]

/-- The checks of a log descriptor (06 R148, R154, R165). -/
def logStatic (pr : Nat × Nat) (p : LogDesc) (n : Nat) : List (Option (Nat × Nat)) :=
  [reserved? n [(99, 29)], invalid? (9 < p.xBcast) 0x02 10, invalid? (9 < p.yBcast) 0x02 14,
   invalid? (9 < p.groups) 0x02 18, invalid? (p.antilog && 40 < p.linFrac) 0x02 22, invalid? (p.nCycles == 0) 0x02 79,
   fault? (8192 < p.accBase + 2 ^ p.groups) Rc.accCapacity (p.accBase + 2 ^ p.groups - 8192)] ++
    (logRanges p).map fun r => computeRange pr r.1 r.2

/-- The log lanes at work (03 R81-R83, 04 R96, R101): entries, the sign and saturation events, the table file invalid (03 R71). -/
def Dev.logProduct (d : Dev) (t : Nat) (p : LogDesc) : Dev :=
  let x := d.tile t
  let runs := (List.range (2 ^ p.groups)).map fun g =>
    p.run x.sram g (if p.accOpen then p.opened else (x.entry? (p.accBase + g)).getD p.opened)
  let d1 := d.onTile t fun x => { x with entries := setEntries x.entries p.accBase (runs.map (·.1)), table := none, ranProduct := true }
  let d2 := (p.negLanes x.sram).foldl (fun (d : Dev) lane => d.descEvent t Rc.logSign lane) d1
  let d3 := (List.range (2 ^ p.groups)).foldl (fun (d : Dev) g =>
    if (runs.map (·.2)).getD g false then d.descEvent t Rc.accSaturated (p.accBase + g) else d) d2
  d3.nextDesc t

/-- The effect of LOG_PRODUCT. -/
def effLogProduct (t : Nat) (desc : Desc) (m : Met) (d : Dev) : Dev :=
  d.issue t 0x03 desc m fun _ n d =>
    let p := logDesc n
    let x := d.tile t
    issueOr (logStatic x.prog p n ++
      (if p.accOpen then [] else entryChecks x p.accBase (2 ^ p.groups) 66 Fmt.l16 (if p.antilog then .antilog else .log)) ++
      [computeHazard x (logRanges p) none]) fun _ => d.logProduct t p

/-- LOG_PRODUCT (06 R154). -/
def execLogProduct (t : Nat) (d : Desc) (m : Met) (s : State) : Host.Outcome State Fault Refusal :=
  s.next (effLogProduct t d m s.dev)

/-- The checks of a REDUCE (06 R148, R155, R165, R166). -/
def redStatic (x : Site) (tr : Option TreeRec) (nd : Option (Nat × NodeRec)) (p : RedDesc) (n : Nat) :
    List (Option (Nat × Nat)) :=
  let best := (tr.map (·.best)).getD false
  let wide := (tr.map (·.wide)).getD false
  let root := (nd.map (·.2.isRoot)).getD false
  let toSram := root && (p.dstSram || wide)
  [reserved? n [(77, 51)], invalid? (p.srcSel == 3) 0x02 6,
   invalid? (p.srcSel == 0 && 8192 < p.src % 8192 + p.count) 0x02 26,
   invalid? (root && !toSram && 8192 < p.dst % 8192 + p.count) 0x02 58,
   invalid? (p.srcSel == 2 && tr.isSome && !best) 0x04 6,
   invalid? (p.srcSel == 0 && (List.range p.count).any fun i => (x.entry? (p.src % 8192 + i)).isNone) 0x07 26,
   invalid? nd.isNone 0x09 10, invalid? (wide && p.count != 1) 0x09 45,
   (if p.srcSel = 0 then none
    else computeRange x.prog p.src (p.count * (if p.srcSel = 1 && best then 16 else 8))),
   (match tr with
    | some r => if toSram then computeRange x.prog p.dst (p.count * redOutSize r p) else none
    | none => none)]

/-- Local ranges of a REDUCE. -/
def redRanges (tr : TreeRec) (root : Bool) (p : RedDesc) : List (Nat × Nat) :=
  (if p.srcSel = 0 then [] else [(p.src, p.count * (if p.srcSel = 1 && tr.best then 16 else 8))]) ++
    (if root && (p.dstSram || tr.wide) then [(p.dst, p.count * redOutSize tr p)] else [])

/-- REDUCE at issue: its checks, then its local partials enter the node (06 R155). -/
def redBody (t n : Nat) (d : Dev) : Issue :=
  let p := redDesc n
  let x := d.tile t
  let tr := d.treeRec p.tree
  let nd := tr.bind fun r => d.nodeAt r t
  match tr, nd with
  | some r, some q =>
    let g := q.2.tile
    let exact := d.recoveryTree p.tree
    let loc := if exact then (x.exact.take p.count).flatMap (·.2) else redLocal x r p
    let b := d.redBuf g p.tree
    issueOr (redStatic x tr nd p n ++
      [(loc.find? fun w => w.tag != r.tag).map (fun w => (Rc.formatMismatch, w.tag)),
       computeHazard x (redRanges r q.2.isRoot p) none, inputFault r loc.length b.inputs]) fun _ =>
      let d1 := (d.setRedBuf { b with loc := some loc, desc := n, exact := exact }).waitDesc t none (some p.tree) false
      d1.redTry g p.tree
  | _, _ => issueOr (redStatic x tr nd p n) fun _ => d

/-- The effect of REDUCE. -/
def effReduce (t : Nat) (desc : Desc) (m : Met) (d : Dev) : Dev := d.issue t 0x08 desc m fun _ n d => redBody t n d

/-- REDUCE (06 R155). -/
def execReduce (t : Nat) (d : Desc) (m : Met) (s : State) : Host.Outcome State Fault Refusal :=
  s.next (effReduce t d m s.dev)

/-- A requantise descriptor (06 R156). -/
structure ReqDesc where
  srcSel : Nat
  mode : Nat
  fmt : Nat
  rng : Nat
  rngStream : Nat
  q : Int
  src : Nat
  count : Nat
  cols : Nat
  dst : Nat
  chan : Nat
  deriving DecidableEq, Repr

/-- The fields of a requantise descriptor (06 R156). -/
def reqDesc (n : Nat) : ReqDesc :=
  { srcSel := bitsOf n 6 2, mode := bitsOf n 8 2, fmt := bitsOf n 10 4, rng := bitsOf n 14 1, rngStream := bitsOf n 15 16,
    q := signed 8 (bitsOf n 31 8), src := bitsOf n 39 19, count := bitsOf n 58 13 + 1, cols := bitsOf n 71 2 + 1,
    dst := bitsOf n 73 19, chan := bitsOf n 92 10 }

/-- Bytes of the source of a REQUANT in working SRAM. -/
def ReqDesc.srcLen (p : ReqDesc) : Nat := if p.srcSel = 1 then 8 * p.count * p.cols else p.cols * colBytes Fmt.f32 p.count

/-- Local ranges of a REQUANT. -/
def ReqDesc.ranges (p : ReqDesc) : List (Nat × Nat) :=
  (if p.srcSel = 0 then [] else [(p.src, p.srcLen)]) ++ [(p.dst, p.cols * colBytes p.fmt p.count)]

/-- The residual-file channels of a REQUANT. -/
def ReqDesc.chans (p : ReqDesc) : Option (Nat × Nat) := if p.mode = 2 then some (p.chan, p.count) else none

/-- The checks of a REQUANT (06 R148, R156, R165, R166). -/
def reqStatic (x : Site) (p : ReqDesc) (n : Nat) : List (Option (Nat × Nat)) :=
  [reserved? n [(102, 26)], invalid? (p.srcSel == 3) 0x02 6,
   invalid? (p.srcSel == 0 && 8192 < p.src % 8192 + p.count * p.cols) 0x02 39,
   invalid? (p.mode == 2 && 1024 < p.chan + p.count) 0x02 92,
   invalid? (p.fmt ≤ 1 || p.fmt == 15) 0x03 10,
   invalid? (!modeAllows p.mode p.fmt) 0x04 8,
   invalid? (p.srcSel == 0 && (List.range (p.count * p.cols)).any fun i => (x.entry? (p.src % 8192 + i)).isNone) 0x07 39] ++
    p.ranges.map fun r => computeRange x.prog r.1 r.2

/-- Element j of column c of the source (06 R156). -/
def ReqDesc.elem (p : ReqDesc) (x : Site) (c j : Nat) : FV :=
  if p.srcSel = 0 then ((x.entry? (p.src % 8192 + j * p.cols + c)).getD {}).partial_.value
  else if p.srcSel = 1 then (partialOf (memNat x.sram (p.src + 8 * (j * p.cols + c)) 8)).value
  else elemAt x.sram (p.src + c * colBytes Fmt.f32 p.count) Fmt.f32 p.count j

/-- Columns in ascending position (05 R119). -/
def byPosition (x : Site) (cs : List Nat) : List Nat :=
  cs.foldl (fun acc c => (acc.filter fun k => (x.col k).position ≤ (x.col c).position) ++ [c] ++
    acc.filter fun k => (x.col c).position < (x.col k).position) []

/-- The seed of a generator consumer: the image's, or the host's while the sampling function is in host-assisted mode (05 R124, R126). -/
def Dev.seedFor (d : Dev) (t rng rngStream : Nat) : Nat :=
  let g := d.guestOf t
  let im := d.image
  let modes := ((d.waveAt (d.tile t).stage).map (·.modes)).getD (d.rd Reg.modeSplit)
  let own := match im.consumers.find? fun c => c.tile == g && c.rng == rng && c.rngStream == rngStream with
    | some c => c.seed.toNat
    | none => consumerSeed im.seed g rng rngStream
  if bitOf modes 5 then
    ((d.hostSeed { tile := g, rng := rng, rngStream := rngStream, desc := 0, seed := 0 }).map (·.toNat)).getD own
  else own

/-- One column of a REQUANT: its residuals by channel, its outputs (05 R119-R123). `carry` holds the residuals that left each stream's last column. -/
def Dev.reqCol (d : Dev) (t : Nat) (p : ReqDesc) (seed : Nat) (carry : List (Nat × List Int)) (c : Nat) : QCol :=
  let x := d.tile t
  let k := x.col c
  let res (j : Nat) : Int :=
    if k.position % 256 = 0 then 0
    else match AMap.find carry k.stream with
      | some rs => rs.getD j 0
      | none => AMap.get 0 x.resid (c * 1024 + p.chan + j)
  if k.valid then requantCol p.mode p.fmt p.q (stochastic seed k.position) res ((List.range p.count).map (p.elem x c))
  else requantCol 0 p.fmt 0 (fun _ => 0) (fun _ => 0) (List.replicate p.count (.fin false 0 0))

/-- Writes a column's codes and, under mode 2, its residuals; counts (05 R119, R128). -/
def Dev.reqWrite (d : Dev) (t : Nat) (p : ReqDesc) (c : Nat) (o : QCol) : Dev :=
  let x := d.tile t
  let d1 := d.onTile t fun y =>
    let z := writeSram y (p.dst + c * colBytes p.fmt p.count) o.bytes
    let put (m : List (Nat × Int)) (e : Nat × Int) : List (Nat × Int) := AMap.set 0 m (c * 1024 + p.chan + e.1) e.2
    if p.mode = 2 && (y.col c).valid then { z with resid := ((List.range p.count).zip o.resid).foldl put z.resid }
    else z
  if (x.col c).valid then
    let d2 := d1.stat t x.stage fun s =>
      { s with requantised := s.requantised + p.count,
               saturations := s.saturations + (o.outs.filter (·.sat)).length,
               clamps := s.clamps + (o.outs.filter (·.clamped)).length }
    if o.outs.any (·.nan) then d2.nonfinite t [c] else d2
  else d1

/-- REQUANT at work: the columns in ascending position, so that a stream's residuals chain (05 R119). -/
def Dev.requant (d : Dev) (t : Nat) (p : ReqDesc) : Dev :=
  let x := d.tile t
  let seed := if p.mode = 3 then d.seedFor t p.rng p.rngStream else 0
  let out := (byPosition x (List.range p.cols)).foldl (fun (acc : List (Nat × List Int) × Dev) c =>
    let o := d.reqCol t p seed acc.1 c
    ((if (x.col c).valid then AMap.insert (x.col c).stream o.resid acc.1 else acc.1), acc.2.reqWrite t p c o)) ([], d)
  out.2.nextDesc t

/-- The effect of REQUANT. -/
def effRequant (t : Nat) (desc : Desc) (m : Met) (d : Dev) : Dev :=
  d.issue t 0x09 desc m fun _ n d =>
    let p := reqDesc n
    let x := d.tile t
    issueOr (reqStatic x p n ++ [computeHazard x p.ranges p.chans]) fun _ => d.requant t p

/-- REQUANT (06 R156). -/
def execRequant (t : Nat) (d : Desc) (m : Met) (s : State) : Host.Outcome State Fault Refusal :=
  s.next (effRequant t d m s.dev)

/-- A facet descriptor (06 R157). -/
structure FacetDesc where
  func : Nat
  aFmt : Nat
  bFmt : Nat
  dFmt : Nat
  scalar : Bool
  aBase : Nat
  bBase : Nat
  dBase : Nat
  count : Nat
  deriving DecidableEq, Repr

/-- The fields of a facet descriptor (06 R157). -/
def facetDesc (n : Nat) : FacetDesc :=
  { func := bitsOf n 6 6, aFmt := bitsOf n 12 4, bFmt := bitsOf n 16 4, dFmt := bitsOf n 20 4, scalar := bitOf n 24,
    aBase := bitsOf n 45 19, bBase := bitsOf n 64 19, dBase := bitsOf n 83 19, count := bitsOf n 102 16 + 1 }

/-- A format that FACET_OP accepts (06 R157). -/
def facetFmt (f : Nat) : Bool := 4 ≤ f && f ≤ 11

/-- ARGMAX and ARGMIN. -/
def FacetDesc.arg (p : FacetDesc) : Bool := p.func == 0x0F || p.func == 0x10

/-- Elements of b that the function reads. -/
def FacetDesc.bCount (p : FacetDesc) : Nat :=
  if p.func = 0x11 then (if p.count < 2 then 0 else if p.scalar then 2 else p.count / 2 * 2)
  else if 0x01 ≤ p.func ∧ p.func ≤ 0x06 then (if p.scalar then 1 else p.count)
  else 0

/-- Elements of d that the function writes. -/
def FacetDesc.dCount (p : FacetDesc) : Nat := if p.func = 0x0D ∨ p.func = 0x0E then 1 else p.count

/-- Local ranges of a FACET_OP. -/
def FacetDesc.ranges (p : FacetDesc) : List (Nat × Nat) :=
  [(p.aBase, vecSize p.aFmt p.count)] ++ (if p.bCount = 0 then [] else [(p.bBase, vecSize p.bFmt p.bCount)]) ++
    [(p.dBase, if p.arg then 8 else vecSize p.dFmt p.dCount)]

/-- The checks of a FACET_OP (06 R148, R157, R165, R166). -/
def facetStatic (x : Site) (p : FacetDesc) (n : Nat) : List (Option (Nat × Nat)) :=
  [reserved? n [(25, 20), (118, 10)], invalid? (0x12 < p.func) 0x02 6,
   invalid? (!facetFmt p.aFmt) 0x03 12, invalid? (!facetFmt p.bFmt) 0x03 16,
   invalid? (!(p.arg || p.func == 0x12) && !facetFmt p.dFmt) 0x03 20,
   invalid? (p.func == 0x12 && p.dFmt != Fmt.l16) 0x04 20,
   invalid? (p.arg && p.dFmt != Fmt.f32) 0x04 20] ++ p.ranges.map fun r => computeRange x.prog r.1 r.2

/-- FACET_OP at work (06 R157). It has no wave columns (06 R141); a NaN that it converts to an integer or log format is reported as of column 0 (DESIGN CHOICE, log entry 104). -/
def Dev.facet (d : Dev) (t : Nat) (p : FacetDesc) : Dev :=
  let x := d.tile t
  let a := elemsAt x.sram p.aBase p.aFmt p.count 0 p.count
  let b := elemsAt x.sram p.bBase p.bFmt p.bCount 0 p.bCount
  if p.arg then
    let w := bestOf (p.func == 0x0F) (a.zip ((List.range p.count).map fun i => (i + p.bBase) % 2 ^ 32))
    (d.onTile t fun x => writeSram x p.dBase (pairBytes w.1 w.2)).nextDesc t
  else
    let e := if p.func = 0x04 then elemsAt x.sram p.dBase p.dFmt p.count 0 p.count else []
    let cs := (facetFn false p.func p.scalar a b e).map (encodeFmt p.dFmt)
    let d1 := d.onTile t fun x => writeSram x p.dBase (packCodes (fmtBits p.dFmt) (cs.map (·.code)))
    (if cs.any (·.nan) then d1.nonfinite t [0] else d1).nextDesc t

/-- The effect of FACET_OP. -/
def effFacetOp (t : Nat) (desc : Desc) (m : Met) (d : Dev) : Dev :=
  d.issue t 0x0A desc m fun _ n d =>
    let p := facetDesc n
    let x := d.tile t
    issueOr (facetStatic x p n ++ [computeHazard x p.ranges none]) fun _ => d.facet t p

/-- FACET_OP (06 R157). -/
def execFacetOp (t : Nat) (d : Desc) (m : Met) (s : State) : Host.Outcome State Fault Refusal :=
  s.next (effFacetOp t d m s.dev)

/-- A sample descriptor (06 R158). -/
structure SampleDesc where
  rng : Nat
  rngStream : Nat
  pairs : Bool
  src : Nat
  dst : Nat
  count : Nat
  column : Nat
  deriving DecidableEq, Repr

/-- The fields of a sample descriptor (06 R158). -/
def sampleDesc (n : Nat) : SampleDesc :=
  { rng := bitsOf n 6 1, rngStream := bitsOf n 7 16, pairs := bitOf n 23, src := bitsOf n 24 19, dst := bitsOf n 43 19,
    count := bitsOf n 62 20 + 1, column := bitsOf n 82 2 }

/-- Local ranges of a SAMPLE; the token is 4 bytes (DEDUCED, log entry 41). -/
def SampleDesc.ranges (p : SampleDesc) : List (Nat × Nat) := [(p.src, p.count * (if p.pairs then 8 else 4)), (p.dst, 4)]

/-- The candidates of a SAMPLE (06 R158). -/
def SampleDesc.cands (p : SampleDesc) (sram : Mem) : List (FV × Nat) :=
  (List.range p.count).map fun i =>
    if p.pairs then (of32 (memNat sram (p.src + 8 * i) 4), memNat sram (p.src + 8 * i + 4) 4)
    else (of32 (memNat sram (p.src + 4 * i) 4), i)

/-- SAMPLE at work: the draw of R287 and R288 with the column's stream, the token at `dst` and on its way to the host loop. -/
def Dev.draw (d : Dev) (t : Nat) (p : SampleDesc) : Dev :=
  let x := d.tile t
  let k := x.col p.column
  if !k.valid then d.nextDesc t
  else
    let s := (d.stream? k.stream).getD {}
    let seed := d.seedFor t p.rng p.rngStream ^^^ s.sampleSeed.toNat
    let u := bitsOf (genOutput seed (k.position + 1)) 0 32
    let (tok, degenerate) := drawToken (p.cands x.sram)
      { temperature := of32 s.temperature.toNat, topK := s.topK, topP := s.topP, u := u }
    let d1 := d.onTile t fun x => writeSram x p.dst (leBytes 4 tok)
    let key := (if 512 ≤ x.stage then 4 else 0) + p.column
    let d2 := { d1 with serve := { d1.serve with sampled := AMap.insert key tok d1.serve.sampled } }
    let d3 := if degenerate then
        d2.raise { d2.descOcc t Rc.sampleDegenerate p.column 0 0 0 (some k.stream) with source := 77 }
      else d2
    d3.nextDesc t

/-- The effect of SAMPLE. -/
def effSample (t : Nat) (desc : Desc) (m : Met) (d : Dev) : Dev :=
  d.issue t 0x0B desc m fun _ n d =>
    let p := sampleDesc n
    let x := d.tile t
    issueOr ([reserved? n [(84, 44)]] ++ (p.ranges.map fun r => computeRange x.prog r.1 r.2) ++
      [computeHazard x p.ranges none]) fun _ => d.draw t p

/-- SAMPLE (06 R158). -/
def execSample (t : Nat) (d : Desc) (m : Met) (s : State) : Host.Outcome State Fault Refusal :=
  s.next (effSample t d m s.dev)

end Sys2Proof.Machine
end

