-- ==== Sys2Proof/Machine/Noc.lean ====
section
/-! DEFINITION. The mesh between its commands: routes (07 R175), routing tables and their verification (R180, R182), detours (R182-R184), the frame of a link and its stakes (R176, R177), credits (R178), arbitration at an output (R181, R186), and the lines of a DRAM queue as packets (R188). -/
namespace Sys2Proof.Machine

/-- The hops of a straight run of `n` steps from a tile. -/
def runHops (dir : Nat) : Nat → Nat → List (Nat × Nat)
  | _, 0 => []
  | t, n + 1 => (t, dir) :: (match neighbour t dir with
    | some u => runHops dir u n
    | none => [])

/-- The hops of an explicit list (07 R175). -/
def listHops : Nat → List Nat → List (Nat × Nat)
  | _, [] => []
  | t, h :: hs => (t, h % 4) :: (match neighbour t (h % 4) with
    | some u => listHops u hs
    | none => [])

/-- The hops of a route between two tiles: along the row and then the column, or the reverse (07 R175). -/
def straightHops (yFirst : Bool) (a b : Nat) : List (Nat × Nat) :=
  let dx := if a % 256 < b % 256 then 1 else 3
  let dy := if a / 256 < b / 256 then 2 else 0
  let nx := (a % 256 - b % 256) + (b % 256 - a % 256)
  let ny := (a / 256 - b / 256) + (b / 256 - a / 256)
  if yFirst then runHops dy a ny ++ runHops dx (b / 256 * 256 + a % 256) nx
  else runHops dx a nx ++ runHops dy (a / 256 * 256 + b % 256) ny

/-- The mesh part of a channel's image route, as (sending tile, direction) (07 R175). -/
def ChanRec.path (r : ChanRec) : List (Nat × Nat) :=
  let a := if r.src = 0xFFFF then r.rimTile else r.src
  let b := if r.dst = 0xFFFF then r.rimTile else r.dst
  if r.route = 2 then listHops a (r.hops.take r.hopCount) else straightHops (r.route == 1) a b

/-- The state of a link, by sending tile and direction. -/
def Dev.link (d : Dev) (t dir : Nat) : Link := AMap.get {} d.mesh.links (4 * t + dir)

/-- Sets a link's state. -/
def Dev.setLink (d : Dev) (t dir : Nat) (l : Link) : Dev :=
  { d with mesh := { d.mesh with links := AMap.set {} d.mesh.links (4 * t + dir) l } }

/-- Routers of a field route: it has not been lost, or it has relocked (07 R172, R176, 18 R407). -/
def Dev.fieldRoutes (d : Dev) (n : Nat) : Bool :=
  !d.wafer.lostFields.contains n || (d.fieldOn n && (d.rd (Reg.lockState n) == 1 || d.rd (Reg.lockState n) == 2))

/-- The resources that are lost now: the routing tables without them come into force at the next boundary (07 R182). -/
def Dev.lostRoutes (d : Dev) : Tables :=
  { links := (d.mesh.links.filter (·.2.down)).map (·.1)
    routers := d.wafer.lostTiles ++ (d.wafer.lostFields.filter fun n => !d.fieldRoutes n).flatMap fieldTiles }

/-- A set of tiles as bits of a number. -/
def tileSet (ts : List Nat) : Nat := ts.foldl (fun n t => n ||| 1 <<< t) 0

/-- Every logical tile, as bits. -/
def everyTile : Nat := (List.range 192).foldl (fun n y => n ||| (1 <<< 180 - 1) <<< (256 * y)) 0

/-- The bits of `a` that are not in `b`. -/
def without (a b : Nat) : Nat := a ^^^ (a &&& b)

/-- The routers in a table, as bits. -/
def Tables.alive (tb : Tables) : Nat := without everyTile (tileSet tb.routers)

/-- The routers whose link in a direction is out. -/
def Tables.cut (tb : Tables) (dir : Nat) : Nat := tileSet ((tb.links.filter fun k => k % 4 == dir).map (· / 4))

/-- Routers one hop from a set: `alive` and the cut links are computed once. -/
def growSet (alive n e s w f : Nat) : Nat :=
  (without f n >>> 256 ||| without f e <<< 1 ||| without f s <<< 256 ||| without f w >>> 1) &&& alive

/-- The routers at each distance from a set, nearest first. -/
def levelsFrom (grow : Nat → Nat) : Nat → Nat → Nat → List Nat
  | 0, _, _ => []
  | fuel + 1, f, seen =>
    if f = 0 then [] else
      let next := without (grow f) seen
      f :: levelsFrom grow fuel next (seen ||| next)

/-- The routers of a table at each distance from a set of them. -/
def Tables.levels (tb : Tables) (f : Nat) : List Nat :=
  let f0 := f &&& tb.alive
  levelsFrom (growSet tb.alive (tb.cut 0) (tb.cut 1) (tb.cut 2) (tb.cut 3)) 34560 f0 f0

/-- The routers of a table that a set of routers reaches. -/
def Tables.spread (tb : Tables) (f : Nat) : Nat := (tb.levels f).foldl (· ||| ·) 0

/-- Nothing has been taken out of the tables. -/
def Tables.whole (tb : Tables) : Bool := tb.links.isEmpty && tb.routers.isEmpty

/-- The path from a router up a tree: at each level the first direction that leads to the level below (the levels below it are given nearest first). -/
def Tables.climb (tb : Tables) : List Nat → Nat → List (Nat × Nat)
  | [], _ => []
  | l :: ls, t =>
    match (List.range 4).findSome? fun dir => if tb.links.contains (4 * t + dir) then none else match neighbour t dir with
        | some u => if l.testBit u then some (dir, u) else none
        | none => none with
    | some (dir, u) => (t, dir) :: tb.climb ls u
    | none => []

/-- The router that a hop leads to. -/
def hopEnd (h : Nat × Nat) : Nat := (neighbour h.1 h.2).getD 0

/-- The lowest router of a set. -/
def lowestTile (f : Nat) : Nat := Nat.log2 (without f (f - 1))

/-- The level of a router. -/
def levelOf (ls : List Nat) (t : Nat) : Nat := ls.findIdx (·.testBit t)

/-- Ranks of hops: a route whose hops rise in rank turns through no cycle. Along rows and then columns where the tables are whole; else up and then down the tree of the levels. -/
def Tables.rank (tb : Tables) (ls : List Nat) (h : Nat × Nat) : Nat :=
  if tb.whole then
    if h.2 = 1 then h.1 % 256 else if h.2 = 3 then 256 - h.1 % 256
    else if h.2 = 2 then 1024 + h.1 / 256 else 1024 + 256 - h.1 / 256
  else if levelOf ls (hopEnd h) < levelOf ls h.1 then 40000 - levelOf ls h.1 else 40000 + levelOf ls h.1

/-- The verification of a route (07 R180): its hops rise in a rank that all routes share, so that the turns of all of them form no cycle. -/
def rising (rank : Nat × Nat → Nat) : List (Nat × Nat) → Bool
  | h :: g :: hs => decide (rank h < rank g) && rising rank (g :: hs)
  | _ => true

/-- The route that the tables give from one router to another, where a verified one is there (07 R180, R182, R185): X-first while nothing has been taken out, else along a tree of what is left, rooted at its lowest router (DESIGN CHOICE, log entry 111). -/
def Tables.route (tb : Tables) (a b : Nat) : Option (List (Nat × Nat)) :=
  if tb.whole then
    let hs := straightHops false a b
    if rising (tb.rank []) hs then some hs else none
  else
    let all := tb.spread (1 <<< b)
    if !all.testBit a || !all.testBit b then none
    else
      let root := lowestTile all
      let ls := tb.levels (1 <<< root)
      let below (t : Nat) : List Nat := (ls.take (levelOf ls t)).reverse
      let ua := tb.climb (below a) a
      let ub := tb.climb (below b) b
      let onA := ua.map (·.1) ++ [root]
      let meet := ((ub.map (·.1) ++ [root]).find? onA.contains).getD root
      let hs := (ua.takeWhile fun h => h.1 != meet) ++
        ((ub.takeWhile fun h => h.1 != meet).reverse.map fun h => (hopEnd h, opposite h.2))
      if rising (tb.rank ls) hs then some hs else none

/-- The edge tile in a tile's row or column on a side: 0 north, 1 east, 2 south, 3 west (01 R27). -/
def attachTile (t side : Nat) : Nat :=
  if side = 0 then t % 256 else if side = 1 then t / 256 * 256 + 179 else if side = 2 then 191 * 256 + t % 256 else t / 256 * 256

/-- The edge tiles of a side. -/
def sideTiles (side : Nat) : List Nat :=
  if side % 2 = 0 then (List.range 180).map fun x => attachTile x side else (List.range 192).map fun y => attachTile (256 * y) side

/-- Tables reach a tile from the rim (07 R185). -/
def Tables.reaches (tb : Tables) (t : Nat) : Bool :=
  tb.whole || (tb.spread (tileSet ((List.range 4).flatMap sideTiles))).testBit t

/-- The attachment at which a line of a tile leaves the mesh: that in the tile's row or column on the side, else the nearest that is left there, the lower identifier on a tie (07 R188; DESIGN CHOICE on the tie, log entry 111). -/
def Tables.attachment (tb : Tables) (t side : Nat) : Option Nat :=
  if tb.whole then some (attachTile t side)
  else
    let all := tb.spread (1 <<< t)
    let best := attachTile t side
    let far (u : Nat) : Nat := (u % 256 - best % 256) + (best % 256 - u % 256) + ((u / 256 - best / 256) + (best / 256 - u / 256))
    ((sideTiles side).filter all.testBit).foldl (fun (b : Option Nat) u => match b with
      | some v => if far u < far v then some u else some v
      | none => some u) none

/-- The rim side of the stack that holds a tile's bytes of the weight copy. -/
def Dev.copySide (d : Dev) (t : Nat) : Nat :=
  match d.image.rec? t, d.image.regions.find? fun g => g.kind == 0 with
  | some r, some g => d.stackOf (g.base + r.wOffset) / 3
  | _, _ => 0

/-- The router at which the work of a tile meets the mesh: that of the tile which does it; for an embedding tile served from DRAM the attachment of the rim side of its rows (09 R237; DESIGN CHOICE, log entry 115). -/
def Dev.seatRouter (d : Dev) (t : Nat) : Nat :=
  let h := d.hostOf t
  if d.wafer.served.contains h then (d.mesh.tables.attachment h (d.copySide h)).getD h else h

/-- A tile that still works as an endpoint. -/
def Dev.endAlive (d : Dev) (t : Nat) : Bool :=
  t == 0xFFFF || (d.runs (d.hostOf t) && !d.wafer.lostTiles.contains (d.seatRouter t))

/-- An end of a channel whose work runs elsewhere makes the channel end there (08 R206). -/
def Dev.rebound (d : Dev) (r : ChanRec) : Bool :=
  let moved (t : Nat) : Bool := t != 0xFFFF && (d.hostOf t != t || d.wafer.served.contains t)
  moved r.src || moved r.dst

/-- The router at which a channel starts. -/
def Dev.chanStart (d : Dev) (r : ChanRec) : Nat := if r.src = 0xFFFF then r.rimTile else d.seatRouter r.src

/-- The router at which a channel ends. -/
def Dev.chanEnd (d : Dev) (r : ChanRec) : Nat := if r.dst = 0xFFFF then r.rimTile else d.seatRouter r.dst

/-- The hops of a channel while it is not detoured: those of the image; one with a moved end has an X-first route between the tiles that do the work (08 R206). -/
def Dev.chanPath (d : Dev) (r : ChanRec) : List (Nat × Nat) :=
  if d.rebound r then straightHops false (d.chanStart r) (d.chanEnd r) else r.path

/-- The hops of a channel now (07 R175, R183). -/
def Dev.chanRoute (d : Dev) (c : Nat) (r : ChanRec) : List (Nat × Nat) := ((d.chan c).detour).getD (d.chanPath r)

/-- The flits of a channel travel as packets of class 1: an empty `stake_mask`, a detour, a moved end, an image for the W18 (07 R179, R183, R186, 08 R206). -/
def Dev.packetChan (d : Dev) (c : Nat) (r : ChanRec) : Bool :=
  r.stakeMask == 0 || (d.chan c).detour.isSome || d.rebound r || d.image.w18

/-- Channels whose route uses a lost resource and whose two ends survive get a detour at the next boundary (07 R182, R184). -/
def Dev.detourFor (d : Dev) (hit : Nat × Nat → Bool) : Dev :=
  let cs := (List.range d.image.chans.length).filter fun c => match d.chanRec c with
    | some r => (d.chanRoute c r).any hit && d.endAlive r.src && d.endAlive r.dst && !d.mesh.detourPending.contains c
    | none => false
  { d with mesh := { d.mesh with detourPending := d.mesh.detourPending ++ cs } }

/-- The detours that wait are set, along the tables in force (07 R182, R183). A channel between whose ends no verified table leads keeps its route, and its stage waits in vain (06 R168). -/
def Dev.setDetours (d : Dev) : Dev :=
  let d1 := d.mesh.detourPending.foldl (fun (d : Dev) c => match d.chanRec c with
    | some r => match d.mesh.tables.route (d.chanStart r) (d.chanEnd r) with
      | some hs => (d.setChan c { d.chan c with detour := some hs }).raise { code := Rc.detourActive, detail := c, source := 1 }
      | none => d
    | none => d) d
  { d1 with mesh := { d1.mesh with detourPending := [] } }

/-- A hop uses a link or router that is lost (07 R182). -/
def Dev.hopLost (d : Dev) (h : Nat × Nat) : Bool :=
  (d.link h.1 h.2).down || d.wafer.lostTiles.contains h.1 || (match neighbour h.1 h.2 with
    | some u => d.wafer.lostTiles.contains u
    | none => true)

/-- Detours of channels whose ends have moved since are dropped, and set anew where the present route uses a lost resource (07 R182, 08 R206, 09 R228). -/
def Dev.followEnds (d : Dev) : Dev :=
  let stale (e : Nat × Chan) : Bool := match e.2.detour, d.chanRec e.1 with
    | some hs, some r => (hs.head?.map (·.1)).getD (d.chanStart r) != d.chanStart r || (hs.getLast?.map hopEnd).getD (d.chanEnd r) != d.chanEnd r
    | _, _ => false
  let cs := (d.mesh.chans.filter stale).map (·.1)
  if cs.isEmpty then d
  else
    let d1 := cs.foldl (fun (d : Dev) c => d.setChan c { d.chan c with detour := none }) d
    (d1.detourFor d1.hopLost).setDetours

/-- Flits of a channel that are in use of its buffers beyond the sender's router. -/
def Chan.unacked (ch : Chan) : Nat := (ch.flight.filter fun f => f.hop != 0).length + ch.held.length

/-- Flits of a channel in the buffer of router `i` of its route, and for 0 those with the sender too. -/
def Chan.atHop (ch : Chan) (i : Nat) : Nat := (ch.flight.filter fun f => f.hop == i).length

/-- A flit of a channel may go on from router `i` of its route: the next router has a free buffer flit (07 R177, R178), and on a detour fewer than `buffer_flits` are out unacknowledged (R183). A node or the rim takes what arrives. -/
def Dev.hasRoom (d : Dev) (c : Nat) (r : ChanRec) (i : Nat) : Bool :=
  let ch := d.chan c
  let taken := r.kind == 1 || r.dst == 0xFFFF
  if ch.detour.isSome then i != 0 || ch.unacked < r.bufferFlits
  else if i + 1 = (d.chanRoute c r).length then taken || ch.held.length < r.bufferFlits
  else ch.atHop (i + 1) < r.bufferFlits

/-- The place on its route from which a channel can send a flit over a link: one waits there, and there is room for it (07 R177). -/
def Dev.sendsAt (d : Dev) (c : Nat) (r : ChanRec) (t dir : Nat) : Option Nat :=
  let route := d.chanRoute c r
  let i := route.findIdx (· == (t, dir))
  if i < route.length ∧ (d.chan c).atHop i ≠ 0 ∧ d.hasRoom c r i then some i else none

/-- The last byte of a SEND has left the tile (06 R159): what the channel holds at its first router is within its buffer there. -/
def Dev.sendLeft (d : Dev) (c : Nat) (r : ChanRec) : Bool :=
  let ch := d.chan c
  if ch.detour.isSome || (d.chanRoute c r).isEmpty then ch.flight.length + ch.held.length ≤ r.bufferFlits
  else ch.atHop 0 ≤ r.bufferFlits

/-- What waits at an output to travel as a packet: its class, the port it came by, whether it is for a logical neighbour (07 R181, R186). -/
structure Waiting where
  kind : FlitKind
  cls : Nat
  port : Nat
  near : Bool
  deriving DecidableEq, Repr

/-- A router is a logical neighbour of another. -/
def isNear (t u : Nat) : Bool := (List.range 4).any fun dir => neighbour t dir == some u

/-- The channel flits that wait at an output as packets. -/
def Dev.waitingFlits (d : Dev) (t dir : Nat) : List Waiting :=
  (List.range d.image.chans.length).filterMap fun c => (d.chanRec c).bind fun r =>
    if !d.packetChan c r then none
    else (d.sendsAt c r t dir).map fun i =>
      { kind := .channel c, cls := 1, near := isNear t (d.chanEnd r),
        port := match i with
          | 0 => if r.src = 0xFFFF || d.wafer.served.contains r.src then 5 else 4
          | j + 1 => (((d.chanRoute c r)[j]?).map fun h => opposite h.2).getD 4 }

/-- The packets that wait at an output (07 R180). -/
def Dev.waitingPackets (d : Dev) (t dir : Nat) : List Waiting :=
  (d.mesh.packets.filter fun p => p.router == t && ((d.mesh.tables.route t p.dst).bind (·.head?)) == some (t, dir)).map fun p =>
    { kind := .packet p.id, cls := p.cls, port := p.port, near := isNear t p.dst }

/-- The packet that an output serves: class order, and round-robin over the ports within a class (07 R181); with W18 routing, four class-1 packets for near destinations to one for far ones while both wait (R186). -/
def pickPacket (w18 : Bool) (l : Link) (ws : List Waiting) : Option Waiting :=
  let cls := (ws.map (·.cls)).foldl min 7
  let first := ws.filter (·.cls == cls)
  let both := w18 && cls == 1 && first.any (·.near) && first.any (!·.near)
  let served := if both then first.filter fun w => w.near == decide (l.near < 4) else first
  let last := (AMap.find l.turns cls).getD 5
  (List.range 6).findSome? fun i => served.find? fun w => w.port == (last + 1 + i) % 6

/-- What an output has to send as a packet. -/
def Dev.waitingAt (d : Dev) (t dir : Nat) : List Waiting := d.waitingFlits t dir ++ d.waitingPackets t dir

/-- The staked channels of a link direction (07 R177). -/
def Dev.staked (d : Dev) (t dir : Nat) : List (Nat × ChanRec) :=
  (List.range d.image.chans.length).filterMap fun c => (d.chanRec c).bind fun r =>
    if !d.packetChan c r && (d.chanRoute c r).contains (t, dir) then some (c, r) else none

/-- A flit can leave a router over a link: the next of a staked channel, in its slots, or the packet that the output serves (07 R177, R181). -/
def Dev.sends (d : Dev) (t dir : Nat) (k : FlitKind) : Bool :=
  match k with
  | .channel c => match d.chanRec c with
    | some r => if d.packetChan c r then ((pickPacket d.image.w18 (d.link t dir) (d.waitingAt t dir)).map (·.kind)) == some k
        else (d.sendsAt c r t dir).isSome
    | none => false
  | .packet _ => ((pickPacket d.image.w18 (d.link t dir) (d.waitingAt t dir)).map (·.kind)) == some k

/-- A slot of the frame carries packets: no stake holds it, or the channel that holds it cannot send, so that it is lent (07 R177, R180). -/
def Dev.packetSlot (d : Dev) (t dir n : Nat) : Bool :=
  !((d.staked t dir).any fun e => bitOf e.2.stakeMask n && (d.sendsAt e.1 e.2 t dir).isSome)

/-- The slot in which a flit leaves: counted from the frame counter, the next that is staked to its channel or that carries packets (07 R176, R177). -/
def Dev.slotFor (d : Dev) (t dir : Nat) (k : FlitKind) : Nat :=
  let l := d.link t dir
  let fits (n : Nat) : Bool := match k with
    | .channel c => match d.chanRec c with
      | some r => if d.packetChan c r then d.packetSlot t dir n else bitOf r.stakeMask n
      | none => false
    | .packet _ => d.packetSlot t dir n
  (((List.range 64).map fun i => (l.frame + i) % 64).find? fits).getD l.frame

/-- A line's index in its token, from its packet's number. -/
def packetLine (id : Nat) : Nat := id % 8192

/-- The tile and token of a packet of a DRAM queue. -/
def packetTok (id : Nat) : Nat × Nat := (id / 8192 / 64, id / 8192 % 64)

/-- A packet carries an inclusion sample (05 R133): such numbers lie above those of the queues. -/
def isSample (id : Nat) : Bool := 2 ^ 40 ≤ id

/-- The number of the packet that carries a tile's sample. -/
def sampleId (t : Nat) : Nat := 2 ^ 40 + t

/-- The data of a flit: that of the channel, or the line of a read's response or a write's request (07 R188). -/
def Dev.flitData (d : Dev) (k : FlitKind) (i : Nat) : List Byte :=
  match k with
  | .channel c => (((d.chan c).flight.find? fun f => f.hop == i).map (·.bytes)).getD []
  | .packet id => match d.mesh.packets.find? fun p => p.id == id with
    | some p =>
      let (t, token) := packetTok id
      match AMap.find (d.tile t).tokens token with
      | some q =>
        let a := q.lines.getD (packetLine id) 0
        if p.request && q.devWrite && !q.resid then memRead (d.tile t).sram (q.lo + (a - q.devLo)) 64
        else if !p.request && !q.devWrite then d.dramGet a 64
        else []
      | none => []
    | none => []

/-- A flit passes over a link without error: the frame counter moves past its slot, the sideband is made, the replay buffer and the FIFO take it, the round-robin moves on (07 R171-R173, R176, R181, R186). -/
def Dev.passLink (d : Dev) (t dir : Nat) (k : FlitKind) : Dev :=
  let l := d.link t dir
  let ws := d.waitingAt t dir
  let w := ws.find? fun w => w.kind == k
  let both := ws.any (fun v => v.cls == 1 && v.near) && ws.any (fun v => v.cls == 1 && !v.near)
  let near := match w with
    | some v => if v.cls = 1 ∧ both then (if v.near then l.near + 1 else 0) else l.near
    | none => l.near
  let dest := match k with
    | .channel c => c
    | .packet id => ((d.mesh.packets.find? fun p => p.id == id).map (·.dst)).getD 0
  let traffic := (w.map (·.cls)).getD 0
  let i := match k with
    | .channel c => ((d.chanRec c).map fun r => (d.chanRoute c r).findIdx (· == (t, dir))).getD 0
    | .packet _ => 0
  d.setLink t dir { l with
    inRow := 0, retrying := none, frame := (d.slotFor t dir k + 1) % 64, seq := (l.seq + 1) % 65536,
    side := some { dest := dest, traffic := traffic, seq := l.seq, crc := Config.flitCrc (d.flitData k i) dest traffic l.seq },
    replay := (k :: l.replay).take 8, fifo := (k :: l.fifo).take 8, near := near,
    turns := match w with
      | some v => AMap.insert v.cls v.port l.turns
      | none => l.turns }

/-- Requests of a queue of a tile that are not done, in issue order (07 R187, R189). -/
def Site.queueTokens (x : Site) (queue : Nat) (write : Bool) : List (Nat × Tok) :=
  sortBy (fun a b => decide (a.2.seq < b.2.seq))
    (x.tokens.filter fun k => !k.2.done && 0x12 ≤ k.2.op && k.2.queue == queue && k.2.devWrite == write)

/-- The packets of a queue of a tile that are in flight. -/
def Dev.queueFlight (d : Dev) (t queue : Nat) (write : Bool) : Nat :=
  (d.mesh.packets.filter fun p => !isSample p.id && (packetTok p.id).1 == t &&
    match AMap.find (d.tile t).tokens (packetTok p.id).2 with
    | some k => k.queue == queue && k.devWrite == write
    | none => false).length

/-- Lines of a token leave as request packets, `n` at most (07 R188): the side is that of the stack which holds the line (01 R26, 14 R335). A line for which no attachment is left goes nowhere: its request is found unroutable where it stands (R185). -/
def Dev.sendLines (d : Dev) (t token : Nat) (k : Tok) (n : Nat) : Dev :=
  let ls := (k.lines.drop k.sent).take n
  let ps := (List.range ls.length).map fun i =>
    let side := d.stackOf (ls.getD i 0) / 3
    ({ id := (64 * t + token) * 8192 + k.sent + i, cls := 4, src := d.seatRouter t, request := true, router := d.seatRouter t, port := 4,
       dst := (d.mesh.tables.attachment (d.seatRouter t) side).getD (attachTile t side) } : Packet)
  ({ d with mesh := { d.mesh with packets := d.mesh.packets ++ ps } }).onTile t fun x =>
    { x with tokens := AMap.insert token { k with sent := k.sent + ls.length } x.tokens }

/-- A queue sends its lines, in issue order and ascending address order, with at most 32 in flight (07 R188). -/
def Dev.pumpQueue (d : Dev) (t queue : Nat) (write : Bool) : Dev :=
  ((d.tile t).queueTokens queue write).foldl (fun (d : Dev) e => d.sendLines t e.1 e.2 (32 - d.queueFlight t queue write)) d

end Sys2Proof.Machine
end

