-- ==== Sys2Proof/Machine/Transfer.lean ====
section
/-! DEFINITION. The transfer descriptors: SEND and RECV on channels (06 R159), DRAM_READ and DRAM_WRITE (R160), KV_FETCH and KV_STORE (R161, 10 R246, R247), RESID_LOAD and RESID_STORE (R162), with tokens, queues and hazards (R145-R147, 07 R187-R189). -/
namespace Sys2Proof.Machine

/-- Issues a token and goes on to the next descriptor (06 R142, R145); the lines of a request of a DRAM queue leave as packets (07 R188). -/
def Dev.issueTok (d : Dev) (t token : Nat) (k : Tok) : Dev :=
  let ls := if k.op ≤ 0x11 || k.done then [] else d.tokLines t k
  let d1 := d.onTile t fun x => { x with tokens := AMap.insert token { k with seq := x.tokSeq, descIdx := x.seqIndex, lines := ls } x.tokens
                                         tokSeq := x.tokSeq + 1 }
  (if k.op ≤ 0x11 || k.done then d1 else d1.pumpQueue t k.queue k.devWrite).nextDesc t

/-- Issues a token whose transfer moves nothing: it is done in issue order, once the earlier requests of its queue are (07 R189). -/
def Dev.issueEmpty (d : Dev) (t token : Nat) (k : Tok) : Dev :=
  d.issueTok t token { k with done := ((d.tile t).queueTokens k.queue k.devWrite).isEmpty, devLen := 0 }

/-- A transfer waits for room: the sequencer takes the same descriptor again (06 R142). -/
def Dev.waitRoom (d : Dev) (t : Nat) : Dev := d.waitDesc t none none false

/-- TOKEN_BUSY (06 R146). -/
def tokenBusy (x : Site) (token : Nat) : Option (Nat × Nat) := fault? (AMap.find x.tokens token).isSome Rc.tokenBusy token

/-- A token's facts for a transfer that touches local memory and, perhaps, a device range. -/
def mkTok (op lo len : Nat) (writes : Bool) (queue devLo devLen : Nat) (devWrite : Bool) (desc : Nat) : Tok :=
  { done := false, op := op, lo := lo, len := len, writesLocal := writes, resid := false, queue := queue, devLo := devLo,
    devLen := devLen, devWrite := devWrite, chan := 0, seq := 0, desc := desc, descIdx := 0, bad := none }

/-- A channel descriptor (06 R159): channel, local address, bytes, token. -/
def chanDesc (n : Nat) : Nat × Nat × Nat × Nat := (bitsOf n 6 12, bitsOf n 18 19, bitsOf n 37 20, bitsOf n 57 6)

/-- The byte count of a transfer is a multiple of 64 up to 393,216, at least `lo` (06 R159, R160). -/
def badCount (lo bytes : Nat) : Bool := bytes % 64 != 0 || 393216 < bytes || bytes < lo

/-- The checks of SEND and RECV that depend on the image and the descriptor alone; `bound` says that the channel is bound to this tile in that direction (06 R159, R165, R166). -/
def chanStatic (x : Site) (bound : Bool) (n : Nat) : List (Option (Nat × Nat)) :=
  let (_, lo, bytes, _) := chanDesc n
  [reserved? n [(63, 65)], invalid? (badCount 0 bytes) 0x02 37, invalid? (!bound) 0x05 6, transferRange x.prog lo bytes]

/-- The flits of a SEND, the last one marked; one signal where it carries no data (06 R159). -/
def flitsOf (bytes : List Byte) : Nat → List ChFlit
  | 0 => []
  | n + 1 => { bytes := bytes.take 64, last := n == 0 } :: flitsOf (bytes.drop 64) n

/-- SEND at issue (06 R159). -/
def sendBody (t n : Nat) (d : Dev) : Issue :=
  let (c, lo, bytes, token) := chanDesc n
  let x := d.tile t
  let bound := match d.chanRec c with
    | some r => d.endsAt r.src t && r.kind != 1
    | none => false
  issueOr (chanStatic x bound n ++ [tokenBusy x token, transferHazard x lo bytes false false]) fun _ =>
    if x.tokens.any fun k => k.2.op == 0x10 && k.2.chan == c && !k.2.done then d.waitRoom t
    else
      let ch := d.chan c
      let fs := if bytes = 0 then [({ signal := true, last := true } : ChFlit)] else flitsOf (memRead x.sram lo bytes) (bytes / 64)
      (d.setChan c { ch with flight := ch.flight ++ fs }).issueTok t token
        { mkTok 0x10 lo bytes false 0 0 0 false n with chan := c }

/-- The effect of SEND. -/
def effSend (t : Nat) (desc : Desc) (m : Met) (d : Dev) : Dev := d.issue t 0x10 desc m fun _ n d => sendBody t n d

/-- SEND (06 R159). -/
def execSend (t : Nat) (d : Desc) (m : Met) (s : State) : Host.Outcome State Fault Refusal := s.next (effSend t d m s.dev)

/-- CHANNEL_OVERRUN at a channel's receiver, against its posted RECV while that stands: the receiver stops, the image stops at the boundary (06 R159, R164). -/
def Dev.channelOverrun (d : Dev) (c : Nat) : Dev :=
  let t := d.hostOf (((d.chanRec c).map (·.dst)).getD 0xFFFF)
  let x := d.tile t
  if x.seqState = 3 ∨ x.seqState = 0 then d
  else
    let idx := match (d.chan c).posted with
      | some p => ((AMap.find x.tokens p.token).map (·.descIdx)).getD x.seqIndex
      | none => x.seqIndex
    let o := d.descOcc t Rc.channelOverrun c 2 3
    (((d.raise { o with desc := idx }).haltTile t 3).abandon x.stagesLeft 2).wantStop Rc.channelOverrun t idx

/-- A flit reaches the end of a data channel: it fills the posted RECV, is held for one, or lies beyond the RECV that its SEND has filled (06 R159); a stopped tile takes none, and it is discarded (R169). -/
def Dev.deliverFlit (d : Dev) (c : Nat) (f : ChFlit) : Dev :=
  let ch := d.chan c
  if (d.tile (d.hostOf (((d.chanRec c).map (·.dst)).getD 0xFFFF))).seqState = 3 then d
  else match ch.posted with
  | none =>
    if ch.overrun then (d.setChan c { ch with overrun := !f.last }).channelOverrun c
    else d.setChan c { ch with held := ch.held ++ [f] }
  | some p =>
    if ch.overrun then (d.setChan c { ch with overrun := !f.last }).channelOverrun c
    else if p.arrived then d.setChan c { ch with held := ch.held ++ [f] }
    else if f.signal then d.setChan c { ch with posted := some { p with arrived := true } }
    else if p.bytes = 0 then (d.setChan c { ch with overrun := !f.last }).channelOverrun c
    else
      let got := p.got + 64
      let d1 := d.onTile p.tile fun x => writeSram x (p.loc + p.got) f.bytes
      d1.setChan c { ch with posted := some { p with got := got, arrived := decide (p.bytes ≤ got) }
                             overrun := decide (p.bytes ≤ got) && !f.last }

/-- Held flits go to a RECV that has been posted. -/
def Dev.takeHeld (d : Dev) (c : Nat) : Nat → Dev
  | 0 => d
  | n + 1 =>
    let ch := d.chan c
    match ch.held, ch.posted with
    | f :: fs, some p =>
      if p.arrived && !ch.overrun then d
      else ((d.setChan c { ch with held := fs }).deliverFlit c f).takeHeld c n
    | _, _ => d

/-- RECV at issue (06 R159): posted with its token; a second one on the channel waits until the first is done. -/
def recvBody (t n : Nat) (d : Dev) : Issue :=
  let (c, lo, bytes, token) := chanDesc n
  let x := d.tile t
  let bound := match d.chanRec c with
    | some r => d.endsAt r.dst t && r.kind != 1
    | none => false
  issueOr (chanStatic x bound n ++ [tokenBusy x token, transferHazard x lo bytes true false]) fun _ =>
    let ch := d.chan c
    if ch.posted.isSome then d.waitRoom t
    else
      let d1 := d.setChan c { ch with posted := some { tile := t, token := token, loc := lo, bytes := bytes, got := 0, arrived := false } }
      let d2 := d1.onTile t fun x => { x with curBind := lo :: x.curBind.filter (· != lo)
                                              kvBind := x.kvBind.filter fun b => b.1 != lo }
      (d2.issueTok t token { mkTok 0x11 lo bytes true 0 0 0 false n with chan := c }).takeHeld c (ch.held.length)

/-- The effect of RECV. -/
def effRecv (t : Nat) (desc : Desc) (m : Met) (d : Dev) : Dev := d.issue t 0x11 desc m fun _ n d => recvBody t n d

/-- RECV (06 R159). -/
def execRecv (t : Nat) (d : Desc) (m : Met) (s : State) : Host.Outcome State Fault Refusal := s.next (effRecv t d m s.dev)

/-- A DRAM descriptor (06 R160): queue, token, local address, bytes, device address. -/
def dramDesc (n : Nat) : Nat × Nat × Nat × Nat × Nat :=
  (bitsOf n 6 2, bitsOf n 8 6, bitsOf n 14 19, bitsOf n 33 20, bitsOf n 53 48)

/-- What is wrong with a device range (06 R160): 1 outside DRAM, 2 alignment, 3 in the device's own structures (01 R32), to which the mirrored range with the image's regions of kinds 2 and 3 belongs (14 R343). -/
def Dev.dramBad (d : Dev) (a n : Nat) : Option Nat :=
  if d.dramTop < a + n then some 1
  else if a % 64 ≠ 0 then some 2
  else if (firstIn d.ownAt a n).isSome then some 3
  else none

/-- The queue of a transfer is of its kind (06 R160, R161). -/
def badQueue (write : Bool) (q : Nat) : Option (Nat × Nat) := invalid? (write && 2 ≤ q) 0x06 6

/-- A DRAM_READ into a range ends the binding of its rows to a KV_FETCH or RECV (10 R252). -/
def Dev.unbind (d : Dev) (t : Nat) (write : Bool) (lo : Nat) : Dev :=
  if write then d
  else d.onTile t fun x => { x with kvBind := x.kvBind.filter fun b => b.1 != lo
                                    curBind := x.curBind.filter (· != lo) }

/-- DRAM_READ or DRAM_WRITE at issue (06 R160, 07 R187, R189). -/
def dramBody (t n : Nat) (write : Bool) (d : Dev) : Issue :=
  let (q, token, lo, bytes, a) := dramDesc n
  let x := d.tile t
  issueOr [reserved? n [(101, 27)], invalid? (badCount 64 bytes) 0x02 33, badQueue write q, transferRange x.prog lo bytes,
      (d.dramBad a bytes).map fun k => (Rc.dramRange, k), tokenBusy x token, transferHazard x lo bytes (!write) false,
      dramHazard x [(a, bytes)] write] fun _ =>
    if 8 ≤ x.queued q write then d.waitRoom t
    else (d.unbind t write lo).issueTok t token (mkTok (if write then 0x13 else 0x12) lo bytes (!write) q a bytes write n)

/-- The effect of DRAM_READ. -/
def effDramRead (t : Nat) (desc : Desc) (m : Met) (d : Dev) : Dev :=
  d.issue t 0x12 desc m fun _ n d => dramBody t n false d

/-- DRAM_READ (06 R160). -/
def execDramRead (t : Nat) (d : Desc) (m : Met) (s : State) : Host.Outcome State Fault Refusal :=
  s.next (effDramRead t d m s.dev)

/-- The effect of DRAM_WRITE. -/
def effDramWrite (t : Nat) (desc : Desc) (m : Met) (d : Dev) : Dev :=
  d.issue t 0x13 desc m fun _ n d => dramBody t n true d

/-- DRAM_WRITE (06 R160). -/
def execDramWrite (t : Nat) (d : Desc) (m : Met) (s : State) : Host.Outcome State Fault Refusal :=
  s.next (effDramWrite t d m s.dev)

/-- The geometry of a layer; a layer without one has no page and no format (10 R240, R246). -/
def Dev.geomOf (d : Dev) (layer : Nat) : KvGeom :=
  (d.image.kvOf layer).getD { layer := layer, r := 64, pageBytes := 65536, fmt := 0xF }

/-- KV_PAGE_MISSING (10 R246, R247, R268): the record names the stream and, as its address, the block; the transfer moves nothing. -/
def Dev.pageMissing (d : Dev) (t token : Nat) (k : Tok) (stream layer block state cause : Nat) : Dev :=
  let d1 := { d with serve := { d.serve with missing := (d.serve.missing ++ [stream]).eraseDups } }
  (d1.dataFault t Rc.kvPageMissing (kvDetail layer state cause) block (some (stream % 65536))).issueEmpty t token k

/-- A column of the wave that a tile runs recomputes the owner of a page (10 R243). -/
def Dev.ownRecompute (d : Dev) (t col : Nat) (p : Pte) : Bool :=
  ((d.waveAt (d.tile t).stage).map fun w => w.cols.any fun c => c.slot == col && c.kind == 3 && c.stream == p.owner).getD false

/-- KV_FETCH at issue (06 R161, 10 R246, R250). -/
def fetchBody (t n : Nat) (d : Dev) : Issue :=
  let (layer, col, block, off, len) := kvDesc n
  let q := bitsOf n 6 2
  let token := bitsOf n 8 6
  let lo := bitsOf n 14 19
  let x := d.tile t
  let c := x.col col
  let g := d.geomOf layer
  let p := d.kvEntry c.stream layer block
  let quiet := !c.valid || (kvUnits x g.r n).isEmpty
  let cause := if quiet then none else d.pageCause p g (d.ownRecompute t col p)
  let dev := p.frame * 65536 + off
  let bindIt (d : Dev) : Dev := d.onTile t fun x =>
    { x with kvBind := (lo, col, block, off, layer, len) :: x.kvBind.filter fun b => b.1 != lo
             curBind := x.curBind.filter (· != lo) }
  issueOr [reserved? n [(93, 35)], invalid? (g.pageBytes < off + len) 0x02 65, transferRange x.prog lo len, tokenBusy x token,
      transferHazard x lo len true false,
      (if quiet || cause.isSome then none else dramHazard x [(dev, len)] false)] fun _ =>
    let k := mkTok 0x14 lo len true q dev len false n
    if 8 ≤ x.queued q false then d.waitRoom t
    else if quiet then (bindIt d).issueTok t token { k with done := true, devLen := 0 }
    else match cause with
      | some why => (bindIt d).pageMissing t token k c.stream layer block (d.kvEntry c.stream layer block).state why
      | none => ((bindIt d).issueTok t token k).takeCached t k

/-- The effect of KV_FETCH. -/
def effKvFetch (t : Nat) (desc : Desc) (m : Met) (d : Dev) : Dev := d.issue t 0x14 desc m fun _ n d => fetchBody t n d

/-- KV_FETCH (06 R161, 10 R246). -/
def execKvFetch (t : Nat) (d : Desc) (m : Met) (s : State) : Host.Outcome State Fault Refusal :=
  s.next (effKvFetch t d m s.dev)

/-- KV_STORE at issue (06 R161, 10 R247). -/
def storeBody (t n : Nat) (d : Dev) : Issue :=
  let (layer, col, block, off, len) := kvDesc n
  let q := bitsOf n 6 2
  let token := bitsOf n 8 6
  let lo := bitsOf n 14 19
  let x := d.tile t
  let c := x.col col
  let g := d.geomOf layer
  let own := c.position / 256
  let p := d.pte c.stream layer own
  let writes := p.state == 1 || p.state == 4
  let rowOff := off + c.position % 256 * g.r
  let dev := p.frame * 65536 + rowOff
  issueOr [reserved? n [(93, 35)], invalid? (block != 0xFFFFF) 0x02 45,
      invalid? (g.pageBytes < (if c.valid then rowOff else off) + len) 0x02 65, badQueue true q, transferRange x.prog lo len,
      tokenBusy x token, transferHazard x lo len false false,
      (if c.valid && writes then dramHazard x [(dev, len)] true else none)] fun _ =>
    let k := mkTok 0x15 lo len false q dev len true n
    if 8 ≤ x.queued q true then d.waitRoom t
    else if !c.valid then d.issueTok t token { k with done := true, devLen := 0 }
    else if p.state == 2 then d.issueEmpty t token k
    else if writes then d.issueTok t token k
    else d.pageMissing t token k c.stream layer own p.state 0

/-- The effect of KV_STORE. -/
def effKvStore (t : Nat) (desc : Desc) (m : Met) (d : Dev) : Dev := d.issue t 0x15 desc m fun _ n d => storeBody t n d

/-- KV_STORE (06 R161, 10 R247). -/
def execKvStore (t : Nat) (d : Desc) (m : Met) (s : State) : Host.Outcome State Fault Refusal :=
  s.next (effKvStore t d m s.dev)

/-- RESID_LOAD or RESID_STORE at issue (06 R162, 05 R120). -/
def residBody (t n : Nat) (load : Bool) (d : Dev) : Issue :=
  let (_, base, count, _) := residDesc n
  let q := bitsOf n 6 2
  let token := bitsOf n 8 6
  let x := d.tile t
  let k : Tok := { mkTok (if load then 0x16 else 0x17) base count load q 0 0 (!load) n with resid := true }
  issueOr [reserved? n [(59, 69)], invalid? (1024 < base + count) 0x02 24, invalid? (count == 0 || 1024 < count) 0x02 34,
      badQueue (!load) q, tokenBusy x token, transferHazard x base count load true,
      dramHazard x (tokRanges x k) (!load)] fun _ =>
    if 8 ≤ x.queued q (!load) then d.waitRoom t
    else if (residCols x load).isEmpty then d.issueEmpty t token k
    else d.issueTok t token k

/-- The effect of RESID_LOAD. -/
def effResidLoad (t : Nat) (desc : Desc) (m : Met) (d : Dev) : Dev :=
  d.issue t 0x16 desc m fun _ n d => residBody t n true d

/-- RESID_LOAD (06 R162). -/
def execResidLoad (t : Nat) (d : Desc) (m : Met) (s : State) : Host.Outcome State Fault Refusal :=
  s.next (effResidLoad t d m s.dev)

/-- The effect of RESID_STORE. -/
def effResidStore (t : Nat) (desc : Desc) (m : Met) (d : Dev) : Dev :=
  d.issue t 0x17 desc m fun _ n d => residBody t n false d

/-- RESID_STORE (06 R162). -/
def execResidStore (t : Nat) (d : Desc) (m : Met) (s : State) : Host.Outcome State Fault Refusal :=
  s.next (effResidStore t d m s.dev)

end Sys2Proof.Machine
end

