-- ==== Sys2Proof/Machine/Control.lean ====
section
/-! DEFINITION. Sections and control: the wave record a section reads (06 R139, R140), WAIT_TOKEN, FENCE_FORMAT and END_SECTION (R163), the end of a transfer's data movement (R145, 07 R188-R190), OPCODE_INVALID (R148) and the watchdog (R168). -/
namespace Sys2Proof.Machine

/-- A column of a wave as its record shows it: the owner's residual state as committed before the wave (06 R140, 05 R120, R121). -/
def Dev.colOf (d : Dev) (c : WCol) : Col :=
  let (slot, base) :=
    if 65536 ≤ c.stream then
      match AMap.find d.serve.prefixes (c.stream - 65536) with
      | some p => (p.residSlot, p.residBase)
      | none => (0, 0)
    else
      match d.stream? c.stream with
      | some s => (s.residSlot, s.residBase)
      | none => (0, 0)
  { valid := true, stream := c.stream, rank := c.rank, residSlot := slot, position := c.position, residBase := base }

/-- The wave record of a wave: column c holds the wave column of slot c (06 R140). -/
def Dev.waveRecord (d : Dev) (w : Wave) : List Col :=
  (List.range 4).map fun i => match w.cols.find? fun c => c.slot == i with
    | some c => d.colOf c
    | none => {}

/-- Starts the next section of a tile, or leaves it idle when none is left (06 R139, R143). -/
def Dev.nextSection (d : Dev) (t : Nat) : Dev :=
  let x := d.tile t
  match x.todo with
  | [] => d.onTile t fun x => { x with seqState := 0, waitTok := none, waitTree := none, waitEnd := false }
  | i :: rest =>
    let (first, stage, _) := x.sectionAt i
    let cols := match d.waveAt stage with
      | some w => d.waveRecord w
      | none => []
    d.onTile t fun x => { x with seqState := 1, seqSection := i, seqIndex := first, stage := stage, cols := cols,
                                 todo := rest, waitTok := none, waitTree := none, waitEnd := false }

/-- A mark of a DRAM line among the places at which a wave failed. -/
def lineMark (line : Nat) : Nat := 0x100000000 + line

/-- A done token is freed: DRAM_UNCORRECTABLE where its read failed (07 R190); a line of scratch that the replay reads poisoned stops the image (14 R340). -/
def Dev.freeTok (d : Dev) (t token : Nat) : Dev :=
  match AMap.find (d.tile t).tokens token with
  | none => d
  | some k =>
    let d1 := d.onTile t fun x => { x with tokens := AMap.erase token x.tokens }
    match k.bad with
    | none => d1
    | some line =>
      let d2 := d1.dataFault t Rc.dramUncorrectable token line
      let scratch := match d.regionAt line with
        | some r => r.kind == 1
        | none => false
      if scratch && d.failedBefore t (lineMark line) then d2.wantStop Rc.dramUncorrectable t (d.tile t).seqIndex
      else d2.noteFailure t (lineMark line)

/-- Ends a section: every token is freed, every entry closed (06 R163); the next section starts. -/
def Dev.endSection (d : Dev) (t : Nat) : Dev :=
  let d1 := ((d.tile t).tokens.map (·.1)).foldl (fun d k => d.freeTok t k) d
  (d1.onTile t fun x => { x with entries := [], kvBind := [], curBind := [], tokens := [] }).nextSection t

/-- The effect of WAIT_TOKEN (06 R145, R146, R163). -/
def effWaitToken (t : Nat) (desc : Desc) (m : Met) (d : Dev) : Dev :=
  d.issue t 0x20 desc m fun _ n d =>
    let token := bitsOf n 6 6
    let x := d.tile t
    let k := AMap.find x.tokens token
    issueOr [reserved? n [(12, 116)], fault? k.isNone Rc.tokenNotIssued token] fun _ =>
      if (k.map (·.done)).getD false then (d.freeTok t token).nextDesc t else d.waitDesc t (some token) none false

/-- WAIT_TOKEN (06 R163). -/
def execWaitToken (t : Nat) (d : Desc) (m : Met) (s : State) : Host.Outcome State Fault Refusal :=
  s.next (effWaitToken t d m s.dev)

/-- The effect of FENCE_FORMAT: the partials of the section have left with their descriptors; the table file becomes invalid (06 R163, 03 R71). -/
def effFenceFormat (t : Nat) (desc : Desc) (m : Met) (d : Dev) : Dev :=
  d.issue t 0x21 desc m fun _ n d =>
    issueOr [reserved? n [(6, 122)]] fun _ => (d.onTile t fun x => { x with table := none }).nextDesc t

/-- FENCE_FORMAT (06 R163). -/
def execFenceFormat (t : Nat) (d : Desc) (m : Met) (s : State) : Host.Outcome State Fault Refusal :=
  s.next (effFenceFormat t d m s.dev)

/-- The effect of END_SECTION (06 R163). -/
def effEndSection (t : Nat) (desc : Desc) (m : Met) (d : Dev) : Dev :=
  d.issue t 0x3F desc m fun _ n d =>
    issueOr [reserved? n [(6, 122)]] fun _ =>
      if (d.tile t).tokens.all fun k => k.2.done then d.endSection t else d.waitDesc t none none true

/-- END_SECTION (06 R163). -/
def execEndSection (t : Nat) (d : Desc) (m : Met) (s : State) : Host.Outcome State Fault Refusal :=
  s.next (effEndSection t d m s.dev)

/-- The opcodes that are listed (06 R148). -/
def listedOpcode (op : Nat) : Bool :=
  [0x01, 0x02, 0x03, 0x08, 0x09, 0x0A, 0x0B, 0x10, 0x11, 0x12, 0x13, 0x14, 0x15, 0x16, 0x17, 0x20, 0x21, 0x3F].contains op

/-- The effect of a fetched descriptor whose opcode is 0x00 or unlisted (06 R148). -/
def effOpcodeInvalid (t : Nat) (desc : Desc) (m : Met) (d : Dev) : Dev :=
  let op := desc.toNat % 64
  if listedOpcode op then d else d.issue t op desc { m with sramBad := none } fun _ _ _ => .refuse Rc.opcodeInvalid op

/-- OPCODE_INVALID (06 R148). -/
def execOpcodeInvalid (t : Nat) (d : Desc) (m : Met) (s : State) : Host.Outcome State Fault Refusal :=
  s.next (effOpcodeInvalid t d m s.dev)

/-- An earlier request of the same queue is not done: tokens of one queue become done in issue order (07 R189). -/
def Site.earlierInQueue (x : Site) (k : Tok) : Bool :=
  0x12 ≤ k.op && x.tokens.any fun q => !q.2.done && 0x12 ≤ q.2.op && q.2.queue == k.queue && q.2.devWrite == k.devWrite &&
    q.2.seq < k.seq

/-- What a token's transfer stands for has happened: the last byte of a SEND has left the tile, a RECV has its bytes (06 R159). -/
def Dev.moved (d : Dev) (t token : Nat) (k : Tok) : Bool :=
  if k.op = 0x10 then
    match d.chanRec k.chan with
    | some r => d.sendLeft k.chan r
    | none => true
  else if k.op = 0x11 then
    match (d.chan k.chan).posted with
    | some p => p.tile == t && p.token == token && p.arrived
    | none => false
  else true

/-- The poisoned or uncorrectable line that a read meets: one of the lines that it reads (07 R190, 14 R341). -/
def Dev.readBad (d : Dev) (k : Tok) (badLine : Option Nat) : Option Nat :=
  if k.devWrite || k.op ≤ 0x11 then none
  else match badLine with
    | some l => if k.lines.contains (l / 64 * 64) then some (l / 64 * 64) else none
    | none => k.lines.findSome? fun l => d.badLine l 64

/-- A sequencer that waits goes on where what it waits for is there (06 R145, R163). -/
def Dev.wake (d : Dev) (t : Nat) : Dev :=
  let x := d.tile t
  if x.seqState ≠ 2 then d
  else match x.waitTok with
    | some k => if ((AMap.find x.tokens k).map (·.done)).getD false then (d.freeTok t k).nextDesc t else d
    | none => if x.waitEnd && x.tokens.all fun k => k.2.done then d.endSection t else d

/-- A transfer's data has moved: its token is done, and a sequencer that waits for it goes on (06 R145). `badLine` is a line that the outer code could not correct (07 R190). -/
def effTokenDone (t token : Nat) (badLine : Option Nat) (d : Dev) : Dev :=
  let x := d.tile t
  match AMap.find x.tokens token with
  | none => d
  | some k =>
    if k.done || x.earlierInQueue k || !d.moved t token k then d
    else
      let bad := d.readBad k badLine
      let d1 := d.moveTok t k
      let d2 := if k.op = 0x11 then d1.setChan k.chan { d1.chan k.chan with posted := none } else d1
      let d2 := { d2 with mesh := { d2.mesh with packets := d2.mesh.packets.filter fun p => isSample p.id || packetTok p.id != (t, token) } }
      let d3 := d2.onTile t fun x => { x with tokens := AMap.insert token { k with done := true, bad := bad } x.tokens }
      let d4 := match bad with
        | some l => (d3.countUncorr l).lineLost l true
        | none => if k.devWrite || k.op ≤ 0x11 then d3 else d3.countReads k.lines
      d4.wake t

/-- TOKEN_DONE (06 R145). -/
def execTokenDone (t token : Nat) (badLine : Option Nat) (s : State) : Host.Outcome State Fault Refusal :=
  s.next (effTokenDone t token badLine s.dev)

/-- What a waiting descriptor waits for (06 R165 BEAT_WATCHDOG). -/
def Site.waitsFor (x : Site) : Nat := if x.waitTok.isSome || x.waitEnd then 1 else if x.waitTree.isSome then 2 else 3

/-- The wait limit of a waiting descriptor runs out (06 R168); a data fault of the same stage and beat covers the stall. -/
def effBeatWatchdog (t : Nat) (d : Dev) : Dev :=
  let x := d.tile t
  if x.seqState ≠ 2 || d.serve.faulted.contains (x.stage, 1) then d else d.imageFault t Rc.beatWatchdog x.waitsFor

/-- BEAT_WATCHDOG (06 R168). -/
def execBeatWatchdog (t : Nat) (s : State) : Host.Outcome State Fault Refusal := s.next (effBeatWatchdog t s.dev)

end Sys2Proof.Machine
end

