-- ==== Sys2Proof/Machine/Mesh.lean ====
section
/-! DEFINITION. The mesh: flits at a router port (07 R171-R173, R177, R178, R185), partials at a reduction node (04 R104-R108), links (R173), packets that wait (R181), liveness (20 R432) and the death of a tile (R431, R435). -/
namespace Sys2Proof.Machine

/-- A hop uses the router of a tile: it leaves it or arrives at it. -/
def hopsThrough (t : Nat) (h : Nat × Nat) : Bool := h.1 == t || neighbour h.1 h.2 == some t

/-- A tile that no verified table reaches any more is treated as lost, and its work is covered (07 R185). -/
def Dev.loseUnreached (d : Dev) : Dev :=
  let tb := d.mesh.tables
  let lost := if tb.whole then [] else
    let all := tb.spread (tileSet ((List.range 4).flatMap sideTiles))
    ((d.image.tiles.map fun r => d.hostOf r.tile).eraseDups).filter fun t => d.works t && !all.testBit t
  lost.foldl (fun (d : Dev) t => d.quarantine t Rc.packetUnroutable) d

/-- The routing tables and detours that wait come into force, the tables first (07 R180, R182, R185). -/
def Dev.applyDetours (d : Dev) : Dev :=
  if d.mesh.tables = d.lostRoutes then d.setDetours
  else ({ d with mesh := { d.mesh with tables := d.lostRoutes } }).setDetours.loseUnreached

/-- The links over a field's stitches, as (tile of the field, direction, tile beyond) (07 R172). -/
def stitchLinks (n : Nat) : List (Nat × Nat × Nat) :=
  (fieldTiles n).flatMap fun t => (List.range 4).filterMap fun dir => match neighbour t dir with
    | some u => if fieldOf u = n then none else some (t, dir, u)
    | none => none

/-- Sets both ends of a link down or up. -/
def Dev.setDown (d : Dev) (t dir u : Nat) (down : Bool) : Dev :=
  (d.setLink t dir { d.link t dir with down := down }).setLink u (opposite dir) { d.link u (opposite dir) with down := down }

/-- A field's stitch links go down (07 R172, R176). -/
def Dev.cutField (d : Dev) (n : Nat) : Dev := (stitchLinks n).foldl (fun (d : Dev) e => d.setDown e.1 e.2.1 e.2.2 true) d

/-- The stitch links of fields that have relocked return to routing, where the far end routes too (18 R407). -/
def Dev.applyRelink (d : Dev) : Dev :=
  d.wafer.relink.foldl (fun (d : Dev) n => (stitchLinks n).foldl (fun (d : Dev) e =>
    if d.fieldRoutes (fieldOf e.2.2) && !d.wafer.lostTiles.contains e.1 && !d.wafer.lostTiles.contains e.2.2 then
      d.setDown e.1 e.2.1 e.2.2 false
    else d) d) { d with wafer := { d.wafer with relink := [] } }

/-- A record that names a link by its sending tile and direction (20 R443). -/
def Dev.linkOcc (d : Dev) (t dir code cls outcome : Nat) : Occ :=
  d.atTile { code := code, detail := dir, cls := cls, source := 1, unitKind := 2, unit := dir, outcome := outcome } t

/-- A link is lost: LINK_DOWN, every wave in flight abandoned, its channels detoured (07 R173, R182, 20 R431, R434). -/
def Dev.linkLost (d : Dev) (t dir : Nat) : Dev :=
  if (d.link t dir).down then d
  else
    let d1 := d.setLink t dir { d.link t dir with down := true }
    let d2 := match neighbour t dir with
      | some u => d1.setLink u (opposite dir) { d1.link u (opposite dir) with down := true }
      | none => d1
    let d3 := (d2.raise (d2.linkOcc t dir Rc.linkDown 1 1)).interrupt
    d3.detourFor fun h => h == (t, dir) || (neighbour t dir == some h.1 && h.2 == opposite dir)

/-- The effect of LINK_DOWN. -/
def effLinkDown (t dir : Nat) (d : Dev) : Dev := if (neighbour t (dir % 4)).isNone then d else d.linkLost t (dir % 4)

/-- LINK_DOWN: a link between two routers is lost (07 R173). -/
def execLinkDown (t dir : Nat) (s : State) : Host.Outcome State Fault Refusal := s.next (effLinkDown t dir s.dev)

/-- A flit failed its CRC: it is retried and goes first from now on; the fourth failed retry in a row, or the 17th retry within 1 ms, takes the link down (07 R173). -/
def Dev.retryFlit (d : Dev) (t dir : Nat) (k : FlitKind) : Dev :=
  let l := d.link t dir
  let l1 : Link := { l with inRow := l.inRow + 1, retries := d.tick :: l.retries.filter fun r => d.tick - r < 25000
                            retrying := if d.sends t dir k then some k else l.retrying }
  if 5 ≤ l1.inRow then (d.setLink t dir l1).linkLost t dir
  else
    let d1 := (d.setLink t dir l1).raise (d.linkOcc t dir Rc.linkRetry 0 0)
    if 16 < l1.retries.length then d1.linkLost t dir else d1

/-- A node's input arrives (04 R104, R106, R108): at a slot that the tree does not hold or that is filled it is discarded and faults. -/
def Dev.redInput (d : Dev) (g tree slot : Nat) (parts : List Partial) : Dev :=
  match d.treeRec tree with
  | none => d
  | some tr =>
    match tr.nodeOf g with
    | none => d
    | some (i, _) =>
      let t := d.hostOf g
      let b := d.redBuf g tree
      if (d.tile t).seqState = 3 then d
      else if !((tr.inputsOf i).any fun p => p.1 == slot) || b.inputs.any fun p => p.1 == slot then
        d.imageFault t Rc.reductionUnexpected slot
      else
        let b1 := { b with inputs := AMap.insert slot parts b.inputs }
        let d1 := d.setRedBuf b1
        if b.loc.isNone then d1
        else match inputFault tr (b.loc.getD []).length [(slot, parts)] with
          | some f => d1.imageFault t f.1 f.2
          | none => d1.redTry g tree

/-- The partials that words spell, in pairs for a maximum or minimum tree (04 R105). -/
def partsOfWords (best : Bool) : Nat → List Nat → List Partial
  | 0, _ => []
  | n + 1, ws => match ws with
    | [] => []
    | w :: r => if best then partialPairOf w (r.headD 0) :: partsOfWords best n r.tail else partialOf w :: partsOfWords best n r

/-- The parent of the node whose result a reduction channel carries, as (parent's tile, slot). -/
def Dev.edgeEnd (d : Dev) (r : ChanRec) : Option (Nat × Nat) :=
  (d.treeRec r.treeId).bind fun tr => tr.nodes[r.node]?.bind fun n => tr.nodes[n.parent]?.map fun p => (p.tile, n.slot)

/-- A flit of a result reaches its node: the partials gather until the last flit of the result is there (04 R104, R106). -/
def Dev.gather (d : Dev) (c : Nat) (r : ChanRec) (f : ChFlit) : Dev :=
  let ch := d.chan c
  let parts := ch.gather ++ f.parts
  if !f.last then d.setChan c { ch with gather := parts }
  else
    let d1 := d.setChan c { ch with gather := [] }
    match d1.edgeEnd r with
    | some (g, slot) => d1.redInput g r.treeId slot parts
    | none => d1

/-- A channel flit leaves the channel at its receiver: data to the RECV, a result to its node, rim data to the rim (06 R159, 04 R104). -/
def Dev.arrive (d : Dev) (c : Nat) (r : ChanRec) (f : ChFlit) : Dev :=
  if r.kind = 1 then d.gather c r f
  else if r.dst = 0xFFFF then d.setChan c { d.chan c with held := (d.chan c).held ++ [f] }
  else d.deliverFlit c f

/-- The first flit of a channel in the buffer of router `i` of its route, and the flits without it. -/
def takeFlit (i : Nat) : List ChFlit → Option (ChFlit × List ChFlit)
  | [] => none
  | f :: fs => if f.hop = i then some (f, fs) else (takeFlit i fs).map fun p => (p.1, f :: p.2)

/-- The first flit in the buffer of router `i` is in that of the next. -/
def stepFlit (i : Nat) : List ChFlit → List ChFlit
  | [] => []
  | f :: fs => if f.hop = i then { f with hop := i + 1 } :: fs else f :: stepFlit i fs

/-- The first flit at router `i` of a channel's route goes on to the next router, or leaves the channel where that is its last (07 R177, R178). -/
def Dev.flitOn (d : Dev) (c : Nat) (r : ChanRec) (i : Nat) : Dev :=
  let ch := d.chan c
  match takeFlit i ch.flight with
  | none => d
  | some (f, rest) =>
    if (d.chanRoute c r).length ≤ i + 1 then (d.setChan c { ch with flight := rest }).arrive c r f
    else d.setChan c { ch with flight := stepFlit i ch.flight }

/-- A packet that no verified table takes to its destination is discarded where it is: PACKET_UNROUTABLE; a tile that cannot be reached is lost (07 R185). -/
def Dev.unroutable (d : Dev) (p : Packet) : Dev :=
  let d1 := { d with mesh := { d.mesh with packets := d.mesh.packets.filter fun q => q.id != p.id } }
  let d2 := d1.dataFault p.router Rc.packetUnroutable p.dst
  if d.mesh.tables.reaches p.dst then d2 else d2.quarantine p.dst Rc.packetUnroutable

/-- A response has reached its tile: a line of the token has been answered, and the queue sends the next (07 R188). -/
def Dev.lineAnswered (d : Dev) (id : Nat) : Dev :=
  let (t, token) := packetTok id
  let d1 := { d with mesh := { d.mesh with packets := d.mesh.packets.filter fun q => q.id != id } }
  match AMap.find (d1.tile t).tokens token with
  | some k => (d1.onTile t fun x => { x with tokens := AMap.insert token { k with answered := k.answered + 1 } x.tokens }).pumpQueue
      t k.queue k.devWrite
  | none => d1

/-- A packet moves to the router beyond a link (07 R180): a response at its tile answers its line, a sample at its checker has arrived. -/
def Dev.packetOn (d : Dev) (id t port : Nat) : Dev :=
  match d.mesh.packets.find? fun p => p.id == id with
  | none => d
  | some p =>
    if t = p.dst ∧ isSample id then { d with mesh := { d.mesh with packets := d.mesh.packets.filter fun q => q.id != id } }
    else if t = p.dst ∧ !p.request then d.lineAnswered id
    else { d with mesh := { d.mesh with packets := d.mesh.packets.map fun q => if q.id = id then { q with router := t, port := port } else q } }

/-- What comes over the outward link of an edge tile (01 R27): the response to a request that has left the mesh there (07 R188). -/
def Dev.fromRim (d : Dev) (t id : Nat) : Dev :=
  match d.mesh.packets.find? fun p => p.id == id with
  | none => d
  | some p =>
    if !p.request || p.router != t || p.dst != t then d
    else if p.src = t then d.lineAnswered id
    else { d with mesh := { d.mesh with packets := d.mesh.packets.map fun q =>
      if q.id = id then { q with cls := 3, src := t, dst := p.src, request := false, port := 5 } else q } }

/-- The partials that a node of a peer device sends over a boundary (04 R107). -/
def Dev.peerFlit (d : Dev) (r : ChanRec) (slot : Nat) (ws : List Nat) : Dev :=
  match d.edgeEnd r with
  | some (g, _) =>
    let best := ((d.treeRec r.treeId).map (·.best)).getD false
    d.redInput g r.treeId slot (partsOfWords best ws.length ws)
  | none => d

/-- The channel of a flit, with its record. -/
def Dev.flitChan (d : Dev) (k : FlitKind) : Option (Nat × ChanRec) :=
  match k with
  | .channel c => (d.chanRec c).map fun r => (c, r)
  | .packet _ => none

/-- A flit that has passed a link goes on (07 R171, R177, R180). -/
def Dev.flitGoes (d : Dev) (f : Flit) (src dir : Nat) : Dev :=
  match f.kind with
  | .packet id => d.packetOn id f.tile (f.dir % 4)
  | .channel c => match d.chanRec c with
    | some r => match d.sendsAt c r src dir with
      | some i => d.flitOn c r i
      | none => d
    | none => d

/-- A packet stands at a router from which no verified table leads to its destination (07 R185). -/
def Dev.stranded (d : Dev) (t : Nat) (k : FlitKind) : Option Packet :=
  match k with
  | .packet id => d.mesh.packets.find? fun p => p.id == id && p.router == t && p.dst != t && (d.mesh.tables.route t p.dst).isNone
  | .channel _ => none

/-- A flit over a link between two routers (07 R173): nothing comes over one that is down, nor past a flit that is being retried; a flit that fails its CRC is retried; one that its router can send goes on. -/
def Dev.overLink (d : Dev) (f : Flit) (src : Nat) : Dev :=
  let dir := opposite (f.dir % 4)
  let l := d.link src dir
  let behind := match l.retrying with
    | some k => k != f.kind && d.sends src dir k
    | none => false
  if l.down || behind then d
  else match d.stranded src f.kind with
  | some p => d.unroutable p
  | none =>
    if !f.crcOk then d.retryFlit src dir f.kind
    else match f.peer, d.flitChan f.kind with
    | some (slot, ws), some (_, r) =>
      if f.tile = d.chanEnd r then (d.setLink src dir { l with inRow := 0 }).peerFlit r slot ws
      else d.setLink src dir { l with inRow := 0 }
    | _, _ =>
      if d.sends src dir f.kind then (d.passLink src dir f.kind).flitGoes f src dir else d.setLink src dir { l with inRow := 0 }

/-- A flit of a channel without a hop, whose two ends share a router, or a response of the rim (07 R175, 01 R27). -/
def Dev.atRouter (d : Dev) (f : Flit) : Dev :=
  match f.kind with
  | .packet id => d.fromRim f.tile id
  | .channel c => match d.chanRec c with
    | some r => if (d.chanRoute c r).isEmpty && f.tile == d.chanEnd r then d.flitOn c r 0 else d
    | none => d

/-- The effect of FLIT_RECEIVE: a flit comes over a link, or over the outward link of an edge tile (07 R173, 01 R27). -/
def effFlitReceive (f : Flit) (d : Dev) : Dev :=
  match neighbour f.tile (f.dir % 4) with
  | none => d.atRouter f
  | some src => match d.flitChan f.kind with
    | some (c, r) => if (d.chanRoute c r).isEmpty then d.atRouter f else d.overLink f src
    | none => d.overLink f src

/-- FLIT_RECEIVE (07 R173). -/
def execFlitReceive (f : Flit) (s : State) : Host.Outcome State Fault Refusal := s.next (effFlitReceive f s.dev)

/-- A packet that has waited 4,096 cycles moves into class 1 (07 R181). -/
def effPacketAgePromote (id : Nat) (d : Dev) : Dev :=
  { d with mesh := { d.mesh with packets := d.mesh.packets.map fun p => if p.id = id then { p with cls := 1 } else p } }

/-- PACKET_AGE_PROMOTE (07 R181). -/
def execPacketAgePromote (id : Nat) (s : State) : Host.Outcome State Fault Refusal :=
  s.next (effPacketAgePromote id s.dev)

/-- A liveness period on a link, as its receiver sees it (20 R432): a flit heard clears the count of periods missed. -/
def effLivenessFlit (t dir : Nat) (heard : Bool) (d : Dev) : Dev :=
  match neighbour t (dir % 4) with
  | none => d
  | some u =>
    let l := d.link u (opposite (dir % 4))
    d.setLink u (opposite (dir % 4)) { l with missed := if heard then 0 else l.missed + 1 }

/-- LIVENESS_FLIT (20 R432). -/
def execLivenessFlit (t dir : Nat) (heard : Bool) (s : State) : Host.Outcome State Fault Refusal :=
  s.next (effLivenessFlit t dir heard s.dev)

/-- The effect of TILE_DEAD: the record, every wave in flight abandoned, the tile quarantined and covered, channels through its router detoured (20 R432, R434, R435, 07 R182). -/
def effTileDead (t : Nat) (linksDown : Bool) (d : Dev) : Dev :=
  if (d.physOf t).isNone || d.wafer.lostTiles.contains t then d
  else
    let d1 := d.raise (d.atTile { code := Rc.tileDead, detail := b2n linksDown, cls := 1, unitKind := 1, unit := d.ptileOf t,
                                  outcome := if d.imgActive then 1 else 2 } t)
    let d2 := { d1 with wafer := { d1.wafer with lostTiles := d1.wafer.lostTiles ++ [t] } }
    let d3 := if linksDown then (List.range 4).foldl (fun (d : Dev) dir => match neighbour t dir with
        | some u => (d.setLink t dir { d.link t dir with down := true }).setLink u (opposite dir)
            { d.link u (opposite dir) with down := true }
        | none => d) d2
      else d2
    (d3.interrupt.quarantine t Rc.tileDead).detourFor (hopsThrough t)

/-- TILE_DEAD (20 R432). -/
def execTileDead (t : Nat) (linksDown : Bool) (s : State) : Host.Outcome State Fault Refusal :=
  s.next (effTileDead t linksDown s.dev)

end Sys2Proof.Machine
end

