-- ==== Sys2Proof/Machine/LoadProg.lean ====
section
/-! DEFINITION. The loader's checks of programs (08 R170, R207): every section of every program run on tokens, entries and tables alone, the sequences of sections of R170, the weight bytes that products read, relocations, KV geometry (10 R240). -/
namespace Sys2Proof.Machine

/-- The KV geometry of a layer from the descriptors of an image (10 R240). -/
def kvGeometry (im : Image) : List KvGeom :=
  let ds := im.tiles.flatMap fun r => r.allDescs.map fun e => r.descAt e.2
  let stores := ds.filter fun n => n % 64 == 0x15
  let layers := (List.range 1024).filter fun l => stores.any fun n => bitsOf n 33 10 == l
  layers.map fun l =>
    let r := ((stores.find? fun n => bitsOf n 33 10 == l).map fun n => (bitsOf n 79 14 + 1) * 64).getD 64
    let ends := ds.filterMap fun n =>
      if bitsOf n 33 10 ≠ l then none
      else if n % 64 = 0x15 then some (bitsOf n 65 14 * 64 + 256 * r)
      else if n % 64 = 0x14 then some (bitsOf n 65 14 * 64 + (bitsOf n 79 14 + 1) * 64)
      else none
    { layer := l, r := r, pageBytes := maxOf ends, fmt := 0xF }

/-- The last earlier transfer of a section whose local range begins at `base`, where it is a KV_FETCH or RECV: the one to which a causal descriptor at `i` is bound (10 R252). -/
def TileRec.causalBind (r : TileRec) (s i base : Nat) : Option Nat :=
  let earlier := (r.sectDescs s).filter fun j => j < i
  let named (n : Nat) : Option Nat :=
    let op := n % 64
    if op = 0x10 ∨ op = 0x11 then some (bitsOf n 18 19)
    else if 0x12 ≤ op ∧ op ≤ 0x15 then some (bitsOf n 14 19) else none
  ((earlier.reverse.find? fun j => named (r.descAt j) == some base).map r.descAt).filter fun n => n % 64 == 0x14 || n % 64 == 0x11

/-- The formats that causal products give a layer's pages, in the image (10 R240). -/
def layerFmts (im : Image) (layer : Nat) : List Nat :=
  im.tiles.flatMap fun r => r.allDescs.filterMap fun e =>
    let n := r.descAt e.2
    if n % 64 = 0x02 && bitOf n 11 then
      match r.causalBind e.1 e.2 (bitsOf n 64 21) with
      | some f => if f % 64 = 0x14 && bitsOf f 33 10 == layer then some (bitsOf n 16 4) else none
      | none => none
    else none

/-- The KV geometry with page formats (10 R240). -/
def kvOfImage (im : Image) : List KvGeom := (kvGeometry im).map fun g => { g with fmt := (layerFmts im g.layer).headD 0xF }

/-- A DESC_CHECK that carries the fault code KV_GEOMETRY, with the detail of its record (10 R240, R268). -/
def kvRef (tile idx detail : Nat) : LoadRef :=
  { code := 0x0A, tile := tile, idx := idx, sect := 2, fault := Rc.kvGeometry, detail := detail }

/-- A format of KV pages (02 R37, 10 R239). -/
def isPageFmt (f : Nat) : Bool := [Fmt.i4, Fmt.i8, Fmt.f8a, Fmt.f8b, Fmt.f16, Fmt.bf16, Fmt.s4].contains f

/-- A transfer binds the causal product `p` as R252 requires: a KV_FETCH of one head section, or a RECV whose bytes are the rows of the product, one for each of at most four wave columns (DEDUCED, log entry 105). -/
def bindsCausal (gs : List KvGeom) (f : Nat) (p : ProdDesc) : Bool :=
  if f % 64 = 0x14 then
    let r := ((gs.find? fun g => g.layer == bitsOf f 33 10).map (·.r)).getD 64
    let lo := bitsOf f 65 14 * 64
    lo / (256 * r) == (lo + (bitsOf f 79 14 + 1) * 64 - 1) / (256 * r)
  else f % 64 == 0x11 && p.rows ≤ 4 && bitsOf f 37 20 == p.rows * p.rowStride

/-- The geometry of a layer breaks R240: its row stores disagree (detail 2), its formats disagree (3), a page above 1 MiB (1), a page that is no multiple of 256 rows (6). Named at the layer, with no tile. -/
def layerRefs (im : Image) (stores : List Nat) (g : KvGeom) : List LoadRef :=
  refIf (stores.any fun n => bitsOf n 33 10 == g.layer && (bitsOf n 79 14 + 1) * 64 != g.r) (kvRef 0xFFFF g.layer 2) ++
  refIf ((layerFmts im g.layer).any (· != g.fmt)) (kvRef 0xFFFF g.layer 3) ++
  refIf (2 ^ 20 < g.pageBytes) (kvRef 0xFFFF g.layer 1) ++
  refIf (g.pageBytes % (256 * g.r) != 0) (kvRef 0xFFFF g.layer 6)

/-- What breaks R240 and R252, and a causal product that gives a layer's pages a format which is none of KV pages (02 R38, 10 R239). -/
def kvRefs (im : Image) : List LoadRef :=
  let gs := kvOfImage im
  let stores := im.tiles.flatMap fun r => (r.allDescs.map fun e => r.descAt e.2).filter fun n => n % 64 == 0x15
  gs.flatMap (layerRefs im stores) ++ im.tiles.flatMap fun r => r.allDescs.flatMap fun e =>
    let n := r.descAt e.2
    if n % 64 = 0x15 then refIf (bitsOf n 45 20 != 0xFFFFF) (kvRef r.tile e.2 4)
    else if n % 64 = 0x14 then refIf (!gs.any fun g => g.layer == bitsOf n 33 10) (kvRef r.tile e.2 7)
    else if n % 64 = 0x02 && bitOf n 11 then
      match r.causalBind e.1 e.2 (bitsOf n 64 21) with
      | none => [kvRef r.tile e.2 5]
      | some f => refIf (!bindsCausal gs f (prodDesc true n)) (kvRef r.tile e.2 5) ++
          refIf (f % 64 == 0x14 && !isPageFmt (bitsOf n 16 4)) { code := 0x08, tile := r.tile, idx := e.2, sect := 2 }
    else []

/-- The refusal that a failed check of a descriptor comes under (08 R207). -/
def descRef (tile idx n code detail : Nat) : LoadRef :=
  let r : LoadRef := { code := 0x0A, tile := tile, idx := idx, sect := 2, fault := code }
  let reason := detail % 256
  let fld := detail / 256
  if code = Rc.accCapacity then { r with code := 0x0B }
  else if code = Rc.descInvalid ∧ reason = 0x03 then { r with code := if bitsOf n fld 4 = 15 then 0x07 else 0x08 }
  else if code = Rc.descInvalid ∧ n % 64 = 0x09 ∧ reason = 0x04 then { r with code := 0x11 }
  else if code = Rc.descInvalid ∧ n % 64 = 0x09 ∧ reason = 0x02 ∧ fld = 92 then { r with code := 0x12 }
  else r

/-- A section under check: the site's tokens, entries and tables; the activation tags of products since the last fence (05 R127). -/
structure LoadSim where
  x : Site
  tags : List Nat := []
  deriving DecidableEq, Repr

/-- Issues a token in a check. -/
def simTok (x : Site) (token : Nat) (k : Tok) : Site := { x with tokens := AMap.insert token k x.tokens }

/-- What the loader finds wrong with one descriptor of a section, and the section's state after it (08 R170). TABLE_STALE and fences are left to the sequences of R170. -/
def simDesc (im : Image) (r : TileRec) (s i : Nat) (x : Site) : List (Option (Nat × Nat)) × Site :=
  let n := r.descAt i
  let op := n % 64
  if op = 0x01 ∨ op = 0x02 then
    let p := prodDesc (op == 0x02) n
    let stride := match (if p.causal then r.causalBind s i p.wBase else none) with
      | some f => if f % 64 = 0x14 then ((im.kvOf (bitsOf f 33 10)).map (·.r)).getD 64 else p.rowStride
      | none => p.rowStride
    let es := List.replicate (if p.fresh then 8 * p.bandUnits * p.cols else p.rows * p.cols) (openEntry p.cls p.xFmt p.openExp)
    (prodStatic x.prog p n stride ++
      (if p.accOpen || p.fresh then [] else entryChecks x p.accBase (p.rows * p.cols) 104 p.xFmt p.cls) ++
      [computeHazard x (prodRanges p stride) none],
     { x with entries := setEntries x.entries (if p.fresh then 0 else p.accBase) (es.take 8192) })
  else if op = 0x03 then
    let p := logDesc n
    (logStatic x.prog p n ++
      (if p.accOpen then [] else entryChecks x p.accBase (2 ^ p.groups) 66 Fmt.l16 (if p.antilog then .antilog else .log)) ++
      [computeHazard x (logRanges p) none],
     { x with entries := setEntries x.entries p.accBase (List.replicate (2 ^ p.groups) p.opened) })
  else if op = 0x08 then
    let p := redDesc n
    let tr := im.trees.find? fun t => t.id == p.tree
    let nd := tr.bind fun t => t.nodeOf r.tile
    match tr, nd with
    | some t, some q =>
      let tags := if p.srcSel = 0 then (List.range p.count).filterMap fun i => (x.entry? (p.src % 8192 + i)).map (·.tag) else []
      let out := if q.2.isRoot && !(p.dstSram || t.wide) then
          setEntries x.entries (p.dst % 8192) (List.replicate p.count (redEntry (redClass x t p { sig := 0, exp := 0, tag := t.tag, kind := if t.best then 2 else 0 })
            { sig := 0, exp := 0, tag := t.tag, kind := if t.best then 2 else 0 }))
        else x.entries
      (redStatic x tr nd p n ++ [(tags.find? (· != t.tag)).map (fun g => (Rc.formatMismatch, g)),
        computeHazard x (redRanges t q.2.isRoot p) none], { x with entries := out })
    | _, _ => (redStatic x tr nd p n, x)
  else if op = 0x09 then
    let p := reqDesc n
    (reqStatic x p n ++ [invalid? (p.mode == 2 && 512 ≤ r.sectStage s) 0x04 8, computeHazard x p.ranges p.chans], x)
  else if op = 0x0A then
    let p := facetDesc n
    (facetStatic x p n ++ [computeHazard x p.ranges none], x)
  else if op = 0x0B then
    let p := sampleDesc n
    ([reserved? n [(84, 44)]] ++ (p.ranges.map fun q => computeRange x.prog q.1 q.2) ++ [computeHazard x p.ranges none], x)
  else if op = 0x10 ∨ op = 0x11 then
    let (c, lo, bytes, token) := chanDesc n
    let bound := match im.chans[c]? with
      | some h => (if op = 0x10 then h.src else h.dst) == r.tile && h.kind != 1
      | none => false
    (chanStatic x bound n ++ [tokenBusy x token, transferHazard x lo bytes (op == 0x11) false],
     simTok x token { mkTok op lo bytes (op == 0x11) 0 0 0 false n with chan := c })
  else if op = 0x12 ∨ op = 0x13 then
    let (q, token, lo, bytes, a) := dramDesc n
    let w := op == 0x13
    ([reserved? n [(101, 27)], invalid? (badCount 64 bytes) 0x02 33, badQueue w q, transferRange x.prog lo bytes,
      fault? (a % 64 != 0) Rc.dramRange 2, tokenBusy x token, transferHazard x lo bytes (!w) false],
     simTok x token (mkTok op lo bytes (!w) q a bytes w n))
  else if op = 0x14 ∨ op = 0x15 then
    let (_, _, _, _, len) := kvDesc n
    let q := bitsOf n 6 2
    let token := bitsOf n 8 6
    let lo := bitsOf n 14 19
    let w := op == 0x15
    ([reserved? n [(93, 35)], badQueue w q, transferRange x.prog lo len, tokenBusy x token, transferHazard x lo len (!w) false],
     simTok x token (mkTok op lo len (!w) q 0 len w n))
  else if op = 0x16 ∨ op = 0x17 then
    let (_, base, count, _) := residDesc n
    let q := bitsOf n 6 2
    let token := bitsOf n 8 6
    let load := op == 0x16
    ([reserved? n [(59, 69)], invalid? (1024 < base + count) 0x02 24, invalid? (count == 0 || 1024 < count) 0x02 34,
      badQueue (!load) q, tokenBusy x token, transferHazard x base count load true],
     simTok x token { mkTok op base count load q 0 0 (!load) n with resid := true })
  else if op = 0x20 then
    let token := bitsOf n 6 6
    ([reserved? n [(12, 116)], fault? (AMap.find x.tokens token).isNone Rc.tokenNotIssued token],
     { x with tokens := AMap.erase token x.tokens })
  else if op = 0x21 then ([reserved? n [(6, 122)]], x)
  else if op = 0x3F then ([reserved? n [(6, 122)]], { x with tokens := [], entries := [] })
  else ([some (Rc.opcodeInvalid, op)], x)

/-- A site on which a tile's program is checked. -/
def TileRec.simSite (r : TileRec) : Site := { progBase := r.progBase, progBytes := r.progBytes, dataTop := r.dataTop }

/-- What is wrong in one section. -/
def sectRefs (im : Image) (r : TileRec) (s : Nat) : List LoadRef :=
  let run := (r.sectDescs s).foldl (fun (acc : List LoadRef × Site) i =>
    let (fs, x) := simDesc im r s i acc.2
    (acc.1 ++ fs.filterMap (fun f => f.map fun f => descRef r.tile i (r.descAt i) f.1 f.2), x)) ([], r.simSite)
  run.1 ++
    refIf (r.openEnded s) { code := 0x0A, tile := r.tile, idx := bitsOf (r.sectWord s) 0 16, sect := 2, fault := Rc.descInvalid } ++
    refIf (bitsOf (r.sectWord s) 27 5 != 0) { code := 0x0A, tile := r.tile, idx := bitsOf (r.sectWord s) 0 16, sect := 2, fault := Rc.descInvalid }

/-- Local ranges that a descriptor names, against `data_top` (08 R199). -/
def descTop (im : Image) (r : TileRec) (s i : Nat) : Nat :=
  let n := r.descAt i
  let op := n % 64
  let rs : List (Nat × Nat) :=
    if op = 0x01 ∨ op = 0x02 then
      let p := prodDesc (op == 0x02) n
      let stride := match (if p.causal then r.causalBind s i p.wBase else none) with
        | some f => if f % 64 = 0x14 then ((im.kvOf (bitsOf f 33 10)).map (·.r)).getD 64 else p.rowStride
        | none => p.rowStride
      prodRanges p stride
    else if op = 0x03 then logRanges (logDesc n)
    else if op = 0x08 then
      match im.trees.find? fun t => t.id == (redDesc n).tree with
      | some t => redRanges t (((t.nodeOf r.tile).map (·.2.isRoot)).getD false) (redDesc n)
      | none => []
    else if op = 0x09 then (reqDesc n).ranges
    else if op = 0x0A then (facetDesc n).ranges
    else if op = 0x0B then (sampleDesc n).ranges
    else if op = 0x10 ∨ op = 0x11 then [((chanDesc n).2.1, (chanDesc n).2.2.1)]
    else if op = 0x12 ∨ op = 0x13 then [(bitsOf n 14 19, bitsOf n 33 20)]
    else if op = 0x14 ∨ op = 0x15 then [(bitsOf n 14 19, (bitsOf n 79 14 + 1) * 64)]
    else []
  maxOf (rs.map fun q => q.1 + q.2)

/-- The range of working SRAM that a REDUCE writes: that of a root whose result goes there (06 R155). -/
def redWrites (im : Image) (tile n : Nat) : List (Nat × Nat) :=
  let p := redDesc n
  match im.trees.find? fun t => t.id == p.tree with
  | some t => if ((t.nodeOf tile).map (·.2.isRoot)).getD false && (p.dstSram || t.wide) then [(p.dst, p.count * redOutSize t p)] else []
  | none => []

/-- One descriptor in a sequence of sections: table reuse and fences (08 R170, 03 R71, 05 R127). -/
def seqDesc (im : Image) (r : TileRec) (acc : List LoadRef × LoadSim) (i : Nat) : List LoadRef × LoadSim :=
  let n := r.descAt i
  let op := n % 64
  let s := acc.2
  if op = 0x01 ∨ op = 0x02 then
    let p := prodDesc (op == 0x02) n
    let stale := match tableStale s.x p with
      | some f => [descRef r.tile i n f.1 f.2]
      | none => []
    let fence := refIf (s.tags.any (· != p.xFmt)) { code := 0x14, tile := r.tile, idx := i, sect := 2 }
    let built := prodTables p [] 15 s.x
    (acc.1 ++ stale ++ fence,
     { x := if p.fresh then writeSram built (64 * p.accBase) (List.replicate (8 * p.rows * p.cols) 0) else built
       tags := p.xFmt :: s.tags })
  else if op = 0x03 then (acc.1, { s with x := { s.x with table := none } })
  else if op = 0x21 then (acc.1, { x := { s.x with table := none }, tags := [] })
  else
    let w : List (Nat × Nat) :=
      if op = 0x08 then redWrites im r.tile n
      else if op = 0x09 then [((reqDesc n).dst, (reqDesc n).cols * colBytes (reqDesc n).fmt (reqDesc n).count)]
      else if op = 0x0A then (facetDesc n).ranges.drop ((facetDesc n).ranges.length - 1)
      else if op = 0x0B then [((sampleDesc n).dst, 4)]
      else if op = 0x11 then [((chanDesc n).2.1, (chanDesc n).2.2.1)]
      else if op = 0x12 then [(bitsOf n 14 19, bitsOf n 33 20)]
      else if op = 0x14 then [(bitsOf n 14 19, (bitsOf n 79 14 + 1) * 64)]
      else []
    let hit := match s.x.table with
      | some t => w.any fun q => overlaps q.1 q.2 t.xBase t.xLen
      | none => false
    (acc.1, if hit then { s with x := { s.x with table := none } } else s)

/-- All sublists of a list. -/
def sublists : List Nat → List (List Nat)
  | [] => [[]]
  | x :: xs => (sublists xs) ++ (sublists xs).map (x :: ·)

/-- What is wrong in a sequence in which a tile's sections can run in one beat (08 R170). -/
def seqRefs (im : Image) (r : TileRec) : List LoadRef :=
  let stages := (r.sections.map r.sectStage).eraseDups
  (sublists stages).flatMap fun set =>
    ((r.sections.filter fun s => set.contains (r.sectStage s)).foldl (fun acc s =>
      (r.sectDescs s).foldl (seqDesc im r) acc) (([], { x := r.simSite }) : List LoadRef × LoadSim)).1

/-- A product of a tile reads a B1 plane that holds a zero trit below K (02 R48). -/
def weightBad (im : Image) (r : TileRec) (n : Nat) : Bool :=
  let p := prodDesc (n % 64 == 0x02) n
  let m := im.tileWeights r
  !p.wSram && p.wFmt == Fmt.b1 && (List.range p.rows).any fun i => (List.range p.k).any fun k => p.weight m i k == 0

/-- BAD_WEIGHT_CODE of a tile: a byte of its weight data above 242, whose offset is the entry index (02 R47, DEDUCED, log entry 59), or a B1 plane with a zero trit (02 R48). -/
def weightRefs (im : Image) (r : TileRec) : List LoadRef :=
  (match (im.tileWeights r).find? fun e => decide (242 < e.2.toNat) with
    | some e => [{ code := 0x09, tile := r.tile, idx := e.1, sect := 6 }]
    | none => []) ++
  r.allDescs.flatMap fun e =>
    let n := r.descAt e.2
    refIf ((n % 64 == 0x01 || n % 64 == 0x02) && weightBad im r n) { code := 0x09, tile := r.tile, idx := e.2, sect := 6 }

/-- The largest magnitude of an addend in units of 2^Z (04 R94); none outside the integer and F8A classes. -/
def addendMax : Nat → Option Nat
  | 2 => some 2
  | 3 => some 8
  | 4 => some 128
  | 5 => some 32768
  | 6 => some 255
  | 7 => some 229376
  | _ => none

/-- The largest magnitude that a trit operand's planes can encode (04 R94). -/
def tritMax (fmt : Nat) : Nat := (3 ^ planesOf fmt - 1) / 2

/-- A product's K passes the limit of R94 (04 R95). -/
def rangeBad (p : ProdDesc) : Bool :=
  match addendMax p.xFmt with
  | some mx => p.cls != .windowed && 2 ^ 47 - 1 < p.k * tritMax p.wFmt * mx
  | none => false

/-- REDUCTION_RANGE of a tile's products (04 R95). -/
def rangeRefs (r : TileRec) : List LoadRef :=
  r.allDescs.flatMap fun e =>
    let n := r.descAt e.2
    refIf ((n % 64 == 0x01 || n % 64 == 0x02) && rangeBad (prodDesc (n % 64 == 0x02) n))
      { code := 0x0C, tile := r.tile, idx := e.2, sect := 2 }

/-- Every DRAM_READ and DRAM_WRITE of a program. -/
def TileRec.dramDescs (r : TileRec) : List Nat :=
  (List.range r.descCount).filter fun i => r.descAt i % 64 == 0x12 || r.descAt i % 64 == 0x13

/-- The relocation entry of a descriptor. -/
def Image.relocOf (im : Image) (tile desc : Nat) : Option RelocRec := im.relocs.find? fun q => q.tile == tile && q.desc == desc

/-- RELOCATION (08 R200, R207). -/
def relocRefs (im : Image) (rawRegions rawRelocs : List Nat) : List LoadRef :=
  let regs := (List.range im.regions.length).flatMap fun i => match im.regions[i]? with
    | some g => refIf (4 ≤ g.kind || g.size == 0 || g.size % 4096 != 0 || ((im.regions.take i).any fun h => h.num == g.num) ||
        bitsOf (rawRegions.getD i 0) 12 52 != 0) { code := 0x1B, idx := i, sect := 7 }
    | none => []
  let rels := (List.range im.relocs.length).flatMap fun i => match im.relocs[i]? with
    | some q => refIf (bitsOf (rawRelocs.getD i 0) 40 24 != 0 || !(im.regions.any fun g => g.num == q.region) ||
        (match im.rec? q.tile with
          | some r => !r.dramDescs.contains q.desc
          | none => true)) { code := 0x1B, tile := q.tile, idx := q.desc, sect := 8 }
    | none => []
  let used := im.tiles.flatMap fun r => r.dramDescs.flatMap fun i =>
    refIf (match im.relocOf r.tile i with
      | some q => match im.regions.find? fun g => g.num == q.region with
        | some g => g.size < bitsOf (r.descAt i) 53 48 + bitsOf (r.descAt i) 33 20
        | none => false
      | none => true) { code := 0x1B, tile := r.tile, idx := i, sect := 8 }
  regs ++ rels ++ used

/-- Static DRAM ranges of a tile in a stage: (region, offset, bytes, write, descriptor) (07 R189). -/
def TileRec.stageDram (r : TileRec) (im : Image) (stage : Nat) : List (Nat × Nat × Nat × Bool × Nat) :=
  ((r.sections.filter fun s => r.sectStage s == stage).flatMap r.sectDescs).filterMap fun i =>
    let n := r.descAt i
    if n % 64 = 0x12 ∨ n % 64 = 0x13 then
      (im.relocOf r.tile i).map fun q => (q.region, bitsOf n 53 48, bitsOf n 33 20, n % 64 == 0x13, i)
    else none

/-- DRAM_OVERLAP (07 R189). -/
def overlapRefs (im : Image) : List LoadRef :=
  im.stages.flatMap fun st =>
    let all := im.tiles.flatMap fun r => (r.stageDram im st.stage).map fun e => (r.tile, e)
    all.flatMap fun a => refIf (all.any fun b => a.1 < b.1 && a.2.1 == b.2.1 && (a.2.2.2.2.1 || b.2.2.2.2.1) &&
      overlaps a.2.2.1 a.2.2.2.1 b.2.2.1 b.2.2.2.1) { code := 0x1A, tile := a.1, idx := a.2.2.2.2.2, sect := 2 }

end Sys2Proof.Machine
end

