-- ==== Sys2Proof/Machine/LoadMap.lean ====
section
/-! DEFINITION. The loader's checks of tile records, trees, channels, stages and stripes (08 R199, 04 R107, R108, 07 R175, R179, R186, 09 R211-R220, 11 R269). -/
namespace Sys2Proof.Machine

/-- Tile records against R199; `raw` are their 256-bit numbers. -/
def tileRefs (im : Image) (raw : List Nat) : List LoadRef :=
  (List.range im.tiles.length).flatMap fun i => match im.tiles[i]? with
    | none => []
    | some r =>
      let n := raw.getD i 0
      let bad := bitsOf n 18 14 != 0 || bitsOf n 51 13 != 0 || bitsOf n 83 13 != 0 || bitsOf n 115 13 != 0 || bitsOf n 214 42 != 0 ||
        !isLogical r.tile || ((im.tiles.take i).any fun q => q.tile == r.tile) || r.progBase % 64 != 0 ||
        (r.role == 3 && (r.progBytes != 0 || r.wBytes != 0)) || (r.role != 3 && (r.progBytes < 64 || r.progBytes % 16 != 0)) ||
        (r.role == 1 && r.wBytes != 0) || r.dataTop < r.progBase + r.progBytes || Config.tableBase < r.dataTop
      let tops := (r.allDescs.filter fun e => r.dataTop < descTop im r e.1 e.2).map fun e =>
        ({ code := 0x06, tile := r.tile, idx := e.2, sect := 2 } : LoadRef)
      refIf bad { code := 0x06, tile := r.tile, idx := i, sect := 1 } ++ tops ++
        refIf (Config.weightBytes < r.wBytes || im.weightsLen < r.wOffset + r.wBytes) { code := 0x1F, tile := r.tile, idx := i, sect := 1 }

/-- The reserve-tiles section is the list of role-3 records, ascending (08 R205). -/
def reserveRefs (im : Image) : List LoadRef :=
  let want := (im.tiles.filter fun r => r.role == 3).map (·.tile)
  refIf (im.reserve.length != want.length || im.reserve.any (fun t => !want.contains t) ||
    ((List.range im.reserve.length).any fun i => i != 0 && im.reserve.getD i 0 ≤ im.reserve.getD (i - 1) 0))
    { code := 0x06, sect := 9 }

/-- From a node, the root is reached within `n` steps. -/
def rootFrom (t : TreeRec) : Nat → Nat → Bool
  | 0, _ => false
  | n + 1, i => match t.nodes[i]? with
    | none => false
    | some q => if q.parent = 0xFFFF then true else rootFrom t n q.parent

/-- The stage in which a tree is reduced: that of the first section of its root tile that names it. -/
def Image.treeStage (im : Image) (t : TreeRec) : Nat :=
  match (t.nodes.find? fun q => q.parent == 0xFFFF).bind fun q => im.rec? q.tile with
  | some r => ((r.allDescs.find? fun e => r.descAt e.2 % 64 == 0x08 && (redDesc (r.descAt e.2)).tree == t.id).map fun e =>
      r.sectStage e.1).getD 0x3FF
  | none => 0x3FF

/-- The trit operands that feed a tree by tag: the largest Mw on its tiles (04 R95). -/
def Image.treeMw (im : Image) (t : TreeRec) : Nat :=
  maxOf (t.nodes.flatMap fun q => match im.rec? q.tile with
    | some r => r.allDescs.filterMap fun e =>
        let n := r.descAt e.2
        let p := prodDesc (n % 64 == 0x02) n
        if (n % 64 = 0x01 ∨ n % 64 = 0x02) ∧ p.xFmt = t.tag ∧ p.cls ≠ .windowed then some (tritMax p.wFmt) else none
    | none => [])

/-- Trees against R107, R108 and R95; `raw` gives each tree's header and node words. -/
def treeRefs (im : Image) (raw : List (Nat × List Nat)) : List LoadRef :=
  (List.range im.trees.length).flatMap fun i => match im.trees[i]? with
    | none => []
    | some t =>
      let (h, ws) := raw.getD i (0, [])
      let n := t.nodes.length
      let pairs := t.nodes.filter fun q => q.parent != 0xFFFF
      let invalid := n == 0 || (t.nodes.filter fun q => q.parent == 0xFFFF).length != 1 ||
        ((List.range n).any fun j => !rootFrom t (n + 1) j) ||
        (t.nodes.any fun q => (im.rec? q.tile).isNone || q.kind == 3 || (q.slot == 255 && q.parent != 0xFFFF)) ||
        ((List.range pairs.length).any fun j => match pairs[j]? with
          | some q => (pairs.take j).any fun p => p.parent == q.parent && p.slot == q.slot
          | none => false) ||
        ((List.range n).any fun j => match t.nodes[j]? with
          | some q => (t.nodes.take j).any fun p => p.tile == q.tile
          | none => false) ||
        ((im.trees.take i).any fun q => q.id == t.id) || 5 ≤ t.cls || bitsOf h 25 7 != 0 || bitsOf h 54 10 != 0 ||
        (ws.any fun w => bitsOf w 42 6 != 0 || bitsOf w 58 6 != 0) ||
        t.fields != ((t.nodes.map fun q => fieldOf q.tile).eraseDups).length ||
        t.nodes.any fun q => q.kind != 1 && q.device != 0
      let big := match addendMax t.tag with
        | some mx => 2 ^ 47 - 1 < t.kTotal * im.treeMw t * mx
        | none => false
      let at_ (code : Nat) : LoadRef := { code := code, idx := i, sect := 5 }
      refIf (t.tag == 15) (at_ 0x07) ++ refIf big (at_ 0x0C) ++ refIf invalid (at_ 0x0D) ++
        refIf (t.cls == 1 && 4 < t.fields) (at_ 0x0E) ++
        refIf ((t.cls == 1 || t.cls == 2) && 2 ^ 24 < t.terms && !t.override) (at_ 0x0F) ++
        refIf (t.wide && 64 < (im.trees.filter fun q => q.wide && im.treeStage q == im.treeStage t).length) (at_ 0x10)

/-- The end of a path from a tile, following its hops; none when it leaves the array. -/
def pathEnd : Nat → List (Nat × Nat) → Option Nat
  | t, [] => some t
  | t, h :: hs => match neighbour t h.2 with
    | some u => pathEnd u hs
    | none => none

/-- The routers of a path, its start and end among them. -/
def pathTiles (a : Nat) (p : List (Nat × Nat)) : List Nat := a :: p.filterMap fun h => neighbour h.1 h.2

/-- An edge tile of the array (01 R27). -/
def edgeTile (t : Nat) : Bool := t % 256 == 0 || t % 256 == 179 || t / 256 == 0 || t / 256 == 191

/-- ROUTE_INVALID (07 R179). -/
def routeBad (im : Image) (raw : Nat) (r : ChanRec) : Bool :=
  let a := if r.src = 0xFFFF then r.rimTile else r.src
  let b := if r.dst = 0xFFFF then r.rimTile else r.dst
  let edge := match im.trees.find? fun t => t.id == r.treeId with
    | some t => match t.nodes[r.node]? with
      | some q => match t.nodes[q.parent]? with
        | some p => q.tile == r.src && p.tile == r.dst
        | none => false
      | none => false
    | none => false
  bitsOf raw 42 6 != 0 || bitsOf raw 208 48 != 0 || r.kind == 3 || r.route == 3 || !isLogical a || !isLogical b ||
    (r.kind == 2) != (r.src == 0xFFFF || r.dst == 0xFFFF) || (r.src == 0xFFFF && r.dst == 0xFFFF) ||
    (r.kind == 2 && !edgeTile r.rimTile) || (r.kind == 1 && !edge) || (r.kind != 1 && (r.treeId != 0 || r.node != 0)) ||
    (r.kind != 2 && r.rimTile != 0) ||
    (r.route == 2 && (r.hopCount == 0 || 1024 < r.hopCount || r.hops.any fun h => 4 ≤ h)) ||
    pathEnd a r.path != some b || (pathTiles a r.path).eraseDups.length != (pathTiles a r.path).length

/-- Slots set in a mask. -/
def popcount (m : Nat) : Nat := ((List.range 64).filter fun i => bitOf m i).length

/-- The link directions that channels use. -/
def Image.links (im : Image) : List (Nat × Nat) := (im.chans.flatMap (·.path)).eraseDups

/-- The routers that channels use. -/
def Image.routers (im : Image) : List Nat :=
  (im.chans.flatMap fun r => pathTiles (if r.src = 0xFFFF then r.rimTile else r.src) r.path).eraseDups

/-- Channels against R175, R179 and R186. STAKE_COLLISION names the link by its sending tile and, as index, direction + 4 × slot (DEDUCED, log entry 87). -/
def chanRefs (im : Image) (raw : List Nat) : List LoadRef :=
  let idx := List.range im.chans.length
  let nth (i : Nat) : ChanRec := im.chans.getD i { src := 0, dst := 0, kind := 0, route := 0, bufferFlits := 2, rimTile := 0, stakeMask := 0, treeId := 0, node := 0, hopsOffset := 0, hopCount := 0, hops := [] }
  let collide := im.links.flatMap fun h =>
    let on := idx.filter fun i => (nth i).path.contains h
    ((List.range 64).filter fun slot => 1 < (on.filter fun i => bitOf (nth i).stakeMask slot).length).map fun slot =>
      ({ code := 0x15, tile := h.1, idx := h.2 + 4 * slot, sect := 3 } : LoadRef)
  let limit := im.links.flatMap fun h =>
    refIf (56 < ((idx.filter fun i => (nth i).path.contains h).map fun i => popcount (nth i).stakeMask).foldl (· + ·) 0)
      { code := 0x16, tile := h.1, idx := h.2, sect := 3 }
  let buf := im.routers.flatMap fun t =>
    refIf (128 < ((im.chans.filter fun r => (pathTiles (if r.src = 0xFFFF then r.rimTile else r.src) r.path).contains t).map
      (·.bufferFlits)).foldl (· + ·) 0) { code := 0x17, tile := t, sect := 3 }
  let each := idx.flatMap fun i =>
    let r := nth i
    refIf (r.bufferFlits < 2) { code := 0x17, idx := i, sect := 3 } ++
      refIf (routeBad im (raw.getD i 0) r) { code := 0x18, idx := i, sect := 3 } ++
      refIf (im.w18 && r.stakeMask != 0) { code := 0x19, idx := i, sect := 3 }
  let edges := im.trees.flatMap fun t => (List.range t.nodes.length).flatMap fun j => match t.nodes[j]? with
    | some q => refIf (q.parent != 0xFFFF && q.kind != 1 && !(match t.nodes[q.parent]? with
        | some p => p.kind == 1
        | none => false) && !(im.chans.any fun c => c.kind == 1 && c.treeId == t.id && c.node == j))
        { code := 0x18, tile := q.tile, idx := j, sect := 5 }
    | none => []
  collide ++ limit ++ buf ++ each ++ edges

/-- The stages of an image: main, then draft (11 R269). -/
def Image.stageCount (im : Image) (draft : Bool) : Nat := (im.stages.filter fun s => (512 ≤ s.stage) == draft).length

/-- Stage entries against R217, R212 and R269; `raw` are their words. -/
def stageRefs (im : Image) (raw : List Nat) : List LoadRef :=
  let s := im.stageCount false
  let want (i : Nat) : Nat := if i < s then i else 512 + (i - s)
  let idx := List.range im.stages.length
  let total := (im.stages.map (·.stripeCount)).foldl (· + ·) 0
  refIf (s == 0 || total != im.stripes.length ||
    ((List.range im.stripes.length).any fun n => (im.stages.filter fun e => e.stripeFirst ≤ n && n < e.stripeFirst + e.stripeCount).length != 1))
    { code := 0x06, sect := 0x0A } ++
  idx.flatMap fun i => match im.stages[i]? with
    | none => []
    | some e =>
      let w := raw.getD i 0
      let adj := match im.stages[i + 1]? with
        | some f => i + 1 == s || f.rowFirst == e.rowLast || f.rowFirst == e.rowLast + 1 ||
            (f.rowFirst == 0 && e.rowLast == 31)
        | none => true
      refIf (e.stage != want i || e.rowLast < e.rowFirst || bitsOf w 10 6 != 0 || bitsOf w 21 3 != 0 || bitsOf w 29 3 != 0 ||
        bitsOf w 80 48 != 0 || !adj) { code := 0x06, idx := i, sect := 0x0A }

/-- A SAMPLE runs in a stage of an image. -/
def Image.samplesIn (im : Image) (stage : Nat) : Bool :=
  im.tiles.any fun r => r.allDescs.any fun e => r.sectStage e.1 == stage && r.descAt e.2 % 64 == 0x0B

/-- The last stage of each pipeline runs the SAMPLE of its columns, and no other stage does (11 R269). -/
def sampleRefs (im : Image) : List LoadRef :=
  let last (first n : Nat) : List Nat := if n = 0 then [] else [first + n - 1]
  let ends := last 0 (im.stageCount false) ++ last 512 (im.stageCount true)
  refIf (ends.any fun s => !im.samplesIn s) { code := 0x06, sect := 0x0A } ++
    im.tiles.flatMap fun r => r.allDescs.flatMap fun e =>
      refIf (r.descAt e.2 % 64 == 0x0B && !ends.contains (r.sectStage e.1)) { code := 0x06, tile := r.tile, idx := e.2, sect := 0x0A }

/-- The stage entry of a stage. -/
def Image.stage? (im : Image) (s : Nat) : Option StageRec := im.stages.find? fun e => e.stage == s

/-- A tile lies in a stage's row band (09 R212). -/
def Image.inBand (im : Image) (t s : Nat) : Bool :=
  match im.stage? s with
  | some e => e.rowFirst ≤ t / 256 % 32 && t / 256 % 32 ≤ e.rowLast
  | none => false

/-- A weight member, girdle tile or compute-only tile outside the band of a stage it serves, or in a stage the table does not hold (09 R212). -/
def bandRefs (im : Image) : List LoadRef :=
  im.tiles.flatMap fun r => refIf (r.role != 3 && (r.sections.any fun s => !im.inBand r.tile (r.sectStage s)))
    { code := 0x06, tile := r.tile, sect := 0x0A }

/-- Planes of a parity of m members (09 R214). -/
def parityPlanes (fmt m : Nat) : Nat :=
  let mmax := match fmt with
    | 2 => 2
    | 3 => 8
    | 4 => 128
    | 5 => 32768
    | _ => 1
  ((List.range 13).find? fun n => m * mmax ≤ (3 ^ n - 1) / 2).getD 13

/-- The container format of a girdle tile with c planes (09 R215). -/
def containerFmt (c : Nat) : Nat :=
  match c with
  | 1 => 0
  | 2 => 2
  | 3 => 3
  | 6 => 4
  | 11 => 5
  | _ => 15

/-- The stripe product of a tile of the image. -/
def Image.prodAt (im : Image) (m : Nat × Nat) : Option ProdDesc :=
  (im.rec? m.1).bind fun r =>
    let n := r.descAt m.2
    if m.2 < r.descCount && (n % 64 == 0x01 || (n % 64 == 0x02 && !bitOf n 10)) then some (prodDesc (n % 64 == 0x02) n) else none

/-- Memory-tier products of a tile in the valid sections of a stage: their descriptor indices. -/
def TileRec.tierProds (r : TileRec) (stage : Nat) (valid : Bool) : List Nat :=
  ((r.sections.filter fun s => r.sectStage s == stage && r.sectValid s == valid).flatMap r.sectDescs).filter fun i =>
    let n := r.descAt i
    n % 64 == 0x01 || (n % 64 == 0x02 && !bitOf n 10)

/-- Highest token that a program names. -/
def TileRec.topToken (r : TileRec) : Nat :=
  maxOf (r.allDescs.map fun e =>
    let n := r.descAt e.2
    let op := n % 64
    if op = 0x10 ∨ op = 0x11 then bitsOf n 57 6 else if 0x12 ≤ op ∧ op ≤ 0x17 then bitsOf n 8 6
    else if op = 0x20 then bitsOf n 6 6 else 0)

/-- A girdle tile's template has the shape of R221: for the root, SENDs of x on every feed channel, the product, REDUCE; for another, RECV, WAIT_TOKEN, the product, REDUCE. -/
def templateBad (im : Image) (st : StripeRec) (j : Nat) (g : Nat × Nat) : Bool :=
  match im.rec? g.1 with
  | none => true
  | some r =>
    match r.template st.stage g.2 with
    | none => true
    | some ds =>
      let ops := ds.map fun i => r.descAt i % 64
      let prod := r.descAt g.2 % 64
      let tree := ds.any fun i => r.descAt i % 64 == 0x08 && (redDesc (r.descAt i)).tree == st.treeId
      let feeds := (st.girdle.drop 1).map (·.1)
      if j = 0 then
        let sends := ds.filterMap fun i => if r.descAt i % 64 = 0x10 then im.chans[(chanDesc (r.descAt i)).1]? else none
        !tree || ops.filter (fun o => o != 0x10 && o != 0x20) != [prod, 0x08, 0x3F] ||
          feeds.any fun t => !(sends.any fun c => c.src == g.1 && c.dst == t)
      else
        let root := (st.girdle.head?.map (·.1)).getD 0xFFFF
        let recvs := ds.filterMap fun i => if r.descAt i % 64 = 0x11 then im.chans[(chanDesc (r.descAt i)).1]? else none
        !tree || ops != [0x11, 0x20, prod, 0x08, 0x3F] || !(recvs.any fun c => c.src == root && c.dst == g.1)

/-- A recovery tree breaks R220. -/
def recoveryTreeBad (im : Image) (st : StripeRec) (xFmt : Nat) : Bool :=
  match im.trees.find? fun t => t.id == st.treeId with
  | none => true
  | some t =>
    let tiles := st.all.map (·.1)
    t.cls != 0 || t.wide || t.tag != xFmt || t.nodes.length != tiles.length || (t.nodes.any fun q => !tiles.contains q.tile) ||
      ((t.nodes.find? fun q => q.parent == 0xFFFF).map (·.tile)) != st.girdle.head?.map (·.1) ||
      (List.range t.nodes.length).any fun i => 8 < (t.nodes.filter fun q => q.parent == i).length

/-- Two stripe products agree as R213 requires. -/
def sameProd (a b : ProdDesc) : Bool :=
  a.shape == b.shape && a.fresh == b.fresh && a.bandUnits == b.bandUnits && a.rows == b.rows && a.k == b.k && a.cols == b.cols && a.xFmt == b.xFmt

/-- Stripe records against R211 to R221; `raw` are their 256-bit words. -/
def stripeRefs (im : Image) (raw : List Nat) : List LoadRef :=
  (List.range im.stripes.length).flatMap fun n => match im.stripes[n]? with
    | none => []
    | some st =>
      let w := raw.getD n 0
      let f := planesOf st.wFmt
      let m := st.members.length
      let ng := parityPlanes st.wFmt m
      let first := (st.members.head?.bind im.prodAt)
      let stageOk := im.stages.any fun e => e.stage == st.stage && e.stripeFirst ≤ n && n < e.stripeFirst + e.stripeCount
      let memberBad (i : Nat) (t : Nat × Nat) : Bool :=
        fieldOf t.1 != (n + 1 + i) % 36 || !im.inBand t.1 st.stage || (match im.rec? t.1, im.prodAt t, first with
          | some r, some p, some q => r.role != 0 || !(r.tierProds st.stage true).contains t.2 || p.wFmt != st.wFmt || !sameProd p q ||
              56 ≤ r.topToken
          | _, _, _ => true)
      let girdleBad (j : Nat) (t : Nat × Nat) : Bool :=
        fieldOf t.1 != n % 36 || !im.inBand t.1 st.stage || (match im.rec? t.1, im.prodAt t, first with
          | some r, some p, some q => r.role != 2 || p.wFmt != containerFmt (min f (ng - f * j)) || p.planeBase != f * j ||
              !sameProd p q || r.sections.length != 1 || r.sections.any r.sectValid || templateBad im st j t
          | _, _, _ => true)
      let top := maxOf (st.members.map fun t => ((im.rec? t.1).map (·.dataTop)).getD 0)
      let bad := st.stripe != n || !stageOk || 5 < st.wFmt || m == 0 || 35 < m || st.girdle.length == 0 || 4 < st.girdle.length ||
        bitsOf w 46 2 != 0 || bitsOf w 58 6 != 0 || bitsOf w 80 16 != 0 || bitsOf w 96 32 % 4 != 0 || bitsOf w 96 32 < 16 * (im.stagesM1 + 1) + 32 * im.stripes.length || bitsOf w 128 128 != 0 ||
        11 < ng || st.girdle.length != ceilDiv ng f ||
        ((List.range m).any fun i => match st.members[i]? with
          | some t => memberBad i t
          | none => true) ||
        ((List.range st.girdle.length).any fun j => match st.girdle[j]? with
          | some t => girdleBad j t
          | none => true) ||
        (match st.girdle.head?.bind fun g => im.rec? g.1 with
          | some r => r.progBase < top
          | none => true)
      refIf (st.wFmt == 15) { code := 0x07, idx := n, sect := 0x0A } ++
        refIf bad { code := 0x06, tile := ((st.members.head?).map (·.1)).getD 0xFFFF, idx := n, sect := 0x0A } ++
        refIf (recoveryTreeBad im st ((first.map (·.xFmt)).getD 15)) { code := 0x0D, idx := n, sect := 0x0A }

/-- A memory-tier product that not exactly one stripe covers (09 R211, R213). -/
def unstripedRefs (im : Image) : List LoadRef :=
  im.tiles.flatMap fun r =>
    let own := im.stripes.flatMap fun s => s.all.filterMap fun m => if m.1 = r.tile then some m.2 else none
    r.allDescs.flatMap fun e =>
      let n := r.descAt e.2
      refIf ((n % 64 == 0x01 || (n % 64 == 0x02 && !bitOf n 10)) && own.count e.2 != 1)
        { code := 0x06, tile := r.tile, idx := e.2, sect := 0x0A }

/-- The consumers of an image's programs, with the seeds of R124: mode-3 REQUANT and SAMPLE descriptors in every section (08 R197). -/
def consumersOf (im : Image) : List Consumer :=
  im.tiles.flatMap fun r => (r.allDescs.map (·.2)).eraseDups.filterMap fun i =>
    let n := r.descAt i
    let mk (rng st : Nat) : Consumer :=
      { tile := r.tile, rng := rng, rngStream := st, desc := i, seed := BitVec.ofNat 64 (consumerSeed im.seed r.tile rng st) }
    if n % 64 = 0x09 ∧ bitsOf n 8 2 = 3 then some (mk (bitsOf n 14 1) (bitsOf n 15 16))
    else if n % 64 = 0x0B then some (mk (bitsOf n 6 1) (bitsOf n 7 16)) else none

/-- A generator-consumer section that does not list exactly the consumers, each once (08 R197): the first entry that is wrong; 0 where one is left out. -/
def consumerSectBad (im : Image) (s : List Byte) (count : Nat) : Option Nat :=
  let raw := (List.range count).map fun i => numAt s (8 * i) 8
  let key (n : Nat) : Nat × Nat × Nat := (bitsOf n 0 16, bitsOf n 16 1, bitsOf n 32 16)
  let named := raw.map key
  let want := ((consumersOf im).map fun c => (c.tile, c.rng, c.rngStream)).eraseDups
  match (List.range count).find? fun i =>
      let n := raw.getD i 0
      bitsOf n 17 15 != 0 || bitsOf n 48 16 != 0 || !want.contains (key n) || (named.take i).contains (key n) with
  | some i => some i
  | none => if want.any fun c => !named.contains c then some 0 else none

/-- SEED_SHARED (05 R125): two consumers on one tile and generator with equal seeds. -/
def seedRefs (im : Image) : List LoadRef :=
  let cs := consumersOf im
  (List.range cs.length).flatMap fun i => match cs[i]? with
    | some c => refIf ((cs.take i).any fun e => e.tile == c.tile && e.rng == c.rng && e.seed == c.seed)
        { code := 0x13, tile := c.tile, idx := c.desc, sect := 0x0C }
    | none => []

/-- Step 2 of R201: every check that depends on the image alone. -/
def imageRefs (im : Image) (b : List Byte) : List LoadRef :=
  let dir := dirOf b
  let words (type size : Nat) : List Nat := (List.range (countOf dir type)).map fun i => numAt (sectBytes b dir type) (size * i) size
  let st := sectBytes b dir 0x0A
  let n := im.stagesM1 + 1
  let treeRaw := (im.trees.foldl (fun (acc : List (Nat × List Nat) × Nat) t =>
    let s := sectBytes b dir 5
    (acc.1 ++ [(numAt s acc.2 16, (List.range t.nodes.length).map fun i => numAt s (acc.2 + 16 + 8 * i) 8)],
      acc.2 + 16 + 8 * t.nodes.length)) ([], 0)).1
  tileRefs im (words 1 32) ++ reserveRefs im ++ (im.tiles.flatMap fun r => r.sections.flatMap (sectRefs im r)) ++
    im.tiles.flatMap (seqRefs im) ++ im.tiles.flatMap (weightRefs im) ++ im.tiles.flatMap rangeRefs ++ kvRefs im ++
    treeRefs im treeRaw ++ chanRefs im (words 3 32) ++
    stageRefs im ((List.range n).map fun i => numAt st (16 * i) 16) ++ sampleRefs im ++ bandRefs im ++
    stripeRefs im ((List.range im.stripes.length).map fun i => numAt st (16 * n + 32 * i) 32) ++ unstripedRefs im ++
    relocRefs im (words 7 16) (words 8 8) ++ overlapRefs im

end Sys2Proof.Machine
end

