-- ==== Sys2Proof/Machine/Loader.lean ====
section
/-! DEFINITION. The loader (08 R195-R207): the steps of LOAD_IMAGE, DRAM allocation (14 R344), PATCH and its copy (08 R203), and REGISTER_SEED (05 R126). -/
namespace Sys2Proof.Machine

/-- Every range of DRAM that is taken: allocations, and the granules of KV frames (14 R344). -/
def Dev.taken (d : Dev) : List Alloc :=
  d.mem.frames.foldl (fun l e => insertAlloc { base := e.1 * 65536, size := 65536, kind := 7, owner := e.2 } l) d.mem.allocs

/-- The lowest free range of `n` bytes: in the mirrored range, or above its shadow and below the yielding range (14 R343, R344). -/
def Dev.lowRange (d : Dev) (mirrored : Bool) (n : Nat) : Option Nat :=
  if mirrored then lowestFree n 0 d.mirrorBytes d.taken
  else lowestFree n (2 * d.mirrorBytes) (min Config.yieldBase d.dramTop) d.taken

/-- Allocates the lowest free range; nothing is listed for 0 bytes (14 R344). -/
def Dev.allocLow (d : Dev) (mirrored : Bool) (n kind owner : Nat) : Option (Nat × Dev) :=
  if n = 0 then some (0, d)
  else (d.lowRange mirrored n).map fun b =>
    (b, { d with mem := { d.mem with allocs := insertAlloc { base := b, size := n, kind := kind, owner := owner } d.mem.allocs } })

/-- Frees the ranges of an image's regions (08 R201, R202). -/
def Dev.freeRegions (d : Dev) (im : Image) : Dev :=
  { d with mem := { d.mem with allocs := d.mem.allocs.filter fun a =>
      !(a.kind == 3 && im.regions.any fun r => r.base == a.base) } }

/-- Discards the loaded image (08 R201, 14 R347). -/
def Dev.dropLoaded (d : Dev) : Dev :=
  match d.img.loaded with
  | some im => { d.freeRegions im with img := { d.img with loaded := none } }
  | none => d

/-- Allocates the regions of an image in order (08 R201 step 4): kinds 2 and 3 in the mirrored range (14 R343). -/
def Dev.allocRegions (d : Dev) : List RegionRec → Option (List RegionRec × Dev)
  | [] => some ([], d)
  | r :: rs =>
    match d.allocLow (r.kind == 2 || r.kind == 3) r.size 3 r.num with
    | none => none
    | some (b, d1) =>
      match d1.allocRegions rs with
      | none => none
      | some (out, d2) => some ({ r with base := b } :: out, d2)

/-- Writes a value into the `addr` field of a descriptor of a program (06 R160). -/
def setAddr (prog : List Byte) (i v : Nat) : List Byte :=
  let o := 64 + 16 * i
  let n := numAt prog o 16
  let m := n - bitsOf n 53 48 * 2 ^ 53 + v % 2 ^ 48 * 2 ^ 53
  prog.take o ++ leBytes 16 m ++ prog.drop (o + 16)

/-- Adds to the `addr` field of every descriptor of a tile that is relocated to region `num` (08 R200, R203). -/
def relocate (relocs : List RelocRec) (num : Nat) (delta : Int) (r : TileRec) : TileRec :=
  (relocs.filter fun q => q.tile == r.tile && q.region == num).foldl (fun (r : TileRec) q =>
    { r with prog := setAddr r.prog q.desc ((r.descAt q.desc / 2 ^ 53 % 2 ^ 48 : Nat) + delta).toNat }) r

/-- Relocates an image to the bases of its regions (08 R201 step 5). -/
def Image.relocated (im : Image) : Image :=
  im.regions.foldl (fun (im : Image) g => { im with tiles := im.tiles.map (relocate im.relocs g.num g.base) }) im

/-- Bytes of a section are written into a region, as far as it reaches. -/
def Dev.fillRegion (d : Dev) (r : RegionRec) (m : Mem) (len : Nat) : Dev :=
  let cells := (m.filter fun e => e.1 < r.size).map fun e => (r.base + e.1, e.2)
  { d with mem := { d.mem with dram := memSplice d.mem.dram r.base (min r.size len) cells } }

/-- The weights section is copied to the weight copy region (08 R201 step 8), the tokeniser's tables to a region of kind 2 (11 R277). -/
def Dev.copySections (d : Dev) (im : Image) (tok : List Byte) : Dev :=
  let d1 := match im.regions.find? fun r => r.kind == 0 with
    | some r => d.fillRegion r im.weights im.weightsLen
    | none => d
  match im.regions.find? fun r => r.kind == 2 with
  | some r => d1.fillRegion r (memOf tok) tok.length
  | none => d1

/-- The weight tiles of an image that end with no site: in the order in which ACTIVATE_IMAGE substitutes, each takes the lowest spare that none before it has taken (09 R236, 01 R20). -/
def Dev.siteless (d : Dev) (im : Image) : List Nat :=
  (im.weightTiles.foldl (fun (acc : List Nat × Dev) r =>
    if acc.2.works r.tile then acc
    else match acc.2.spareFor r.tile with
      | some s => (acc.1, if acc.2.wafer.subst.any fun p => p.1 == r.tile then acc.2
          else { acc.2 with wafer := { acc.2.wafer with subst := acc.2.wafer.subst ++ [(r.tile, s)] } })
      | none => (acc.1 ++ [r.tile], acc.2)) ([], d)).1

/-- Step 3 of R201: a stripe with two weight tiles that have no site (TILE_UNAVAILABLE, 09 R236), and the reserve tiles of each field (RESERVE_SHORT, 08 R205). -/
def Dev.placeRefs (d : Dev) (im : Image) : List LoadRef :=
  let none_ := d.siteless im
  let stripes := im.stripes.flatMap fun s =>
    let gone := (s.all.map (·.1)).filter none_.contains
    refIf (2 ≤ gone.length) { code := 0x1D, tile := gone.foldl min 0xFFFF, idx := s.stripe, sect := 0x0A }
  let out (t : Nat) : Bool := d.isRetired t || d.wafer.quarantined.contains t
  let fields := (List.range 36).flatMap fun n =>
    let free := (im.tiles.filter fun r => r.role == 3 && fieldOf r.tile == n && !out r.tile).length
    let need := (im.tiles.filter fun r => r.role == 1 && fieldOf r.tile == n && out r.tile).length
    refIf (free < 15 || free < need) { code := 0x1E, idx := n, sect := 9 }
  stripes ++ fields

/-- Stages with a reduction of more than 2^24 terms, in a tree or in a group of a LOG_PRODUCT, of which Loupe makes no check (05 R131). -/
def Image.loupeStages (im : Image) : List Nat :=
  let trees := (im.trees.filter fun t => 2 ^ 24 < t.kTotal).map im.treeStage
  let logs := im.tiles.flatMap fun r => (r.sections.filter fun s => (r.sectDescs s).any fun i =>
    let p := logDesc (r.descAt i)
    r.descAt i % 64 == 0x03 && decide (2 ^ 24 < p.nCycles * (512 / 2 ^ p.groups))).map r.sectStage
  (trees ++ logs).eraseDups

/-- Step 1 of R201: header, directory, key, signature, hashes. -/
def formRefs (keys : List (List Byte)) (im : Image) (b : List Byte) (bytes : Nat) : Option LoadRef :=
  if numAt b 0 4 ≠ 0x4E475247 ∨ numAt b 4 2 ≠ 1 then some { code := 0x01 }
  else if headBad b bytes then some { code := 0x02 }
  else match dirBad im b bytes with
  | some t => some { code := 0x02, idx := t.1, sect := t.2 }
  | none =>
    let dir := dirOf b
    match (entOf dir 0x0C).bind fun _ => consumerSectBad im (sectBytes b dir 0x0C) (countOf dir 0x0C) with
    | some i => some { code := 0x02, idx := i, sect := 0x0C }
    | none =>
      if !keys.contains im.signer then some { code := 0x03 }
      else if !Config.mldsaVerify im.signer (cut b 0 (128 + 96 * dir.length)) (sectBytes b dir 0x0F) then
        some { code := 0x04, sect := 0x0F }
      else (hashBad b).map fun t => { code := 0x05, idx := t.1, sect := t.2 }

/-- Reserve tiles for the compute-only tiles that are retired or quarantined at load (08 R201 step 6, R206). -/
def Dev.loadReserves (d : Dev) (im : Image) : List (Nat × Nat) :=
  let bare : Dev := { d with img := { d.img with active := some im }, wafer := { d.wafer with resMap := [], resPending := [] } }
  (im.tiles.foldl (fun (d : Dev) r =>
    if r.role = 1 ∧ (d.isRetired r.tile || d.wafer.quarantined.contains r.tile) then
      match d.pickReserve r.tile with
      | some s => { d with wafer := { d.wafer with resPending := d.wafer.resPending ++ [(r.tile, s)] } }
      | none => d
    else d) bare).wafer.resPending

/-- Steps 3 to 8 of R201 on an image that passed the checks of its bytes. -/
def Dev.placeImage (d : Dev) (im : Image) (tok : List Byte) : LoadRef ⊕ (Image × Dev) :=
  match firstRef (d.placeRefs im) with
  | some f => .inl f
  | none =>
    match d.dropLoaded.allocRegions im.regions with
    | none => .inl { code := 0x1C, sect := 7 }
    | some (regions, d1) =>
      match firstRef (seedRefs im) with
      | some f => .inl f
      | none =>
        let im1 := ({ im with regions := regions, consumers := consumersOf im, loupeOut := im.loupeStages,
                               resMap := d.loadReserves im } : Image).relocated
        .inr (im1, d1.copySections im1 tok)

/-- The steps of R201 over the bytes of an image: a refusal, or the image and the device that holds it. -/
def Dev.loadSteps (d : Dev) (keys : List (List Byte)) (b : List Byte) (bytes : Nat) : LoadRef ⊕ (Image × Dev) :=
  let raw := parseImage b
  match formRefs keys raw b bytes with
  | some f => .inl f
  | none =>
    let im := { raw with kv := kvOfImage raw }
    match firstRef (imageRefs im b) with
    | some f => .inl f
    | none => d.placeImage im (sectBytes b (dirOf b) 0x0B)

/-- The records of a refused load: IMAGE_LOAD_REFUSED, and KV_GEOMETRY of the image class where the geometry is what is wrong (10 R268; DEDUCED, log entry 105). -/
def Dev.loadRefused (d : Dev) (f : LoadRef) : Dev :=
  let d1 := if f.fault = Rc.kvGeometry then
      d.raise { code := Rc.kvGeometry, detail := f.detail, cls := 2, ltile := f.tile, desc := if f.tile = 0xFFFF then 0xFFFF else f.idx }
    else d
  d1.raise { code := Rc.imageLoadRefused, detail := f.code, source := 76, ltile := f.tile }

/-- The row of LOAD_IMAGE (12 R313). -/
def rowLoadImage : Row := { op := 0x10, classes := 5, params := [(8, 8), (16, 8)] }

/-- Loads an image from DRAM (08 R201); `keys` are the identifiers of the enrolled image-signing keys. -/
def startLoadImage (keys : List (List Byte)) (r : Rhoic) (d : Dev) : Start :=
  let a := arg r 8 8
  let n := arg r 16 8
  if d.dramTop < a + n then .done (bad St.unmappedAddress) (d.unmappedBy r.qp false (max a d.dramTop))
  else
    let (st, x, bs, d1) := d.cmdRead r.qp a n
    if st = St.uncorrectable then .done { st := st, result := x } d1
    else if st ≠ St.success then .done (bad st x) d1
    else match d1.loadSteps keys bs n with
      | .inl f => .done { st := St.imageRefused, detail := f.code, result := f.result }
          (d1.loadRefused f)
      | .inr (im, d2) => .done { result := im.modelId }
          ({ d2 with img := { d2.img with loaded := some im } }.raise
            { code := Rc.imageLoaded, detail := im.modelId, source := 76 })

/-- LOAD_IMAGE (08 R201). -/
def execLoadImage (r : Rhoic) (s : State) : Host.Outcome State Fault Refusal :=
  s.next (s.dev.rhoic rowLoadImage [] r (startLoadImage s.sec.signers r))

/-- The row of PATCH (12 R313). -/
def rowPatch : Row := { op := 0x11, classes := 5, params := [(8, 1), (16, 8)] }

/-- A range overlaps DRAM that is allocated, the device's own mirrored range and shadow among it (08 R203). -/
def Dev.overlapsTaken (d : Dev) (mirrored : Bool) (a n : Nat) : Bool :=
  (d.taken.any fun x => overlaps a n x.base x.size) || (!mirrored && overlaps a n 0 (2 * d.mirrorBytes))

/-- Starts the move of a region: waves are held until the copy ends (08 R203). -/
def startPatch (r : Rhoic) (d : Dev) : Start :=
  let num := arg r 8 1
  let b := arg r 16 8
  if !(d.jobs 0x11).isEmpty || !(d.jobs 0x12).isEmpty then .wait d
  else if d.rd Reg.imageState = 0 then .done (bad St.noImage) d
  else if d.rd Reg.imageState = 2 then .done (bad St.imageStopped) d
  else match d.image.regions.find? fun g => g.num == num with
  | none => .done (bad St.paramRange 8) d
  | some g =>
    let mirrored := g.kind == 2 || g.kind == 3
    if b % 4096 ≠ 0 ∨ d.dramTop < b + g.size ∨ (mirrored ∧ d.mirrorBytes < b + g.size) then .done (bad St.paramRange 16) d
    else if d.overlapsTaken mirrored b g.size then .done (bad St.patchOverlap num) d
    else if Config.yieldBase < b + g.size then .done (bad St.dramCapacity) d
    else
      let d1 := { d with mem := { d.mem with allocs := insertAlloc { base := b, size := g.size, kind := 3, owner := num } d.mem.allocs },
                         img := { d.img with patching := some (num, b) } }
      .run { op := 0x11, req := r } (d1.hold 5)

/-- PATCH (08 R203). -/
def execPatch (r : Rhoic) (s : State) : Host.Outcome State Fault Refusal :=
  s.next (s.dev.rhoic rowPatch [] r (startPatch r))

/-- No wave is in flight or waits to be replayed. -/
def Dev.drained (d : Dev) : Bool := d.serve.waves.isEmpty && d.serve.replays.isEmpty

/-- The bytes of a region at its new base, its old range freed (08 R203). -/
def Dev.moveRegion (d : Dev) (g : RegionRec) (b : Nat) : Dev :=
  let bad := d.mem.lineBad.filterMap fun l => if inRange l.1 g.base g.size then some (b + (l.1 - g.base), l.2) else none
  let cells := (d.mem.dram.filter fun e => inRange e.1 g.base g.size).map fun e => (b + (e.1 - g.base), e.2)
  { d with mem := { d.mem with
      dram := memSplice d.mem.dram b g.size cells
      lineBad := bad.foldl (fun m l => AMap.insert l.1 l.2 m) (d.mem.lineBad.filter fun l => !inRange l.1 b g.size)
      allocs := d.mem.allocs.filter fun x => !(x.kind == 3 && x.base == g.base) } }

/-- The copy of a patched region ends: every relocated `addr` that names it is rewritten, the held waves are released, PATCH completes (08 R203). -/
def effPatchCopyDone (d : Dev) : Dev :=
  match d.img.patching, d.img.active with
  | some (num, b), some im =>
    if !d.drained then d
    else match im.regions.find? fun g => g.num == num with
    | none => d
    | some g =>
      let d1 := d.moveRegion g b
      let im1 := { im with tiles := im.tiles.map (relocate im.relocs num ((b : Int) - g.base))
                           regions := im.regions.map fun h => if h.num = num then { h with base := b } else h }
      let d2 := { d1 with img := { d1.img with active := some im1, patching := none } }
      let d3 := ((im.relocs.filter fun q => q.region == num).map (·.tile)).eraseDups.foldl (fun (d : Dev) t =>
        d.loadProgram t (d.hostOf t)) d2
      let d4 := d3.arrangeAll
      (d4.jobs 0x11).foldl (fun d j => d.finishJob j {}) (d4.release 5)
  | _, _ => d

/-- PATCH_COPY_DONE (08 R203). -/
def execPatchCopyDone (s : State) : Host.Outcome State Fault Refusal := s.next (effPatchCopyDone s.dev)

/-- The row of REGISTER_SEED (12 R313). -/
def rowRegisterSeed : Row := { op := 0x15, classes := 5, params := [(8, 2), (10, 1), (12, 2), (16, 8)] }

/-- Consumers of the active image and of the one that waits for its activation. -/
def Dev.allConsumers (d : Dev) : List Consumer := d.image.consumers ++ (d.img.loaded.getD {}).consumers

/-- Registers the seed of a consumer in host-assisted sampling; one that another consumer of the tile and generator holds is refused and the earlier seed stays (05 R126, 12 R316). -/
def startRegisterSeed (r : Rhoic) (d : Dev) : Start :=
  let tile := arg r 8 2
  let rng := arg r 10 1
  let st := arg r 12 2
  let seed := BitVec.ofNat 64 (arg r 16 8)
  if !isLogical tile then .done (bad St.paramRange 8) d
  else if 1 < rng then .done (bad St.paramRange 10) d
  else if !d.hostMode 5 then .done (bad St.modeDevice 5) d
  else
    let key := tile * 131072 + rng * 65536
    match d.img.seeds.find? fun e => inRange e.1 key 65536 && e.1 != key + st && e.2 == seed with
    | some e =>
      let desc := ((d.allConsumers.find? fun c => c.tile == tile && c.rng == rng && c.rngStream == st).map (·.desc)).getD 0xFFFF
      .done (bad St.seedAlias (e.1 - key))
        (d.raise (d.atTile { code := Rc.seedAlias, detail := e.1 - key, source := 76, desc := desc } tile))
    | none => .done {} { d with img := { d.img with seeds := AMap.insert (key + st) seed d.img.seeds } }

/-- REGISTER_SEED (05 R126). -/
def execRegisterSeed (r : Rhoic) (s : State) : Host.Outcome State Fault Refusal :=
  s.next (s.dev.rhoic rowRegisterSeed [] r (startRegisterSeed r))

end Sys2Proof.Machine
end

