-- ==== Sys2Proof/Machine/Streams.lean ====
section
/-! DEFINITION. The stream and tenant groups of Rhoic commands, prefixes, SCHEDULE_WAVE and PAGE_DROP (11 R273-R279, R293, 12 R301, R313-R319, 10 R264-R267). -/
namespace Sys2Proof.Machine

/-- The tenant that a command names: on a tenant-class pair that of the pair (12 R307). -/
def Dev.tenantArg (d : Dev) (r : Rhoic) (off : Nat) : Nat :=
  if d.classOf r.qp = 3 then d.rd (Reg.qTenant r.qp) else arg r off 2

/-- The stream that a command names, or the reply that refuses it (11 R274, 12 R307, R313, R315). -/
def Dev.named (d : Dev) (r : Rhoic) (i : Nat) (ended image : Bool) : Reply ⊕ Stream :=
  if !d.img.everActive then .inl (bad St.noImage)
  else match d.stream? i with
  | none => .inl (bad St.streamUnknown)
  | some s =>
    if d.classOf r.qp = 3 ∧ s.tenant ≠ d.rd (Reg.qTenant r.qp) then .inl (bad St.streamUnknown)
    else if s.state = .ended ∧ !ended then .inl (bad St.notActive 4)
    else if image ∧ d.rd Reg.imageState = 2 then .inl (bad St.imageStopped)
    else .inr s

/-- The state that the rules of a stream apply to: that before HELD for a held one. -/
def Stream.live (s : Stream) : SState := if s.state = .held then s.prev else s.state

/-- Sets the state, behind HELD for a held stream. -/
def Stream.enter (s : Stream) (t : SState) : Stream := if s.state = .held then { s with prev := t } else { s with state := t }

/-- Layers of the active image's page tables: 0 to the highest with a KV geometry (10 R241). -/
def Image.kvLayers (im : Image) : Nat := maxOf (im.kv.map fun g => g.layer + 1)

/-- Bytes of the residual rows of an owner (05 R120). -/
def Image.residBytes (im : Image) : Nat :=
  maxOf (im.tiles.flatMap fun r => (List.range r.descCount).filterMap fun i =>
    let n := r.descAt i
    if n % 64 = 0x16 ∨ n % 64 = 0x17 then
      let (layer, _, _, row) := residDesc n
      some ((layer + 1) * 4 * row)
    else none)

/-- The image has a draft pipeline (11 R269). -/
def Image.hasDraft (im : Image) : Bool := 0 < im.stageCount true

/-- The first byte of the packet in [lo, hi) that is not 0. -/
def firstSet (r : Rhoic) (lo hi : Nat) : Option Nat := ((List.range (hi - lo)).map (· + lo)).find? fun o => arg r o 1 != 0

/-- `temperature` is an F32 from 0 to 2^16 (11 R273). -/
def tempOk (t : Nat) : Bool := t ≤ 0x47800000 || t == 0x80000000

/-- The first of some range checks that fails, as the byte offset of its field (12 R312). -/
def rangeFault (cs : List (Nat × Bool)) : Option Nat := (cs.find? fun c => !c.2).map (·.1)

/-- A tenant's parameters (11 R279). -/
def Dev.tenant (d : Dev) (t : Nat) : Tenant := AMap.get {} d.serve.tenants t

/-- Changes a tenant. -/
def Dev.onTenant (d : Dev) (t : Nat) (f : Tenant → Tenant) : Dev :=
  { d with serve := { d.serve with tenants := AMap.modify {} d.serve.tenants t f } }

/-- Open streams of a tenant. -/
def Dev.openOf (d : Dev) (t : Nat) : Nat := (d.serve.streams.filter fun e => e.2.tenant == t && e.2.state != .ended).length

/-- The lowest index that a map does not list. -/
def lowestIndex {α : Type} (m : List (Nat × α)) (limit : Nat) : Option Nat :=
  (List.range (min limit (m.length + 1))).find? fun i => (AMap.find m i).isNone

/-- The live prefix that an owner's handle names (10 R265). -/
def Dev.livePrefix (d : Dev) (owner handle : Nat) : Option (Nat × Pfx) :=
  d.serve.prefixes.find? fun e => e.2.live && e.2.owner == owner && e.2.handle == handle

/-- The prefixes that a stream shares, the nearest first (10 R264). -/
def Dev.pfxChain (d : Dev) (q : Option Nat) : Nat → List Nat
  | 0 => []
  | fuel + 1 => match q with
    | none => []
    | some x => x :: d.pfxChain ((AMap.find d.serve.prefixes x).bind (·.parent)) fuel

/-- The prefixes of a stream. -/
def Dev.prefixesOf (d : Dev) (s : Stream) : List Nat := d.pfxChain s.pfx (d.serve.prefixes.length + 1)

/-- A tenant may share a prefix and those that it shares in turn (10 R245, R265). -/
def Dev.admitsAll (d : Dev) (p t : Nat) : Bool :=
  (d.pfxChain (some p) (d.serve.prefixes.length + 1)).all fun q => ((AMap.find d.serve.prefixes q).map fun x => x.admits t).getD false

/-- SHARED entries for the blocks of a prefix, at every layer with a KV geometry (10 R264, R265). -/
def Dev.sharedEntries (d : Dev) (owner p blocks : Nat) : List Pte :=
  d.image.kv.flatMap fun g => (List.range blocks).map fun b =>
    { owner := owner, layer := g.layer, block := b, state := 5, fmt := g.fmt, fill := 256, frame := p }

/-- The journal partner: the next MEMBER in ascending index, wrapping, in a system of two or more members (15 R368). -/
def Dev.pickPartner (d : Dev) : Option Nat :=
  let me := d.rd Reg.fabDevice
  let ms := (d.fab.table.filter fun e => e.2.state == 2 && e.1 != me).map (·.1)
  if d.rd Reg.memberState ≠ 2 then none
  else match ms.find? fun i => me < i with
    | some i => some i
    | none => ms.head?

/-- A stream's page table, residual rows and history, in that order (11 R275, 14 R343, R344). -/
def Dev.streamRoom (d : Dev) (i blocks : Nat) : Option (Nat × Nat × Nat × Dev) :=
  match d.allocLow false (d.image.kvLayers * blocks * 16) 0 i with
  | none => none
  | some (pt, d1) => match d1.allocLow false d.image.residBytes 1 i with
    | none => none
    | some (re, d2) => (d2.allocLow true (1024 * blocks) 2 i).map fun e => (pt, re, e.1, e.2)

/-- The row of OPEN_STREAM (12 R313). -/
def rowOpenStream : Row :=
  { op := 0x20, classes := 14, params := [(8, 2), (10, 1), (11, 1), (12, 4), (16, 8), (24, 8), (32, 4), (36, 2), (38, 2), (40, 4), (44, 4), (48, 2)] }

/-- Admission in order (11 R275): a free entry, the tenant's limit, ranges, the prefix, DRAM. -/
def startOpenStream (r : Rhoic) (d : Dev) : Start :=
  let flags := arg r 10 1
  let t := d.tenantArg r 8
  let kMax := arg r 11 1
  let maxPos := arg r 12 4
  let host := d.hostMode 1
  let x := d.tenant t
  if !d.img.everActive then .done (bad St.noImage) d
  else if d.rd Reg.imageState = 2 then .done (bad St.imageStopped) d
  else if host ∧ d.classOf r.qp = 3 then .done (bad St.modeHost 1) d
  else if flags / 32 ≠ 0 then .done (bad St.paramReserved 10) d
  else if d.fab.leaving || d.rd Reg.fabRole == 1 || d.rd Reg.fabRole == 2 then .done (bad St.streamLimit) d
  else match lowestIndex d.serve.streams Config.streamCount with
  | none => .done (bad St.streamLimit) d
  | some i =>
    if Config.tenantCount ≤ t then .done (bad St.paramRange 8) d
    else if !host && x.maxStreams ≤ d.openOf t then .done (bad St.tenantLimit) d
    else match rangeFault [(11, kMax ≤ 3 && (kMax == 0 || d.image.hasDraft)), (12, 1 ≤ maxPos && maxPos ≤ 16776960),
        (32, tempOk (arg r 32 4)), (36, arg r 36 2 ≤ 1024)] with
    | some o => .done (bad St.paramRange o) d
    | none =>
      let pfx := if bitOf flags 3 then d.livePrefix (arg r 48 2) (arg r 16 8) else none
      let resolved := match pfx with
        | some p => d.admitsAll p.1 t
        | none => false
      let n := ((pfx.map (·.2.positions)).getD 0)
      let blocks := ceilDiv maxPos 256
      if bitOf flags 3 && !resolved then .done (bad St.prefixUnknown) d
      else if 256 * blocks < n then .done (bad St.paramRange 12) d
      else match d.streamRoom i blocks with
      | none => .done (bad St.dramCapacity) d
      | some (pt, re, hi, d1) =>
        let given := bitOf flags 4
        let seed := if given then BitVec.ofNat 64 (arg r 24 8) else Config.freeWord d.freeCtr
        let s : Stream :=
          { strict := bitOf flags 0, persist := bitOf flags 1, textOut := bitOf flags 2, kMax := kMax, tenant := t,
            queue := (d.replyPair r).getD r.qp, ptBase := pt, ptBlocks := blocks, residBase := re, histBase := hi,
            committed := n, appended := n, temperature := BitVec.ofNat 32 (arg r 32 4), topK := arg r 36 2,
            topP := arg r 38 2, stop0 := arg r 40 4, stop1 := arg r 44 4, sampleSeed := seed,
            history := ((pfx.map (·.2.tokens)).getD []), pfx := pfx.map (·.1), partner := d.pickPartner }
        let d2 := d1.setStream i s
        let d3 := match pfx with
          | some p => ({ d2 with serve := { d2.serve with ptes := d2.serve.ptes ++ d2.sharedEntries i p.1 (n / 256) } }).onPrefix p.1
              fun y => { y with refs := y.refs + 1 }
          | none => d2
        .done { result := i, result2 := seed.toNat } { d3 with freeCtr := if given then d.freeCtr else d.freeCtr + 1 }

/-- OPEN_STREAM (11 R275). -/
def execOpenStream (r : Rhoic) (s : State) : Host.Outcome State Fault Refusal :=
  s.next (s.dev.rhoic rowOpenStream
    (.tenant (s.dev.tenantArg r 8) :: (if bitOf (arg r 10 1) 3 then [.handle (arg r 48 2) (arg r 16 8)] else [])) r (startOpenStream r))

/-- Tokens are appended to a stream that is not GENERATING; nothing where they pass its end or one of them is outside the vocabulary (11 R274, R276). -/
def Dev.appendTo (d : Dev) (i : Nat) (s : Stream) (toks : List Nat) : Reply ⊕ Dev :=
  let n := s.appended + toks.length
  let badTok := match d.image.tok with
    | some t => (List.range toks.length).find? fun k => t.vocab.length ≤ toks.getD k 0
    | none => none
  if 256 * s.ptBlocks < n then .inl (bad St.contextFull)
  else match badTok with
  | some k => .inl (bad St.tokenRange k)
  | none =>
    let s1 := { s with appended := n, history := s.history.take s.appended ++ toks }
    .inr ((d.setStream i (if s.committed + 2 ≤ n then s1.enter .prefill else s1)).sendJournal i toks)

/-- The bytes of an append: inline up to a limit with `buf` 0, else in the buffer (12 R312). -/
def Dev.payload (d : Dev) (r : Rhoic) (n limit width : Nat) : Reply ⊕ (List Byte × Dev) :=
  let buf := arg r 16 8
  if n ≤ limit then
    if buf ≠ 0 then .inl (bad St.paramRange 16)
    else match firstSet r (24 + width * n) 64 with
    | some o => .inl (bad St.paramReserved o)
    | none => .inr (leBytes (width * n) (arg r 24 (width * n)), d)
  else match firstSet r 24 64 with
  | some o => .inl (bad St.paramReserved o)
  | none =>
    let (st, x, bs, d1) := d.bufIn r buf (width * n)
    if st = St.success then .inr (bs, d1) else .inl { st := st, detail := if st = St.uncorrectable then 0 else x
                                                      result := if st = St.uncorrectable then x else 0 }

/-- The row of APPEND_TOKENS (12 R313). -/
def rowAppendTokens : Row := { op := 0x21, classes := 14, params := [(8, 2), (12, 4), (16, 8), (24, 40)] }

/-- The tokens that bytes hold, 4 bytes each. -/
def tokensOf (bs : List Byte) (n : Nat) : List Nat := (List.range n).map fun k => numAt bs (4 * k) 4

/-- Appends tokens (11 R274, R276). -/
def startAppendTokens (r : Rhoic) (d : Dev) : Start :=
  let i := arg r 8 2
  let n := arg r 12 4
  match d.named r i false true with
  | .inl p => .done p d
  | .inr s =>
    if n = 0 ∨ 16776960 < n then .done (bad St.paramRange 12) d
    else if s.live = .generating then .done (bad St.busy) d
    else match d.payload r n 10 4 with
    | .inl p => .done p d
    | .inr (bs, d1) => match d1.appendTo i s (tokensOf bs n) with
      | .inl p => .done p d1
      | .inr d2 => .done { result := s.appended + n } d2

/-- APPEND_TOKENS (11 R274). -/
def execAppendTokens (r : Rhoic) (s : State) : Host.Outcome State Fault Refusal :=
  s.next (s.dev.rhoic rowAppendTokens [.stream (arg r 8 2)] r (startAppendTokens r))

/-- The rank and result of an adjacent pair in the merge table (11 R277). -/
def mergeOf (t : TokRec) (a b : Nat) : Option (Nat × Nat) :=
  let k := t.merges.findIdx fun m => m.1 == a && m.2.1 == b
  (t.merges[k]?).map fun m => (k, m.2.2)

/-- The lowest rank among adjacent pairs, its leftmost place and its result (11 R278). -/
def bestMerge (t : TokRec) : Nat → List Nat → Option (Nat × Nat × Nat)
  | pos, a :: b :: rest =>
    let later := bestMerge t (pos + 1) (b :: rest)
    match mergeOf t a b with
    | none => later
    | some (k, res) => match later with
      | some (k2, p2, r2) => if k2 < k then some (k2, p2, r2) else some (k, pos, res)
      | none => some (k, pos, res)
  | _, _ => none

/-- Merges until no adjacent pair appears in the merge table; every merge shortens the list by one (11 R278). -/
def mergeAll (t : TokRec) : Nat → List Nat → List Nat
  | 0, xs => xs
  | fuel + 1, xs => match bestMerge t 0 xs with
    | some (_, p, res) => mergeAll t fuel (xs.take p ++ [res] ++ xs.drop (p + 2))
    | none => xs

/-- The tokens of a text (11 R278). -/
def tokenise (t : TokRec) (bs : List Byte) : List Nat :=
  mergeAll t bs.length (bs.map fun b => t.vocab.findIdx fun w => w == [b])

/-- The row of APPEND_TEXT (12 R313). -/
def rowAppendText : Row := { op := 0x22, classes := 14, params := [(8, 2), (12, 4), (16, 8), (24, 40)] }

/-- Tokenises and appends text (11 R278); in host-assisted tokenisation MODE_HOST (R283). An image without a tokeniser gives it no token: PARAM_RANGE (DESIGN CHOICE, log entry 42). -/
def startAppendText (r : Rhoic) (d : Dev) : Start :=
  let i := arg r 8 2
  let n := arg r 12 4
  if d.hostMode 0 then .done (bad St.modeHost 0) d
  else match d.named r i false true with
  | .inl p => .done p d
  | .inr s =>
    if n = 0 ∨ 1048576 < n then .done (bad St.paramRange 12) d
    else if s.live = .generating then .done (bad St.busy) d
    else match d.image.tok with
    | none => .done (bad St.paramRange 12) d
    | some t => match d.payload r n 40 1 with
      | .inl p => .done p d
      | .inr (bs, d1) =>
        let toks := tokenise t bs
        match d1.appendTo i s toks with
        | .inl p => .done p d1
        | .inr d2 => .done { result := toks.length, result2 := s.appended + toks.length } d2

/-- APPEND_TEXT (11 R278). -/
def execAppendText (r : Rhoic) (s : State) : Host.Outcome State Fault Refusal :=
  s.next (s.dev.rhoic rowAppendText [.stream (arg r 8 2)] r (startAppendText r))

/-- The row of GENERATE (12 R313). -/
def rowGenerate : Row := { op := 0x23, classes := 14, params := [(8, 2), (12, 4)] }

/-- A generation that starts on a stream that holds all the tokens it can is over at once: no token of it can be appended (11 R276, R291; DESIGN CHOICE, log entry 114). -/
def Dev.beginGen (d : Dev) (i : Nat) : Dev :=
  match d.stream? i with
  | some s => if 256 * s.ptBlocks ≤ s.appended then (d.deliverEnd i 1).generationOver i 1 else d
  | none => d

/-- Starts a generation, or lets it wait for prefill; its completion is a delivery (11 R274, R286, 12 R301). -/
def startGenerate (r : Rhoic) (d : Dev) : Start :=
  let i := arg r 8 2
  match d.named r i false true with
  | .inl p => .done p d
  | .inr s =>
    if arg r 12 4 = 0 then .done (bad St.paramRange 12) d
    else if s.live = .generating ∨ s.genWaits then .done (bad St.busy) d
    else if s.live = .idle ∧ s.appended = s.committed then .done (bad St.emptyStream) d
    else
      let s1 := { s with genRemaining := arg r 12 4, genTag := tagOf r % 65536, kCur := s.kMax }
      if s.live = .prefill then .run { op := 0x23, req := r, effective := true } (d.setStream i { s1 with genWaits := true })
      else if 256 * s.ptBlocks ≤ s.appended then .quiet ((d.setStream i (s1.enter .generating)).beginGen i)
      else .run { op := 0x23, req := r, effective := true } (d.setStream i (s1.enter .generating))

/-- GENERATE (12 R301). -/
def execGenerate (r : Rhoic) (s : State) : Host.Outcome State Fault Refusal :=
  s.next (s.dev.rhoic rowGenerate [.stream (arg r 8 2)] r (startGenerate r))

/-- The row of CLOSE_STREAM (12 R313). -/
def rowCloseStream : Row := { op := 0x25, classes := 14, params := [(8, 2)] }

/-- Ends a stream and frees its entry; with a wave in flight that happens at its commit point (11 R274, R293, 10 R263). -/
def startCloseStream (r : Rhoic) (d : Dev) : Start :=
  let i := arg r 8 2
  match d.named r i true false with
  | .inl p => .done p d
  | .inr s =>
    if d.inFlight i then .run { op := 0x25, req := r } (d.setStream i { s with closing := true })
    else .done { result := s.committed } ((d.endStream i 3).freeStream i)

/-- CLOSE_STREAM (11 R274). -/
def execCloseStream (r : Rhoic) (s : State) : Host.Outcome State Fault Refusal :=
  s.next (s.dev.rhoic rowCloseStream [.stream (arg r 8 2)] r (startCloseStream r))

/-- The row of STREAM_SET (12 R313). -/
def rowStreamSet : Row := { op := 0x28, classes := 14, params := [(8, 2), (10, 1), (11, 1), (32, 16)] }

/-- Sets the parameters that a STREAM_SET packet names (12 R313). -/
def applySet (p : BitVec 512) (s : Stream) : Stream :=
  let r : Rhoic := { qp := 0, pkt := p }
  let f := arg r 10 1
  { s with
    temperature := if bitOf f 0 then BitVec.ofNat 32 (arg r 32 4) else s.temperature
    topK := if bitOf f 1 then arg r 36 2 else s.topK
    topP := if bitOf f 2 then arg r 38 2 else s.topP
    stop0 := if bitOf f 3 then arg r 40 4 else s.stop0
    stop1 := if bitOf f 3 then arg r 44 4 else s.stop1
    kMax := if bitOf f 4 then arg r 11 1 else s.kMax
    kCur := if bitOf f 5 then arg r 11 1 else if bitOf f 4 then min s.kCur (arg r 11 1) else s.kCur }

/-- The stream has a wave in flight or runs a round: STREAM_SET waits for its end (12 R313, R319). -/
def Dev.inRound (d : Dev) (i : Nat) (s : Stream) : Bool := d.inFlight i || s.roundK != 0

/-- Applies parameters to the waves that enter after it (12 R313). -/
def startStreamSet (r : Rhoic) (d : Dev) : Start :=
  let i := arg r 8 2
  let f := arg r 10 1
  let k := arg r 11 1
  match d.named r i false false with
  | .inl p => .done p d
  | .inr s =>
    if f / 64 ≠ 0 then .done (bad St.paramReserved 10) d
    else if bitOf f 5 && !d.hostMode 4 then .done (bad St.modeDevice 4) d
    else match rangeFault [(11, !(bitOf f 4 || bitOf f 5) || (k ≤ 3 && (k == 0 || d.image.hasDraft) &&
          (bitOf f 4 || k ≤ s.kMax))), (32, !bitOf f 0 || tempOk (arg r 32 4)), (36, !bitOf f 1 || arg r 36 2 ≤ 1024)] with
    | some o => .done (bad St.paramRange o) d
    | none => .done {} (d.setStream i (if d.inRound i s then { s with sets := s.sets ++ [r.pkt] } else applySet r.pkt s))

/-- STREAM_SET (12 R313). -/
def execStreamSet (r : Rhoic) (s : State) : Host.Outcome State Fault Refusal :=
  s.next (s.dev.rhoic rowStreamSet [.stream (arg r 8 2)] r (startStreamSet r))

/-- The row of STREAM_READ (12 R313). -/
def rowStreamRead : Row := { op := 0x29, classes := 14, params := [(8, 2), (12, 4), (16, 8), (24, 8)] }

/-- Writes history tokens to `buf` (12 R313). -/
def startStreamRead (r : Rhoic) (d : Dev) : Start :=
  let i := arg r 8 2
  let n := arg r 12 4
  let first := arg r 16 8
  match d.named r i false false with
  | .inl p => .done p d
  | .inr s =>
    if n = 0 then .done (bad St.paramRange 12) d
    else if s.appended < first + n then .done (bad St.paramRange (if s.appended ≤ first then 16 else 12)) d
    else d.bufOut r (arg r 24 8) (((s.history.drop first).take n).flatMap fun t => leBytes 4 t)
      { result := s.committed, result2 := s.appended }

/-- STREAM_READ (12 R313). -/
def execStreamRead (r : Rhoic) (s : State) : Host.Outcome State Fault Refusal :=
  s.next (s.dev.rhoic rowStreamRead [.stream (arg r 8 2)] r (startStreamRead r))

/-- The row of DEFINE_PREFIX (12 R313). -/
def rowDefinePrefix : Row :=
  { op := 0x26, classes := 12, params := [(8, 2), (10, 1), (11, 1), (12, 4), (16, 8), (24, 4), (32, 16)] }

/-- A page below `n` blocks of an owner that is DROPPED, RECOMPUTING or REMOTE, at some layer (10 R260). -/
def Dev.awayBelow (d : Dev) (owner n : Nat) : Bool := (d.pagesBelow owner n).any fun p => p.state == 3 || p.state == 4 || p.state == 6

/-- Room for a prefix: page table, residual rows of its recompute, tokens (10 R264, R266). -/
def Dev.pfxRoom (d : Dev) (p n : Nat) : Option (Nat × Nat × Dev) :=
  match d.allocLow false (d.image.kvLayers * (n / 256) * 16) 0 (65536 + p) with
  | none => none
  | some (pt, d1) => match d1.allocLow false d.image.residBytes 1 (65536 + p) with
    | none => none
    | some (re, d2) => (d2.allocLow true (4 * n) 2 (65536 + p)).map fun e => (pt, re, e.2)

/-- The entries of a stream below `n` blocks move into the prefix's table; SHARED entries take their place (10 R264). -/
def Dev.movePages (d : Dev) (i p n : Nat) : Dev :=
  let moved := (d.serve.ptes.filter fun e => e.owner == i && e.block < n).map fun e => { e with owner := 65536 + p }
  let kept := d.serve.ptes.filter fun e => !(e.owner == i && e.block < n)
  let frames := d.mem.frames.map fun (f : Nat × Nat) =>
    if moved.any fun e => e.hasFrame && e.frame ≤ f.1 && f.1 < e.frame + e.size then (f.1, 65536 + p) else f
  { d with serve := { d.serve with ptes := kept ++ moved ++ d.sharedEntries i p n }
           mem := { d.mem with frames := frames } }

/-- Creates a prefix from a stream (10 R264). -/
def startDefinePrefix (r : Rhoic) (d : Dev) : Start :=
  let i := arg r 8 2
  let access := arg r 10 1
  let listed := arg r 11 1
  let n := arg r 12 4
  let handle := arg r 16 8
  let lease := arg r 24 4
  match d.named r i false true with
  | .inl p => .done p d
  | .inr s =>
    match rangeFault [(10, access ≤ 2), (11, listed ≤ 8), (12, n != 0 && n % 256 == 0 && n ≤ s.committed),
        (24, 1 ≤ lease && lease ≤ 86400)] with
    | some o => .done (bad St.paramRange o) d
    | none =>
      if (d.livePrefix s.tenant handle).isSome then .done (bad St.prefixExists) d
      else if d.awayBelow i (n / 256) then .wait d
      else match lowestIndex d.serve.prefixes 65536 with
      | none => .done (bad St.dramCapacity) d
      | some p => match d.pfxRoom p n with
        | none => .done (bad St.dramCapacity) d
        | some (pt, re, d1) =>
          let x : Pfx :=
            { handle := handle, owner := s.tenant, access := access,
              listed := (List.range (if access = 1 then listed else 0)).map fun k => arg r (32 + 2 * k) 2,
              positions := n, tokens := s.history.take n, expiry := d.tick + lease * Config.ticksPerSecond, refs := 1,
              version := d.rd Reg.activeVersion, epoch := d.rd Reg.imageEpoch, live := true, ptBase := pt,
              lastCommit := s.lastCommit, residBase := re, parent := s.pfx }
          let d2 := { d1 with serve := { d1.serve with prefixes := AMap.insert p x d1.serve.prefixes } }
          .done { result := p } ((d2.movePages i p (n / 256)).setStream i { s with pfx := some p })

/-- DEFINE_PREFIX (10 R264). -/
def execDefinePrefix (r : Rhoic) (s : State) : Host.Outcome State Fault Refusal :=
  s.next (s.dev.rhoic rowDefinePrefix
    [.stream (arg r 8 2), .handle (((s.dev.stream? (arg r 8 2)).map (·.tenant)).getD 0) (arg r 16 8)] r (startDefinePrefix r))

/-- The lease of a prefix ends: the handle resolves no more, the record goes once nothing needs it (10 R267). -/
def Dev.endLease (d : Dev) (p : Nat) : Dev := (d.onPrefix p fun x => { x with live := false }).reapPrefix p

/-- The row of RELEASE_PREFIX (12 R313). -/
def rowReleasePrefix : Row := { op := 0x27, classes := 12, params := [(8, 2), (16, 8)] }

/-- Ends the lease of the prefix that a handle names (10 R267). -/
def startReleasePrefix (r : Rhoic) (d : Dev) : Start :=
  if !d.img.everActive then .done (bad St.noImage) d
  else match d.livePrefix (d.tenantArg r 8) (arg r 16 8) with
  | some p => .done {} (d.endLease p.1)
  | none => .done (bad St.prefixUnknown) d

/-- RELEASE_PREFIX (10 R267). -/
def execReleasePrefix (r : Rhoic) (s : State) : Host.Outcome State Fault Refusal :=
  s.next (s.dev.rhoic rowReleasePrefix [.handle (s.dev.tenantArg r 8) (arg r 16 8)] r (startReleasePrefix r))

/-- The effect of a lease that expires. -/
def effPrefixLeaseExpiry (p : Nat) (d : Dev) : Dev := d.endLease p

/-- PREFIX_LEASE_EXPIRY (10 R267). -/
def execPrefixLeaseExpiry (p : Nat) (s : State) : Host.Outcome State Fault Refusal := s.next (effPrefixLeaseExpiry p s.dev)

/-- The row of SCHEDULE_WAVE (12 R313). -/
def rowScheduleWave : Row := { op := 0x2A, classes := 4, params := [(8, 1), (16, 32)] }

/-- Entry `k` of a SCHEDULE_WAVE: stream, kind, columns (12 R313). -/
def schedEntry (r : Rhoic) (k : Nat) : Nat × Nat × Nat :=
  let e := arg r (16 + 8 * k) 8
  (bitsOf e 0 16, bitsOf e 16 2, bitsOf e 18 3)

/-- Waits for the boundary at which it supplies its pipeline's entering wave (12 R317). -/
def startScheduleWave (r : Rhoic) (d : Dev) : Start :=
  let reserved := (List.range 4).find? fun k => arg r (16 + 8 * k) 8 / 2 ^ 21 != 0
  let range := (List.range 4).find? fun k =>
    let e := schedEntry r k
    e.2.1 != 0 && (e.2.2 == 0 || 4 < e.2.2)
  if !d.img.everActive then .done (bad St.noImage) d
  else if d.rd Reg.imageState = 2 then .done (bad St.imageStopped) d
  else if !d.hostMode 2 then .done (bad St.modeDevice 2) d
  else if 1 < arg r 8 1 then .done (bad St.paramRange 8) d
  else match reserved with
  | some k => .done (bad St.paramReserved (18 + 8 * k)) d
  | none => match range with
    | some k => .done (bad St.paramRange (16 + 8 * k)) d
    | none => .run { op := 0x2A, req := r } d

/-- SCHEDULE_WAVE (12 R317). -/
def execScheduleWave (r : Rhoic) (s : State) : Host.Outcome State Fault Refusal :=
  s.next (s.dev.rhoic rowScheduleWave
    ((List.range 4).filterMap fun k => let e := schedEntry r k; if e.2.1 = 0 then none else some (.stream e.1)) r (startScheduleWave r))

/-- The row of SET_BUDGET (12 R313). -/
def rowSetBudget : Row := { op := 0x40, classes := 5, params := [(8, 2), (10, 1), (12, 4), (16, 4), (20, 4), (24, 2), (26, 2)] }

/-- Sets a tenant's budget: the balance becomes `burst`, the carry 0, the counts start anew; reservations stand (11 R279, 12 R314, R319). -/
def startSetBudget (r : Rhoic) (d : Dev) : Start :=
  let t := arg r 8 2
  match rangeFault [(8, t < Config.tenantCount), (10, arg r 10 1 ≤ 7), (12, arg r 12 4 < 2 ^ 24), (16, 1 ≤ arg r 16 4),
      (24, arg r 24 2 ≤ 1024), (26, arg r 26 2 ≤ 32768)] with
  | some o => .done (bad St.paramRange o) d
  | none => .done {} (d.onTenant t fun x =>
      { x with priority := arg r 10 1, rate := arg r 12 4, burst := arg r 16 4, debt := arg r 20 4, prefillCost := arg r 24 2,
               maxStreams := arg r 26 2, balance := (arg r 16 4 : Int) * 65536, carry := 0, usedGen := 0, usedPrefill := 0,
               usedRecompute := 0, throttled := false, placed := false })

/-- SET_BUDGET (11 R279). -/
def execSetBudget (r : Rhoic) (s : State) : Host.Outcome State Fault Refusal :=
  s.next (s.dev.rhoic rowSetBudget [.tenant (arg r 8 2)] r (startSetBudget r))

/-- The row of QUERY_USAGE (12 R313). -/
def rowQueryUsage : Row := { op := 0x41, classes := 13, params := [(8, 2), (10, 1), (12, 2), (16, 8)] }

/-- The usage record of R314. -/
def usageBytes (gen pre rec_ : Nat) (beta : Int) (opened reserved : Nat) : List Byte :=
  leBytes 64 (pack [(0, 64, gen), (64, 64, pre), (128, 64, rec_), (192, 64, unsigned 64 beta), (256, 32, opened), (288, 64, reserved)])

/-- Writes the usage record of a tenant or a stream (12 R314). -/
def startQueryUsage (r : Rhoic) (d : Dev) : Start :=
  let t := d.tenantArg r 8
  let scope := arg r 10 1
  if 1 < scope then .done (bad St.paramRange 10) d
  else if Config.tenantCount ≤ t then .done (bad St.paramRange 8) d
  else if scope = 1 then
    match d.stream? (arg r 12 2) with
    | some s =>
      if d.classOf r.qp = 3 ∧ s.tenant ≠ t then .done (bad St.streamUnknown) d
      else d.bufOut r (arg r 16 8) (usageBytes s.usedGen s.usedPrefill s.usedRecompute 0 0 0) {}
    | none => .done (bad St.streamUnknown) d
  else
    let x := d.tenant t
    d.bufOut r (arg r 16 8) (usageBytes x.usedGen x.usedPrefill x.usedRecompute x.balance (d.openOf t) x.reserved) {}

/-- QUERY_USAGE (12 R314). -/
def execQueryUsage (r : Rhoic) (s : State) : Host.Outcome State Fault Refusal :=
  s.next (s.dev.rhoic rowQueryUsage
    (.tenant (s.dev.tenantArg r 8) :: (if arg r 10 1 = 1 then [.stream (arg r 12 2)] else [])) r (startQueryUsage r))

/-- The row of PAGE_DROP (12 R313). -/
def rowPageDrop : Row := { op := 0x53, classes := 4, params := [(8, 2), (10, 1), (16, 4)] }

/-- Streams that use a prefix, directly or through another that shares it (10 R264). -/
def Dev.usesPrefix (d : Dev) (p : Nat) (q : Option Nat) : Nat → Bool
  | 0 => false
  | fuel + 1 => match q with
    | none => false
    | some x => x == p || d.usesPrefix p ((AMap.find d.serve.prefixes x).bind (·.parent)) fuel

/-- Streams that reference a prefix. -/
def Dev.usersOf (d : Dev) (p : Nat) : List Nat :=
  (d.serve.streams.filter fun e => d.usesPrefix p e.2.pfx (d.serve.prefixes.length + 1)).map (·.1)

/-- Pages of a unit of R258: one block of an owner at every layer. -/
def Dev.unitPages (d : Dev) (owner block : Nat) : List Pte :=
  d.serve.ptes.filter fun p => p.owner == owner && p.block == block && p.state != 0 && p.state != 5

/-- Why a unit cannot be dropped, apart from priority (10 R258, 12 R318): 1 a page not FULL, 2 a hold, 3 a wave in flight. -/
def Dev.unitBusy (d : Dev) (owner block : Nat) : Option Nat :=
  let ps := d.unitPages owner block
  if ps.isEmpty || ps.any fun p => p.state != 2 then some 1
  else if ps.any fun p => p.pins != 0 then some 2
  else if (if owner < 65536 then d.inFlight owner else d.inFlight owner || (d.usersOf (owner - 65536)).any d.inFlight) then some 3
  else none

/-- Drops a unit (10 R243, R258); the head's drop applies on every segment (15 R364). -/
def Dev.dropUnit (d : Dev) (owner block : Nat) : Dev :=
  let d1 := ((d.unitPages owner block).foldl (fun d p => d.dropPage p) d).bump Reg.kvUnitsDropped
  if d1.rd Reg.segment = 0 then d1.otherSegments.foldl (fun (d : Dev) p => d.emit (.ctl p (.dropUnit owner block))) d1 else d1

/-- Decides a PAGE_DROP at its boundary (12 R318). -/
def Dev.decideDrop (d : Dev) (r : Rhoic) : Reply × Dev :=
  let owner := arg r 8 2 + (if arg r 10 1 = 1 then 65536 else 0)
  match d.unitBusy owner (arg r 16 4) with
  | some k => (bad St.busy k, d)
  | none => ({}, d.dropUnit owner (arg r 16 4))

/-- Drops one unit at the next boundary, at once where no beat runs (12 R318). -/
def startPageDrop (r : Rhoic) (d : Dev) : Start :=
  let idx := arg r 8 2
  let target := arg r 10 1
  if !d.hostMode 6 then .done (bad St.modeDevice 6) d
  else if 1 < target then .done (bad St.paramRange 10) d
  else if target = 0 ∧ (d.stream? idx).isNone then .done (bad St.streamUnknown) d
  else if target = 0 ∧ (d.stream? idx).map (·.state) = some .ended then .done (bad St.notActive 4) d
  else if target = 1 ∧ (AMap.find d.serve.prefixes idx).isNone then .done (bad St.prefixUnknown) d
  else if d.noBeats then
    let (p, d1) := d.decideDrop r
    .done p d1
  else .run { op := 0x53, req := r } d

/-- PAGE_DROP (12 R318). -/
def execPageDrop (r : Rhoic) (s : State) : Host.Outcome State Fault Refusal :=
  s.next (s.dev.rhoic rowPageDrop (if arg r 10 1 = 0 then [.stream (arg r 8 2)] else []) r (startPageDrop r))

end Sys2Proof.Machine
end

