-- ==== Sys2Proof/Machine/Migrate.lean ====
section
/-! DEFINITION. A stream as it travels between devices (15 R366, R369): the message over class 3, and the stream that a target makes of it. The layout of the message is a DESIGN CHOICE, log entry 9. -/
namespace Sys2Proof.Machine

/-- The state that a code of R274 names. -/
def stateOf (n : Nat) : SState :=
  if n = 1 then .idle else if n = 2 then .prefill else if n = 3 then .generating else if n = 4 then .held else .ended

/-- The stream that a table entry describes, without its history and structures (11 R273). -/
def streamOfBits (n : Nat) : Stream :=
  { state := stateOf (bitsOf n 0 3), strict := bitOf n 3, persist := bitOf n 4, textOut := bitOf n 5, kMax := bitsOf n 6 2,
    kCur := bitsOf n 8 2, missRun := bitsOf n 10 4, backoff := bitsOf n 14 7, residSlot := bitsOf n 22 2,
    tenant := bitsOf n 24 12, endReason := bitsOf n 36 4, queue := bitsOf n 40 14, ptBlocks := bitsOf n 112 16,
    committed := bitsOf n 256 40, appended := bitsOf n 296 40, genRemaining := bitsOf n 352 32,
    temperature := BitVec.ofNat 32 (bitsOf n 384 32), topK := bitsOf n 416 16, topP := bitsOf n 432 16,
    stop0 := bitsOf n 448 32, stop1 := bitsOf n 480 32, sampleSeed := BitVec.ofNat 64 (bitsOf n 512 64),
    seq := bitsOf n 576 64, lastCommit := bitsOf n 640 64, genTag := bitsOf n 704 16 }

/-- A page-table entry as a 128-bit number (10 R242). -/
def pteNat (p : Pte) : Nat :=
  pack [(0, 3, p.state), (3, 1, b2n p.cached), (4, 4, p.fmt), (8, 8, p.pins), (16, 9, p.fill), (32, 32, p.version),
    (64, 16, p.epoch), (96, 32, p.frame)]

/-- Bytes of a page in its frame. -/
def Dev.pageBytes (d : Dev) (p : Pte) : List Byte :=
  d.dramBytes (p.frame * 65536) (((d.image.kvOf p.layer).map (·.pageBytes)).getD 0)

/-- The pages that a migration carries: every FULL and ACTIVE block, with `MIGRATE_PAGES` set (15 R366 step 4). -/
def Dev.travelling (d : Dev) (i : Nat) : List Pte :=
  if d.bit Reg.migratePages then d.serve.ptes.filter fun p => p.owner == i && (p.state == 1 || p.state == 2) else []

/-- The bytes of a stream in a message: sender, index, kind 1, state before HELD, tokens delivered last, whether a GENERATE waits, the tenant's reservation, image hash and version, entry, history, residual rows, pages (15 R366, R369). -/
def streamBytes (me i redo : Nat) (s : Stream) (reserved : Nat) (hash : List Byte) (version : Nat) (resid : List Byte)
    (pages : List (Pte × List Byte)) : List Byte :=
  leBytes 2 me ++ leBytes 2 i ++ leBytes 1 1 ++ leBytes 1 s.prev.code ++ leBytes 2 redo ++ leBytes 1 (b2n s.genWaits) ++
    leBytes 8 reserved ++ (hash ++ List.replicate 64 0).take 64 ++ leBytes 4 version ++ leBytes 128 (streamBits s) ++
    leBytes 4 s.history.length ++ (s.history.flatMap fun t => leBytes 4 t) ++
    leBytes 4 resid.length ++ resid ++ leBytes 4 pages.length ++
    pages.flatMap fun p => leBytes 2 p.1.layer ++ leBytes 4 p.1.block ++ leBytes 16 (pteNat p.1) ++ leBytes 4 p.2.length ++ p.2

/-- The message of a stream that migrates. -/
def Dev.streamMsg (d : Dev) (i : Nat) : List Byte :=
  match d.stream? i with
  | none => []
  | some s =>
    let resid := match d.mem.allocs.find? fun a => a.kind == 1 && a.owner == i with
      | some a => d.dramBytes a.base a.size
      | none => []
    streamBytes (d.rd Reg.fabDevice) i 0 s (d.tenant s.tenant).reserved d.image.hash (d.rd Reg.activeVersion) resid
      ((d.travelling i).map fun p => (p, d.pageBytes p))

/-- The pages that a message carries, from an offset. -/
def pagesOf (b : List Byte) : Nat → Nat → List (Pte × List Byte)
  | 0, _ => []
  | n + 1, o =>
    let e := numAt b (o + 6) 16
    let len := numAt b (o + 22) 4
    ({ owner := 0, layer := numAt b o 2, block := numAt b (o + 2) 4, state := bitsOf e 0 3, fmt := bitsOf e 4 4,
       fill := bitsOf e 16 9, version := bitsOf e 32 32, epoch := bitsOf e 64 16 }, cut b (o + 26) len) :: pagesOf b n (o + 26 + len)

/-- Every block below `committed` of an owner as DROPPED, at every layer with a KV geometry (15 R366, R369, 10 R257). -/
def Dev.droppedTable (d : Dev) (i committed : Nat) : List Pte :=
  d.image.kv.flatMap fun g => (List.range (ceilDiv committed 256)).map fun b =>
    { owner := i, layer := g.layer, block := b, state := 3, fmt := g.fmt, fill := min 256 (committed - 256 * b),
      version := d.rd Reg.activeVersion, epoch := d.rd Reg.imageEpoch }

/-- Puts a page that came with a stream into a frame of its own; it stays DROPPED where the pool has none (15 R366 step 4). -/
def Dev.placePage (d : Dev) (i : Nat) (e : Pte × List Byte) : Dev :=
  match d.image.kvOf e.1.layer with
  | none => d
  | some g => match d.newPage i g e.1.block e.1.state e.1.fill with
    | none => d
    | some d1 =>
      let p := d1.pte i e.1.layer e.1.block
      let d2 := d1.setPte { p with fmt := e.1.fmt }
      { d2 with mem := { d2.mem with dram := memWrite d2.mem.dram (p.frame * 65536) e.2 } }

/-- A stream that came takes its place (15 R366 steps 2 to 5): an entry with structures of its own, HELD until the next boundary; tokens that a lost device delivered last are delivered again (R369). None where no entry or no DRAM is free. -/
def Dev.adopt (d : Dev) (src idx redo : Nat) (s : Stream) (prev : SState) (resid : List Byte) (pages : List (Pte × List Byte)) :
    Option (Nat × Dev) :=
  match lowestIndex d.serve.streams Config.streamCount with
  | none => none
  | some i => match d.streamRoom i s.ptBlocks with
    | none => none
    | some (pt, re, hi, d1) =>
      let s1 : Stream := { s with state := .held, prev := prev, ptBase := pt, residBase := re, histBase := hi,
                                  seq := s.seq - redo, origin := some (src, idx), partner := d.pickPartner,
                                  migrating := none, migSent := false, pfx := none, journalQ := [], journalSent := false }
      let d2 := d1.setStream i s1
      let d3 := { d2 with serve := { d2.serve with ptes := d2.serve.ptes ++ d2.droppedTable i s.committed },
                          mem := { d2.mem with dram := memWrite d2.mem.dram re resid } }
      let d4 := pages.foldl (fun d e => d.placePage i e) d3
      let d5 := (List.range redo).foldl (fun (d : Dev) j =>
        let t := s.history.getD (s.appended - redo + j) 0
        d.deliverToken i t false (prev != .generating && j + 1 == redo) (max 1 s.endReason)) d4
      some (i, d5)

/-- A stream's message reaches its target (15 R366): pages are kept only where image hash and weight version are the same. Where no entry is free the source is told so with index 0x7FFF. -/
def Dev.takeStream (d : Dev) (b : List Byte) : Dev :=
  let src := numAt b 0 2
  let idx := numAt b 2 2
  let prev := stateOf (numAt b 5 1)
  let redo := numAt b 6 2
  let s0 := streamOfBits (numAt b 85 128)
  let n := numAt b 213 4
  let o := 217 + 4 * n
  let len := numAt b o 4
  let s := { s0 with history := (List.range n).map fun k => numAt b (217 + 4 * k) 4, genWaits := numAt b 8 1 = 1 }
  let same := cut b 17 64 == (d.image.hash ++ List.replicate 64 0).take 64 && numAt b 81 4 == d.rd Reg.activeVersion
  let pages := if same then pagesOf b (numAt b (o + 4 + len) 4) (o + 8 + len) else []
  match d.adopt src idx redo s prev (cut b (o + 4) len) pages with
  | some (_, d1) => d1
  | none => d.sendMsg 3 src (leBytes 2 (d.rd Reg.fabDevice) ++ leBytes 2 idx ++ leBytes 1 2 ++ leBytes 2 0x7FFF) (some s.tenant)

/-- Streams that came take their previous state at the boundary, and their sources learn their index (15 R366 step 5). -/
def Dev.startAdopted (d : Dev) : Dev :=
  d.streamIds.foldl (fun (d : Dev) i => match d.stream? i with
    | some s => match s.origin with
      | some (src, idx) =>
        let d1 := d.setStream i { s with state := if s.state = .held ∧ d.imgActive then s.prev else s.state, origin := none }
        if src = d.rd Reg.fabDevice then d1
        else d1.sendMsg 3 src (leBytes 2 (d.rd Reg.fabDevice) ++ leBytes 2 idx ++ leBytes 1 2 ++ leBytes 2 i) (some s.tenant)
      | none => d
    | none => d) d

/-- A migration starts (15 R366). -/
def Dev.startMigration (d : Dev) (i target : Nat) : Dev :=
  d.onStream i fun s => if s.state = .ended ∨ s.migrating.isSome then s else { s with migrating := some target }

/-- A migration is abandoned (15 R371): the stream takes the state before HELD, the target frees its entry. -/
def Dev.abandonMigration (d : Dev) (i : Nat) : Dev :=
  match d.stream? i with
  | some s => match s.migrating with
    | some t =>
      let s1 := { s with migrating := none, migSent := false }
      let d1 := d.setStream i (if d.imgActive then resumeStream s1 else s1)
      if s.migSent then d1.sendMsg 3 t (leBytes 2 (d.rd Reg.fabDevice) ++ leBytes 2 i ++ leBytes 1 3) (some s.tenant) else d1
    | none => d
  | none => d

/-- The row of CANCEL (12 R313). -/
def rowCancel : Row := { op := 0x24, classes := 14, params := [(8, 2)] }

/-- Marks a cancel for the stream's next commit point or boundary; at once on a HELD stream (11 R293). -/
def startCancel (r : Rhoic) (d : Dev) : Start :=
  let i := arg r 8 2
  match d.named r i true false with
  | .inl p => .done p d
  | .inr s =>
    if s.state = .ended then .done (bad St.notActive (if s.endReason = 1 then 1 else 3)) d
    else if s.live = .idle then .done (bad St.notActive 2) d
    else if s.state = .held then .done {} (if s.migrating.isSome then (d.applyCancel i).abandonMigration i else d.applyCancel i)
    else .run { op := 0x24, req := r } (d.setStream i { s with cancelPending := true })

/-- CANCEL (11 R293). -/
def execCancel (r : Rhoic) (s : State) : Host.Outcome State Fault Refusal :=
  s.next (s.dev.rhoic rowCancel [.stream (arg r 8 2)] r (startCancel r))

/-- The source abandons a migration whose stream stands here: its entry is freed (15 R371). -/
def Dev.dropAdopted (d : Dev) (src idx : Nat) : Dev :=
  match d.serve.streams.find? fun e => e.2.origin == some (src, idx) with
  | some e => (d.setStream e.1 { e.2 with state := .ended, journalQ := [] }).freeStream e.1
  | none => d

/-- Generation or mixed members other than this device (15 R367). -/
def Dev.takers (d : Dev) : List Nat :=
  (d.fab.table.filter fun e => e.2.state == 2 && (e.2.role == 1 || e.2.role == 3) && e.1 != d.rd Reg.fabDevice).map (·.1)

/-- The member that takes a stream (15 R367): the spec's choice counts the open streams of other devices, which no state of this one holds, so the choice among the members is free (DESIGN CHOICE, log entry 44). -/
def Dev.pickTaker (d : Dev) : Option Nat × Dev :=
  let ts := d.takers
  (ts[(Config.freeWord d.freeCtr).toNat % ts.length]?, { d with freeCtr := d.freeCtr + 1 })

/-- Migrates a stream to a member that the choice of R367 gives; it stays where there is none. -/
def Dev.sendAway (d : Dev) (i : Nat) : Dev :=
  match d.stream? i with
  | some s =>
    if s.migrating.isSome || s.state == .ended then d
    else match d.pickTaker with
      | (some t, d1) => d1.startMigration i t
      | (none, d1) => d1
  | none => d

/-- Migrates every open stream (15 R362, R367). -/
def Dev.sendAllAway (d : Dev) : Dev := d.streamIds.foldl (fun d i => d.sendAway i) d

/-- The target of a migration is off: the source resumes the stream and chooses again (15 R371). -/
def Dev.rechoose (d : Dev) (i : Nat) (s : Stream) : Dev :=
  ((d.setStream i { s with migrating := none, migSent := false }).onStream i fun s => if d.imgActive then resumeStream s else s).sendAway i

/-- The report that a target has taken a stream over (15 R366 step 6): the source's stream ends MIGRATED; where the target could not take it, the source chooses again (R371). -/
def effStreamMigrated (i target index : Nat) (d : Dev) : Dev :=
  match d.stream? i with
  | some s =>
    if s.migrating ≠ some target || !s.migSent then d
    else if Config.streamCount - 1 ≤ index then
      d.rechoose i s
    else
      let d1 := d.endStream i 6 (target + 1024 * index)
      d1.raise { code := Rc.streamMigrated, detail := target, source := 1, stream := some i }
  | none => d

/-- STREAM_MIGRATED (15 R366). -/
def execStreamMigrated (i target index : Nat) (s : State) : Host.Outcome State Fault Refusal :=
  s.next (effStreamMigrated i target index s.dev)

/-- A prefix record as it travels (15 R367): handle, owner, access, listed tenants, positions, tokens, what is left of its lease. -/
def Dev.pfxBytes (d : Dev) (x : Pfx) : List Byte :=
  leBytes 8 x.handle ++ leBytes 2 x.owner ++ leBytes 1 x.access ++ leBytes 1 x.listed.length ++ (x.listed.flatMap fun t => leBytes 2 t) ++
    leBytes 4 x.positions ++ (x.tokens.flatMap fun t => leBytes 4 t) ++ leBytes 8 (x.expiry - d.tick)

/-- Prefixes that a leaving device owns move with the first stream that references them (15 R367). -/
def Dev.sendPrefix (d : Dev) (i target : Nat) : Dev :=
  if !d.fab.leaving then d
  else match d.stream? i with
  | some s => match s.pfx with
    | some p => match AMap.find d.serve.prefixes p with
      | some x => if !x.live then d
          else (d.onPrefix p fun y => { y with live := false }).sendMsg 3 target
            (leBytes 2 (d.rd Reg.fabDevice) ++ leBytes 2 i ++ leBytes 1 10 ++ d.pfxBytes x) (some x.owner)
      | none => d
    | none => d
  | none => d

/-- A prefix comes (15 R367): its record, every block DROPPED; nothing where its handle is in use or there is no room. -/
def Dev.takePrefix (d : Dev) (b : List Byte) : Dev :=
  let k := numAt b 16 1
  let o := 17 + 2 * k
  let n := numAt b o 4
  let owner := numAt b 13 2
  let handle := numAt b 5 8
  if (d.livePrefix owner handle).isSome then d
  else match lowestIndex d.serve.prefixes 65536 with
  | none => d
  | some p => match d.pfxRoom p n with
    | none => d
    | some (pt, re, d1) =>
      let x : Pfx :=
        { handle := handle, owner := owner, access := numAt b 15 1, listed := (List.range k).map (fun j => numAt b (17 + 2 * j) 2),
          positions := n, tokens := (List.range n).map (fun j => numAt b (o + 4 + 4 * j) 4), expiry := d.tick + numAt b (o + 4 + 4 * n) 8,
          refs := 0, version := d.rd Reg.activeVersion, epoch := d.rd Reg.imageEpoch, live := true, ptBase := pt, residBase := re }
      { d1 with serve := { d1.serve with prefixes := AMap.insert p x d1.serve.prefixes, ptes := d1.serve.ptes ++ d1.droppedTable (65536 + p) n } }

/-- A class-3 message about a stream: it comes, it has been taken over, or its migration is off. -/
def Dev.streamMessage (d : Dev) (b : List Byte) : Dev :=
  let k := numAt b 4 1
  if k = 1 then d.takeStream b
  else if k = 2 then effStreamMigrated (numAt b 2 2) (numAt b 0 2) (numAt b 5 2) d
  else if k = 3 then d.dropAdopted (numAt b 0 2) (numAt b 2 2)
  else if k = 10 then d.takePrefix b
  else d

/-- A journal record reaches the partner: it is kept and acknowledged, in order (15 R368). -/
def effJournalRecord (j : JRec) (d : Dev) : Dev :=
  let key := j.src * 32768 + j.stream
  let old := AMap.find d.fab.kept key
  let last := (old.map (·.1.num)).getD 0
  if old.isSome ∧ j.num ≠ last + 1 then d
  else
    let n := bitsOf j.entry 296 40
    let before := ((old.map (·.2.1)).getD []).take (n - j.toks.length)
    let redo := match old with
      | some o => bitsOf j.entry 576 64 - bitsOf o.1.entry 576 64
      | none => if n = bitsOf j.entry 256 40 + 1 then j.toks.length else 0
    ({ d with fab := { d.fab with kept := AMap.insert key (j, before ++ j.toks, redo) d.fab.kept } }).sendMsg 2 j.src
      (leBytes 1 2 ++ leBytes 2 (d.rd Reg.fabDevice) ++ leBytes 2 j.stream ++ leBytes 8 j.num) (some (bitsOf j.entry 24 12))

/-- JOURNAL_RECORD (15 R368). -/
def execJournalRecord (j : JRec) (s : State) : Host.Outcome State Fault Refusal := s.next (effJournalRecord j s.dev)

/-- The partner acknowledges a stream's oldest record: the deliveries of its commit are written, the next record is sent (15 R368). `src` is the partner. -/
def effJournalAcknowledge (src stream num : Nat) (d : Dev) : Dev :=
  match d.stream? stream with
  | some s => match s.journalQ with
    | (_, groups) :: rest =>
      if s.partner ≠ some src ∨ s.journalNum ≠ num ∨ s.journalSent = false then d
      else
        let d1 := d.setStream stream { s with journalQ := rest, journalSent := false }
        let d2 := groups.foldl (fun d g => d.postGroup s.queue g) d1
        if rest.isEmpty then d2 else d2.emitJournal stream
    | [] => d
  | none => d

/-- Journal records that waited for a delivery to be written are sent (15 R368). -/
def Dev.sendHeldJournals (d : Dev) : Dev :=
  d.streamIds.foldl (fun (d : Dev) i => match d.stream? i with
    | some s => if s.journalQ.isEmpty || s.journalSent then d else d.emitJournal i
    | none => d) d

/-- JOURNAL_ACKNOWLEDGE (15 R368). -/
def execJournalAcknowledge (src stream num : Nat) (s : State) : Host.Outcome State Fault Refusal :=
  s.next (effJournalAcknowledge src stream num s.dev)

/-- A stream whose partner is gone chooses another; what waited for the old one's acknowledgement is journaled to the new one (15 R368). -/
def Dev.newPartner (d : Dev) (i : Nat) : Dev :=
  match d.stream? i with
  | some s =>
    let d1 := d.setStream i { s with partner := d.pickPartner, journalNum := 0 }
    if s.journalQ.isEmpty then d1
    else if d.pickPartner.isSome then d1.emitJournal i
    else
      let d2 := d1.onStream i fun s => { s with journalQ := [] }
      (s.journalQ.flatMap (·.2)).foldl (fun d g => d.postGroup s.queue g) d2
  | none => d

/-- Streams whose partner is no member any more, and those that have none yet (15 R368). -/
def Dev.renewPartners (d : Dev) : Dev :=
  d.streamIds.foldl (fun (d : Dev) i => match d.stream? i with
    | some s => match s.partner with
      | some p => if d.fab.table.any fun e => e.1 == p && e.2.state == 2 then d else d.newPartner i
      | none => d.newPartner i
    | none => d) d

/-- The journals kept for a lost device go to the members that continue its streams, every block DROPPED (15 R369); this device may be one of them. -/
def Dev.rerunFor (d : Dev) (lost : Nat) : Dev :=
  let mine := d.fab.kept.filter fun e => e.1 / 32768 == lost
  let me := d.rd Reg.fabDevice
  let able := d.rd Reg.fabRole == 1 || d.rd Reg.fabRole == 3
  let d1 := { d with fab := { d.fab with kept := d.fab.kept.filter fun e => e.1 / 32768 != lost } }
  mine.foldl (fun (d : Dev) e =>
    let (j, hist, redo) := e.2
    let s0 := streamOfBits j.entry
    let s := { s0 with history := hist, prev := s0.state }
    if s0.state = .ended ∨ s0.state = .held then d
    else
      let ts := d.takers ++ (if able then [me] else [])
      let pick := ts[(Config.freeWord d.freeCtr).toNat % ts.length]?
      let d2 := { d with freeCtr := d.freeCtr + 1 }
      match pick with
      | none => d2
      | some t =>
        if t = me then
          match d2.adopt me j.stream redo s s0.state [] [] with
          | some (_, d3) => d3
          | none => d2
        else d2.sendMsg 3 t (streamBytes me j.stream redo s 0 [] 0 [] []) (some s.tenant)) d1

end Sys2Proof.Machine
end

