-- ==== Sys2Proof/Machine/Sched.lean ====
section
/-! DEFINITION. The choice of the entering waves at a beat boundary: replays (20 R434), candidates and classes (11 R282, R284), budgets (R280, R281), pages and memory pressure (10 R248, R258), recompute (R259, R266), host-assisted scheduling (12 R317). -/
namespace Sys2Proof.Machine

/-- Numbers compared one after the other: the first difference decides. -/
def lexLt : List Int → List Int → Bool
  | x :: xs, y :: ys => if x = y then lexLt xs ys else x < y
  | _, _ => false

/-- The entering waves in the making at a boundary. -/
structure Picks where
  d : Dev
  main : List WCol := []
  draft : List WCol := []
  reserve : List (Nat × Nat) := []
  /-- owners that lost a block at this boundary (10 R258) -/
  gone : List Nat := []
  deriving DecidableEq, Repr

/-- An owner has columns already. -/
def Picks.has (p : Picks) (owner : Nat) : Bool := (p.main ++ p.draft).any fun c => c.stream == owner

/-- Free columns of the main wave. -/
def Picks.free (p : Picks) : Nat := 4 - p.main.length

/-- Free columns of the draft wave. -/
def Picks.freeDraft (p : Picks) : Nat := 4 - p.draft.length

/-- Nothing keeps a stream from a wave: none in flight, no end, cancel or migration under way, no delivery waiting (11 R272, R282, R293, 12 R311). -/
def Dev.unbound (d : Dev) (i : Nat) (s : Stream) : Bool :=
  !d.inFlight i && !s.closing && !s.cancelPending && s.migrating.isNone && !d.deliveryWaits i s

/-- A stream may have a generation or prefill wave placed (11 R282). -/
def Dev.candidate (d : Dev) (i : Nat) (s : Stream) : Bool :=
  (s.state == .prefill || s.state == .generating) && d.unbound i s

/-- A command that names a stream waits for its pages: DEFINE_PREFIX, PAGE_MIGRATE or LOUPE_RUN (10 R260). -/
def Dev.pagesWanted (d : Dev) (i : Nat) : Bool :=
  (d.io.deferred ++ d.io.running).any fun j => (j.op == 0x26 || j.op == 0x52 || j.op == 0x70) && j.objs.contains (.stream i)

/-- A stream may have a recompute wave placed: it has a wave to issue, or a command waits for its pages (10 R259, R260). -/
def Dev.recCandidate (d : Dev) (i : Nat) (s : Stream) : Bool :=
  d.candidate i s || (s.state == .idle && d.pagesWanted i && d.unbound i s)

/-- A DROPPED or REMOTE block stands below a stream's committed length, its own or a prefix's (10 R259, R266). -/
def Dev.pagesAway (d : Dev) (i : Nat) (s : Stream) : Bool :=
  d.awayBelow i (ceilDiv s.committed 256) || (d.serve.recPos.any fun r => r.1 == i) ||
    (d.prefixesOf s).any fun p => d.awayBelow (65536 + p) 65536 || d.serve.recPos.any fun r => r.1 == 65536 + p

/-- The tenant and last commit of an owner: a stream, or a prefix under its owner tenant (10 R266). -/
def Dev.ownerKey (d : Dev) (owner : Nat) : Nat × Nat :=
  if owner < 65536 then ((d.stream? owner).map fun s => (s.tenant, s.lastCommit)).getD (0, 0)
  else ((AMap.find d.serve.prefixes (owner - 65536)).map fun p => (p.owner, p.lastCommit)).getD (0, 0)

/-- The order within a class (11 R282): tenants by priority, balance less reservations, index; streams by last commit, index. -/
def Dev.orderKey (d : Dev) (owner : Nat) : List Int :=
  let (t, last) := d.ownerKey owner
  let x := d.tenant t
  [-(x.priority : Int), -(x.balance - x.reserved), t, last, owner]

/-- Owners in the order of a class. -/
def Dev.inOrder (d : Dev) (os : List Nat) : List Nat := sortBy (fun a b => lexLt (d.orderKey a) (d.orderKey b)) os

/-- A charge of `c` keeps the balance within the debt limit (11 R281); unchecked in host-assisted budgets (R283). -/
def Dev.affordable (d : Dev) (t c : Nat) : Bool :=
  let x := d.tenant t
  d.hostMode 3 || decide (-((x.debt : Int) * 65536) ≤ x.balance - x.reserved - c)

/-- A stream of a tenant is passed over: TENANT_THROTTLED the first time after a placement (11 R296). -/
def Dev.passOver (d : Dev) (t : Nat) : Dev :=
  let x := d.tenant t
  if x.placed && !x.throttled then
    (d.onTenant t fun x => { x with throttled := true }).raise { code := Rc.tenantThrottled, detail := t, source := 77 }
  else d

/-- Pages that a wave needs at the blocks of some positions: those without a page in state ACTIVE, RECOMPUTING or SHARED (10 R248). -/
def Dev.pageNeeds (d : Dev) (owner : Nat) (positions : List Nat) : List (KvGeom × Nat) :=
  d.image.kv.flatMap fun g => ((positions.map (· / 256)).eraseDups.filter fun b =>
    let p := d.pte owner g.layer b
    p.state == 0 || p.state == 3 || p.state == 6).map fun b => (g, b)

/-- Gives every needed page a frame: EMPTY, or DROPPED with nothing committed in it, becomes ACTIVE, DROPPED becomes RECOMPUTING (10 R243, R248); none where the pool cannot. -/
def Dev.givePages (d : Dev) (owner : Nat) : List (KvGeom × Nat) → Option Dev
  | [] => some d
  | (g, b) :: rest =>
    let p := d.pte owner g.layer b
    match d.newPage owner g b (if p.state = 0 || p.fill = 0 then 1 else 4) p.fill with
    | some d1 => d1.givePages owner rest
    | none => none

/-- The units that memory pressure may drop for an owner of a priority, in the order of R258; `busy` are owners placed at this boundary. -/
def Dev.dropOrder (d : Dev) (prio : Nat) (busy : List Nat) : List (Nat × Nat) :=
  let units := (d.serve.ptes.map fun p => (p.owner, p.block)).eraseDups.filter fun u =>
    (d.unitBusy u.1 u.2).isNone && (d.tenant (d.ownerKey u.1).1).priority ≤ prio && !busy.contains u.1 &&
      (u.1 < 65536 || !(d.usersOf (u.1 - 65536)).any fun i => busy.contains i)
  let key (u : Nat × Nat) : List Int :=
    let (t, last) := d.ownerKey u.1
    let used := if u.1 < 65536 then last else match (d.usersOf (u.1 - 65536)).map fun i => (d.ownerKey i).2 with
      | [] => last
      | x :: xs => xs.foldl min x
    [(d.tenant t).priority, used, u.1 % 65536, -(u.2 : Int)]
  sortBy (fun a b => lexLt (key a) (key b)) units

/-- Drops units in order until the pages can be given: the device, the units dropped, and whether they could (10 R258). -/
def Dev.dropUntil (d : Dev) (owner : Nat) (needs : List (KvGeom × Nat)) : List (Nat × Nat) → List Nat → Dev × List Nat × Bool
  | [], gone => (d, gone, (d.givePages owner needs).isSome)
  | u :: us, gone =>
    if (d.givePages owner needs).isSome then (d, gone, true)
    else (d.dropUnit u.1 u.2).dropUntil owner needs us (gone ++ [u.1])

/-- Makes sure of the pages of a placement (10 R248, R258): KV_DROPPED for a round of drops, KV_PRESSURE where the pool cannot supply. Answers whether the placement may go on. -/
def Picks.withPages (p : Picks) (owner : Nat) (positions : List Nat) : Picks × Bool :=
  let d := p.d
  let needs := d.pageNeeds owner positions
  match d.givePages owner needs with
  | some d1 => ({ p with d := d1 }, true)
  | none =>
    let prio := (d.tenant (d.ownerKey owner).1).priority
    let units := if d.hostMode 6 then [] else d.dropOrder prio ((p.main ++ p.draft).map (·.stream))
    let (d1, gone, ok) := d.dropUntil owner needs units []
    let d2 := if gone.isEmpty then d1 else d1.raise { code := Rc.kvDropped, detail := gone.length, source := 78 }
    let p1 := { p with d := d2, gone := p.gone ++ gone }
    if !ok then
      ({ p1 with d := d2.raise { code := Rc.kvPressure, detail := prio, source := 78,
                                 stream := if owner < 65536 then some owner else none } }, false)
    else if gone.contains owner then (p1, false)
    else match d2.givePages owner needs with
      | some d3 => ({ p1 with d := d3 }, true)
      | none => (p1, false)

/-- Columns of one owner from the first free slot of a wave on: position and token each (06 R140). -/
def wcols (owner kind base : Nat) (ps : List (Nat × Nat)) : List WCol :=
  (List.range ps.length).filterMap fun r => (ps[r]?).map fun x =>
    { stream := owner, position := x.1, token := x.2, rank := r, kind := kind, slot := base + r }

/-- Places columns of an owner: the budget first where they are charged, then the pages (11 R281, 10 R248). `none` with the reason of R317 where they cannot be placed. -/
def Picks.place (p : Picks) (owner kind : Nat) (ps : List (Nat × Nat)) (paired : Bool) (charge : Option Nat) : Picks × Option Nat :=
  let t := (p.d.ownerKey owner).1
  let c := charge.getD 0
  if p.gone.contains owner then (p, some 1)
  else if charge.isSome && !p.d.affordable t c then ({ p with d := p.d.passOver t }, some 3)
  else
    let (p1, ok) := p.withPages owner (ps.map (·.1))
    if !ok then (p1, some 4)
    else
      let d1 := if charge.isNone then p1.d else p1.d.onTenant t fun x =>
        { x with reserved := x.reserved + (if p1.d.hostMode 3 then 0 else c), placed := true, throttled := false }
      ({ p1 with d := d1,
                 main := if kind = 1 then p1.main else p1.main ++ wcols owner kind p1.main.length ps,
                 draft := if kind = 1 then p1.draft ++ wcols owner 1 p1.draft.length ps
                          else if paired then p1.draft ++ wcols owner 4 p1.draft.length ps else p1.draft,
                 reserve := if charge.isNone || p1.d.hostMode 3 then p1.reserve else p1.reserve ++ [(owner, c)] }, none)

/-- The token of a stream's history at a position. -/
def Stream.token (s : Stream) (j : Nat) : Nat := s.history.getD j 0

/-- Draft steps of the round that a stream starts: `k_cur`, no more than there are positions for behind the next one (11 R284, 10 R241). -/
def Stream.roundLen (s : Stream) : Nat := min s.kCur (256 * s.ptBlocks - 1 - s.committed)

/-- A stream's generation may enter: no round, or its draft steps complete (11 R282, R284). -/
def Dev.genReady (d : Dev) (i : Nat) (s : Stream) : Bool :=
  d.candidate i s && s.state == .generating && (if s.roundK = 0 then s.roundLen == 0 else s.drafts.length == s.roundK) && !d.pagesAway i s

/-- The columns of a generation wave: the input token, then the drafts (11 R284). -/
def genCols (s : Stream) (n : Nat) : List (Nat × Nat) :=
  (List.range n).map fun j => (s.committed + j, if j = 0 then s.token s.committed else s.drafts.getD (j - 1) 0)

/-- The image has a draft pipeline. -/
def Dev.hasDraft (d : Dev) : Bool := d.image.hasDraft

/-- Places a stream's generation (11 R282 class 1): `k_cur` + 1 columns reduced to those free; at `k_cur` 0 a paired draft column too. -/
def Picks.takeGen (p : Picks) (i : Nat) : Picks × Option Nat :=
  match p.d.stream? i with
  | none => (p, some 1)
  | some s =>
    let pair := s.roundK = 0 && p.d.hasDraft
    if p.has i || !p.d.genReady i s || p.free = 0 || (pair && p.freeDraft = 0) then (p, some 1)
    else p.place i 0 (genCols s (min (s.roundK + 1) p.free)) pair (some ((s.roundK + 1) * 65536))

/-- A stream is in a draft round, or may start one, with its steps not complete (11 R282 class 2, R284). -/
def Dev.draftReady (d : Dev) (i : Nat) (s : Stream) : Bool :=
  d.candidate i s && s.state == .generating && d.hasDraft && !d.pagesAway i s &&
    (if s.roundK = 0 then 1 ≤ s.roundLen else s.drafts.length < s.roundK)

/-- The columns of a draft step: step 1 also carries the position before when the last round accepted every draft (11 R284). -/
def draftCols (s : Stream) : List (Nat × Nat) :=
  let j := s.drafts.length
  let c := s.committed
  (if j = 0 && s.allAccepted && c != 0 then [(c - 1, s.token (c - 1))] else []) ++
    [(c + j, if j = 0 then s.token c else s.drafts.getD (j - 1) 0)]

/-- Places a stream's draft step (11 R282 class 2). -/
def Picks.takeDraft (p : Picks) (i : Nat) : Picks × Option Nat :=
  match p.d.stream? i with
  | none => (p, some 1)
  | some s =>
    if p.has i || !p.d.draftReady i s || p.freeDraft < (draftCols s).length then (p, some 1)
    else
      let (p1, r) := p.place i 1 (draftCols s) false none
      if r.isSome then (p1, r)
      else ({ p1 with d := p1.d.onStream i fun s => if s.roundK = 0 then { s with roundK := s.roundLen } else s }, none)

/-- The committed positions of an owner. -/
def Dev.lengthOf (d : Dev) (owner : Nat) : Nat :=
  if owner < 65536 then ((d.stream? owner).map (·.committed)).getD 0
  else ((AMap.find d.serve.prefixes (owner - 65536)).map (·.positions)).getD 0

/-- The block that an owner recomputes and the next position to carry: the lowest DROPPED block, in ascending order (10 R259). -/
def Dev.recBlock (d : Dev) (owner : Nat) : Option (Nat × Nat) :=
  match AMap.find d.serve.recPos owner with
  | some n => if n < d.lengthOf owner then some (n / 256, n) else none
  | none => (d.droppedBlock owner (ceilDiv (d.lengthOf owner) 256)).map fun b => (b, 256 * b)

/-- Saves a stream's residual rows and slot before the first recompute wave of a block below its ACTIVE block (10 R259). -/
def Dev.saveResid (d : Dev) (i b : Nat) : Dev :=
  d.onStream i fun s =>
    if b < s.committed / 256 && s.savedSlot.isNone then
      let rows := (d.mem.allocs.find? fun a => a.kind == 1 && a.owner == i).map fun a => d.mem.dram.filter fun e => inRange e.1 a.base a.size
      { s with savedSlot := some s.residSlot, savedRows := rows.getD [] }
    else s

/-- The start of recompute of an owner's block: residual state saved; a prefix takes a hold and raises PREFIX_RECOMPUTE (10 R259, R266). -/
def Dev.startRec (d : Dev) (owner b : Nat) : Dev :=
  if owner < 65536 then d.saveResid owner b
  else
    let p := owner - 65536
    match AMap.find d.serve.prefixes p with
    | some x =>
      if x.recomputing then d
      else ((d.onPrefix p fun x => { x with recomputing := true, residSlot := 0 }).pinBlocks owner 65536 true).raise
        { code := Rc.prefixRecompute, detail := p, source := 78 }
    | none => d

/-- The token that an owner's position carries in recompute (10 R259, R266). -/
def Dev.recToken (d : Dev) (owner j : Nat) : Nat :=
  if owner < 65536 then ((d.stream? owner).map (·.token j)).getD 0
  else ((AMap.find d.serve.prefixes (owner - 65536)).map fun p => p.tokens.getD j 0).getD 0

/-- Places recompute columns of an owner's lowest DROPPED block (11 R282 class 3, 10 R259). -/
def Picks.takeRec (p : Picks) (owner limit : Nat) : Picks × Option Nat :=
  match p.d.recBlock owner with
  | none => (p, some 1)
  | some (b, next) =>
    let room := min (min p.free limit) (if p.d.hasDraft then p.freeDraft else 4)
    let n := min room (min (256 * (b + 1)) (p.d.lengthOf owner) - next)
    if p.has owner || n = 0 || (65536 ≤ owner && p.d.holdsFull owner 65536) then (p, some 1)
    else
      let p0 := { p with d := if next = 256 * b then p.d.startRec owner b else p.d }
      let (p1, r) := p0.place owner 3 ((List.range n).map fun k => (next + k, p.d.recToken owner (next + k))) p.d.hasDraft none
      if r.isSome then (p1, r)
      else ({ p1 with d := { p1.d with serve := { p1.d.serve with recPos := AMap.insert owner (next + n) p1.d.serve.recPos } } }, none)

/-- Places prefill columns of a stream: positions `committed` to `appended` − 2 (11 R274, R282 class 3). -/
def Picks.takePrefill (p : Picks) (i limit : Nat) : Picks × Option Nat :=
  match p.d.stream? i with
  | none => (p, some 1)
  | some s =>
    let room := min (min p.free limit) (if p.d.hasDraft then p.freeDraft else 4)
    let n := min room (s.appended - 1 - s.committed)
    if p.has i || !p.d.candidate i s || s.state != .prefill || p.d.pagesAway i s || n = 0 then (p, some 1)
    else p.place i 2 ((List.range n).map fun k => (s.committed + k, s.token (s.committed + k))) p.d.hasDraft
      (some (n * 256 * (p.d.tenant s.tenant).prefillCost))

/-- A recompute of an owner is due or under way (10 R266). -/
def Dev.recBusy (d : Dev) (owner : Nat) : Bool := (d.recBlock owner).isSome || (AMap.find d.serve.recPos owner).isSome

/-- A page of a stream stands on a cache device: it is brought back before anything is recomputed (10 R259). -/
def Dev.remotePages (d : Dev) (i : Nat) : Bool := d.serve.ptes.any fun p => p.owner == i && p.state == 6

/-- Owners whose blocks wait for recompute: prefixes that a stream with a wave to issue references, then streams (10 R259, R266). REMOTE pages are brought back first. -/
def Dev.recOwners (d : Dev) : List Nat × List Nat :=
  let ss := d.serve.streams.filter fun e => d.recCandidate e.1 e.2
  let pf := ((ss.flatMap fun e => d.prefixesOf e.2).eraseDups.map (65536 + ·)).filter fun o =>
    (d.recBlock o).isSome && !d.inFlight o
  let st := (ss.filter fun e => (d.recBlock e.1).isSome && !d.remotePages e.1 &&
    !((d.prefixesOf e.2).any fun p => d.recBusy (65536 + p))).map (·.1)
  (pf, st)

/-- The classes of R282 in order, on the streams of a boundary. -/
def Picks.classes (p : Picks) : Picks :=
  let ids (d : Dev) := d.streamIds
  let p1 := (p.d.inOrder ((ids p.d).filter fun i => match p.d.stream? i with
    | some s => p.d.genReady i s
    | none => false)).foldl (fun p i => (p.takeGen i).1) p
  let p2 := (p1.d.inOrder ((ids p1.d).filter fun i => match p1.d.stream? i with
    | some s => p1.d.draftReady i s
    | none => false)).foldl (fun p i => (p.takeDraft i).1) p1
  let (pf, st) := p2.d.recOwners
  let p3 := (p2.d.inOrder pf ++ p2.d.inOrder st).foldl (fun p o => (p.takeRec o 4).1) p2
  (p3.d.inOrder ((ids p3.d).filter fun i => match p3.d.stream? i with
    | some s => p3.d.candidate i s && s.state == .prefill && !p3.d.pagesAway i s
    | none => false)).foldl (fun p i => (p.takePrefill i 4).1) p3

/-- One entry of a SCHEDULE_WAVE: the reason where it does not pass (12 R317). -/
def Picks.entry (p : Picks) (draft : Bool) (e : Nat × Nat × Nat) : Picks × Option Nat :=
  let (i, kind, n) := e
  let full := if draft then p.freeDraft < n else p.free < n
  if full then (p, some 5)
  else match p.d.stream? i with
  | none => (p, some 1)
  | some s =>
    if draft then
      if kind ≠ 1 || !p.d.draftReady i s then (p, some 1)
      else if (draftCols s).length ≠ n then (p, some 2)
      else p.takeDraft i
    else if kind = 1 then
      if !p.d.genReady i s then (p, some 1)
      else if n ≠ min (s.roundK + 1) p.free then (p, some 2)
      else p.takeGen i
    else if kind = 2 then
      if !p.d.candidate i s || s.state != .prefill || p.d.pagesAway i s then (p, some 1)
      else if n ≠ min p.free (s.appended - 1 - s.committed) then (p, some 2)
      else p.takePrefill i n
    else
      -- a prefix that the stream shares is recomputed first (10 R266)
      let o := (((p.d.prefixesOf s).map (65536 + ·)).find? fun o => p.d.recBusy o).getD i
      match p.d.recBlock o with
      | none => (p, some 1)
      | some (b, next) =>
        if !p.d.recCandidate i s || p.d.inFlight o || p.d.remotePages i then (p, some 1)
        else if n ≠ min p.free (min (256 * (b + 1)) (p.d.lengthOf o) - next) then (p, some 2)
        else p.takeRec o n

/-- The entries of a SCHEDULE_WAVE one after the other: the first that fails, with its reason (12 R317). -/
def Picks.entries (p : Picks) (draft : Bool) : List (Nat × (Nat × Nat × Nat)) → Picks × Option (Nat × Nat)
  | [] => (p, none)
  | (k, e) :: rest =>
    if e.2.1 = 0 then p.entries draft rest
    else match p.entry draft e with
      | (p1, none) => p1.entries draft rest
      | (p1, some r) => (p1, some (k, r))

/-- The throttled marks that an attempt left stay with the tenants when the attempt comes to nothing (11 R296). -/
def Dev.keepThrottled (d e : Dev) : Dev :=
  { d with serve := { d.serve with tenants := d.serve.tenants.map fun (t : Nat × Tenant) =>
      (t.1, { t.2 with throttled := t.2.throttled || (e.tenant t.1).throttled }) } }

/-- The oldest SCHEDULE_WAVE of a pipeline supplies its entering wave, or completes WAVE_REFUSED (12 R317). What the attempt raised stays; what it placed does not. -/
def Picks.hostWave (p : Picks) (draft : Bool) : Picks :=
  match (p.d.jobs 0x2A).find? fun j => arg j.req 8 1 == b2n draft with
  | none => p
  | some j =>
    match p.entries draft ((List.range 4).map fun k => (k, schedEntry j.req k)) with
    | (p1, none) => { p1 with d := p1.d.finishJob j {} }
    | (p1, some (k, r)) =>
      { p with d := ({ p.d with occ := p1.d.occ }.keepThrottled p1.d).finishJob j (bad St.waveRefused (k + 16 * r)) }

/-- A wave of columns that enters its pipeline (11 R271). -/
def Dev.newWave (d : Dev) (draft : Bool) (cols : List WCol) (reserve : List (Nat × Nat)) : List Wave :=
  if cols.isEmpty then []
  else [{ draft := draft, stage := if draft then 512 else 0, cols := cols, entry := d.beat, version := d.rd Reg.activeVersion,
          modes := d.rd Reg.modeSplit, reserve := reserve }]

/-- The first replay of each pipeline re-enters, ahead of every class (20 R434). -/
def Dev.enterReplays (d : Dev) : Dev :=
  let m := d.serve.replays.find? fun w => !w.draft
  let f := d.serve.replays.find? fun w => w.draft
  let ws := m.toList ++ f.toList
  { d with serve := { d.serve with replays := ws.foldl (fun l w => l.erase w) d.serve.replays
                                   waves := d.serve.waves ++ ws } }

/-- Unjournaled data at which no new wave is issued: 60 MiB (17 R399). -/
def journalBound : Nat := 60 * 2 ^ 20

/-- The waves that enter at a boundary: a replay of each pipeline; else, where issue is not held, those that the scheduler or the host chooses (11 R271, R282, 12 R317, 20 R434). -/
def Dev.enterWaves (d : Dev) : Dev :=
  if !d.serve.replays.isEmpty then d.enterReplays
  else if !d.serve.holds.isEmpty || d.rd Reg.segment ≠ 0 || journalBound ≤ d.pwr.unjournaled then d
  else
    let p0 : Picks := { d := d }
    let p := if d.hostMode 2 then (p0.hostWave false).hostWave true else p0.classes
    { p.d with serve := { p.d.serve with
        waves := p.d.serve.waves ++ p.d.newWave false p.main p.reserve ++ p.d.newWave true p.draft [] } }

/-- Every tenant's balance is refilled for the ticks since the last boundary (11 R280); none in host-assisted budgets has a charge, its balance is refilled all the same. -/
def Dev.refill (d : Dev) : Dev :=
  let delta := d.tick - d.serve.lastTick
  let step (x : Tenant) : Tenant :=
    let num := x.rate * delta * 65536 + x.carry
    let b := x.balance + (num / 25000000 : Nat)
    let cap : Int := (x.burst : Int) * 65536
    if cap ≤ b then { x with balance := cap, carry := 0 } else { x with balance := b, carry := num % 25000000 }
  { d with serve := { d.serve with lastTick := d.tick
                                   tenants := d.serve.tenants.map fun e => (e.1, step e.2) } }

end Sys2Proof.Machine
end

