-- ==== Sys2Proof/Machine/Commit.lean ====
section
/-! DEFINITION. The commit point (11 R285, R286, R289-R293): accepted tokens, histories, pages, budgets, deliveries and states; recompute and prefixes (10 R259, R266); replays that lose columns (R260, R293). -/
namespace Sys2Proof.Machine

/-- A layer whose row stores stand in the draft pipeline (11 R269, R284). -/
def Image.draftLayer (im : Image) (l : Nat) : Bool :=
  im.tiles.any fun r => r.sections.any fun s => 512 ≤ r.sectStage s && (r.sectDescs s).any fun i =>
    r.descAt i % 64 == 0x15 && (kvDesc (r.descAt i)).1 == l

/-- Updates `fill` of a stream's pages in the draft pipeline for positions [lo, hi): those whose draft rows were written count (10 R243, 11 R284). -/
def Dev.fillDraft (d : Dev) (i lo hi : Nat) : Dev :=
  match d.stream? i with
  | some s => (List.range (ceilDiv hi 256 - lo / 256)).foldl (fun (d : Dev) k =>
      let b := lo / 256 + k
      d.fillBlock d.image.draftLayer i b (min 256 (hi - 256 * b) - (s.draftGaps.filter fun g => g / 256 == b && g < hi).length)) d
  | none => d

/-- The token that the SAMPLE of a column gave in this beat; a free value where the last stage ran none (11 R269). -/
def Dev.sampleAt (d : Dev) (draft : Bool) (slot : Nat) : Nat :=
  (AMap.find d.serve.sampled ((if draft then 4 else 0) + slot)).getD ((Config.freeWord d.freeCtr).toNat % 2 ^ 32)

/-- Draft tokens that the main wave's samples confirm from the first on (11 R285). -/
def accepted : List Nat → List Nat → Nat
  | x :: xs, y :: ys => if x = y then 1 + accepted xs ys else 0
  | _, _ => 0

/-- A token ends the generation of a stream (11 R291). -/
def stops (s : Stream) (endTok : Option Nat) (tok : Nat) : Bool :=
  tok != 0xFFFFFFFF && (tok == s.stop0 || tok == s.stop1 || some tok == endTok)

/-- The tokens of a round up to its last one (11 R291): each with its stop mark, and whether the last of them ends the generation. `n` counts those before. -/
def cutTokens (s : Stream) (endTok : Option Nat) : Nat → List Nat → List (Nat × Bool) × Bool
  | _, [] => ([], false)
  | n, t :: ts =>
    let st := stops s endTok t
    if st || s.genRemaining ≤ n + 1 || 256 * s.ptBlocks ≤ s.appended + n + 1 then ([(t, st)], true)
    else
      let (rest, fin) := cutTokens s endTok (n + 1) ts
      ((t, st) :: rest, fin)

/-- The draft length after a round of `k` draft steps of which `a` were accepted (11 R286): the entry, and whether SPEC_BACKOFF is raised. -/
def adjustK (s : Stream) (k a : Nat) : Stream × Bool :=
  if k = 0 then
    if s.backoff = 0 then (s, false)
    else if s.backoff = 1 then ({ s with backoff := 0, kCur := min 1 s.kMax, missRun := 0, firstAfterBackoff := true }, false)
    else ({ s with backoff := s.backoff - 1 }, false)
  else if a = k then ({ s with missRun := 0, kCur := min (s.kCur + 1) s.kMax, firstAfterBackoff := false }, false)
  else if 1 ≤ a then ({ s with missRun := 0, firstAfterBackoff := false }, false)
  else if s.firstAfterBackoff then ({ s with kCur := 0, backoff := 64, firstAfterBackoff := false }, false)
  else if 8 ≤ s.missRun + 1 then ({ s with kCur := 0, backoff := 64, missRun := 8 }, true)
  else ({ s with missRun := s.missRun + 1 }, false)

/-- What a wave has reserved for a stream (11 R281). -/
def Wave.reservedFor (w : Wave) (i : Nat) : Nat := ((w.reserve.filter fun r => r.1 == i).map (·.2)).foldl (· + ·) 0

/-- Gives back a stream's reservation in a wave (11 R281). -/
def Dev.giveBack (d : Dev) (w : Wave) (i : Nat) : Dev :=
  let c := w.reservedFor i
  match d.stream? i with
  | some s => if c = 0 then d else d.onTenant s.tenant fun x => { x with reserved := x.reserved - c }
  | none => d

/-- Charges and counts committed work: generated tokens and prefill positions (11 R280, 12 R314, R316). No charge exceeds what the wave reserved, whatever SET_BUDGET has made of the cost since (R281). -/
def Dev.charge (d : Dev) (w : Wave) (i t gen pre : Nat) : Dev :=
  let cost (x : Tenant) : Int :=
    if bitOf w.modes 3 then 0 else (min (gen * 65536 + pre * 256 * x.prefillCost) (w.reservedFor i) : Nat)
  let d1 := (d.onTenant t fun x => { x with balance := x.balance - cost x, usedGen := x.usedGen + gen,
                                            usedPrefill := x.usedPrefill + pre }).onStream i fun s =>
    { s with usedGen := s.usedGen + gen, usedPrefill := s.usedPrefill + pre }
  d1.bump Reg.tokensCommitted gen

/-- A page of an owner's block that was recomputed takes its state by `fill`; its on-wafer copies go (10 R243, R251). -/
def Dev.endBlock (d : Dev) (owner b : Nat) : Dev :=
  (d.serve.ptes.filter fun p => p.owner == owner && p.block == b && p.state == 4).foldl
    (fun d p => (d.uncache p.frame).setPte { p with state := if p.fill = 256 then 2 else 1, cached := false }) d

/-- Restores a stream's residual rows and slot after a block below its ACTIVE block (10 R259). -/
def Dev.restoreResid (d : Dev) (i : Nat) : Dev :=
  match d.stream? i with
  | some s => match s.savedSlot with
    | some slot =>
      let d1 := d.setStream i { s with residSlot := slot, savedSlot := none, savedRows := [] }
      match d.mem.allocs.find? fun a => a.kind == 1 && a.owner == i with
      | some a => { d1 with mem := { d1.mem with dram := memSplice d1.mem.dram a.base a.size s.savedRows } }
      | none => d1
    | none => d
  | none => d

/-- A commit point of a prefix's recompute: it is abandoned where nothing references the prefix any more, and over where no block waits (10 R266, R267). -/
def Dev.endPfxRec (d : Dev) (p : Nat) : Dev :=
  match AMap.find d.serve.prefixes p with
  | some x => if x.refs = 0 then d.abandonPfxRec p else if (d.recBlock (65536 + p)).isNone then d.closePfxRec p else d
  | none => d

/-- Recompute columns of an owner reach their commit point: the residual chain moves on, the positions are counted, a finished block takes its state (10 R243, R259, R266). -/
def Dev.commitRec (d : Dev) (owner : Nat) (cols : List WCol) : Dev :=
  match cols.getLast? with
  | none => d
  | some c =>
    let n := cols.length
    let b := c.position / 256
    let t := (d.ownerKey owner).1
    let d1 := (d.bump Reg.recomputePositions n).onTenant t fun x => { x with usedRecompute := x.usedRecompute + n }
    let d2 := if owner < 65536 then d1.onStream owner fun s =>
        { s with residSlot := c.rank, usedRecompute := s.usedRecompute + n, lastCommit := d.beat,
                 draftGaps := s.draftGaps.filter fun g => !(cols.any fun (x : WCol) => x.position == g) }
      else d1.onPrefix (owner - 65536) fun x => { x with residSlot := c.rank, lastCommit := d.beat }
    let fin := c.position + 1 = min (256 * (b + 1)) (d.lengthOf owner) && AMap.find d.serve.recPos owner == some (c.position + 1)
    let d3 := if fin then
        let d3 := d2.endBlock owner b
        -- paired draft columns have written every draft row of the block
        let d4 := if owner < 65536 then d3.fillDraft owner (256 * b) (c.position + 1) else d3
        { d4 with serve := { d4.serve with recPos := AMap.erase owner d4.serve.recPos } }
      else d2
    if owner < 65536 then (if fin then d3.restoreResid owner else d3) else d3.endPfxRec (owner - 65536)

/-- Parameters that waited for the end of a wave or round (12 R313, R319). -/
def Dev.applySets (d : Dev) (i : Nat) : Dev :=
  match d.stream? i with
  | some s =>
    if s.sets.isEmpty || d.inRound i s then d
    else d.setStream i { s.sets.foldl (fun (s : Stream) p => applySet p s) s with sets := [] }
  | none => d

/-- A stream that is to migrate becomes HELD and is sent to its target (15 R366 steps 1 and 3). -/
def Dev.holdMigrating (d : Dev) (i : Nat) : Dev :=
  match d.stream? i with
  | some s => match s.migrating with
    | some t => if s.migSent || d.inFlight i || s.state == .ended then d
        else
          let d1 := d.setStream i { holdStream s with migSent := true }
          (d1.sendPrefix i t).sendMsg 3 t (d1.streamMsg i) (some s.tenant)
    | none => d
  | none => d

/-- A stream's close takes effect: nothing of its wave is delivered or charged (11 R293). -/
def Dev.closeNow (d : Dev) (i : Nat) : Dev := if d.inFlight i then d else (d.endStream i 3).freeStream i

/-- Journal bytes of a commit: the entry and the tokens added (17 R399; DESIGN CHOICE, log entry 43). -/
def Dev.noteJournal (d : Dev) (toks : Nat) : Dev :=
  { d with pwr := { d.pwr with unjournaled := d.pwr.unjournaled + 128 + 4 * toks } }

/-- The generation columns of a main wave (11 R285, R286, R289, R291, R292, R293). -/
def Dev.commitGen (d : Dev) (w : Wave) (i : Nat) (s : Stream) (cols : List WCol) : Dev :=
  let ys := cols.map fun c => d.sampleAt false c.slot
  let k := s.roundK
  let a := accepted (s.drafts.take (cols.length - 1)) ys
  let toks := s.drafts.take a ++ [ys.getD a 0]
  let (out, fin) := cutTokens s (d.image.tok.bind (·.stopTok)) 0 toks
  let n := out.length
  if s.cancelPending && !fin then d.setStream i { s with drafts := [], roundK := 0, lastCommit := d.beat }
  else
    let (s1, backed) := if bitOf w.modes 4 then (s, false) else adjustK s k a
    let s2 := { s1 with
      history := s.history.take s.appended ++ out.map (·.1), appended := s.appended + n, committed := s.committed + n,
      genRemaining := s.genRemaining - n, residSlot := n - 1, lastCommit := d.beat, drafts := [], roundK := 0,
      allAccepted := 1 ≤ k && n == k + 1,
      draftGaps := s.draftGaps ++ if 1 ≤ k && n == k + 1 then [s.committed + k] else [] }
    let d1 := d.setStream i s2
    let d2 := d1.fillTo (fun l => !d.image.draftLayer l) i s.committed s2.committed
    let d3 := d2.fillDraft i (s.committed - 1) s2.committed
    let d4 := if backed then d3.raise { code := Rc.specBackoff, detail := i, source := 77, stream := some i } else d3
    let d5 := ((d4.charge w i s.tenant n 0).noteJournal n).pushJournal i (out.map (·.1))
    let d6 := (List.range n).foldl (fun (d : Dev) j => match out[j]? with
      | some t => d.deliverToken i t.1 t.2 (fin && j + 1 == n) 1
      | none => d) d5
    let d7 := if fin then (d6.generationOver i 1).finishCancels i (bad St.notActive 1) else d6
    d7.kickJournal i

/-- Prefill columns of a main wave: their positions are committed and charged (11 R274, R280, R289). -/
def Dev.commitPrefill (d : Dev) (w : Wave) (i : Nat) (s : Stream) (cols : List WCol) : Dev :=
  match cols.getLast? with
  | none => d
  | some c =>
    let s1 := { s with committed := c.position + 1, residSlot := c.rank, lastCommit := d.beat, allAccepted := false }
    let d1 := ((d.setStream i s1).fillTo (fun l => !d.image.draftLayer l) i s.committed s1.committed).fillDraft i s.committed s1.committed
    let d2 := ((d1.charge w i s.tenant 0 cols.length).noteJournal 0).sendJournal i []
    if s.cancelPending || s1.committed + 1 < s.appended then d2
    else
      let d3 := d2.onStream i fun s => { s.enter (if s.genWaits then .generating else .idle) with genWaits := false }
      if s.genWaits then d3.beginGen i else d3

/-- A stream of a main wave at its commit point (11 R289 steps 2 to 7). -/
def Dev.commitMain (d : Dev) (w : Wave) (i : Nat) : Dev :=
  let cols := w.cols.filter fun c => c.stream == i
  let rec_ := cols.filter fun c => c.kind == 3
  let d0 := d.giveBack w i
  if 65536 ≤ i then d0.commitRec i rec_
  else match d0.stream? i with
  | none => d0
  | some s =>
    if s.closing then d0.closeNow i
    else if s.state = .ended then (if d0.inFlight i then d0 else d0.freeStreamPages i)
    else
      let d1 := if rec_.isEmpty then d0 else d0.commitRec i rec_
      let gen := cols.filter fun c => c.kind == 0
      let pre := cols.filter fun c => c.kind == 2
      let d2 := if gen.isEmpty then d1 else d1.commitGen w i s gen
      let d3 := if pre.isEmpty then d2 else d2.commitPrefill w i s pre
      let d4 := match d3.stream? i with
        | some t => if t.cancelPending then d3.applyCancel i else d3
        | none => d3
      let d5 := match d4.stream? i with
        | some t => if t.state = SState.ended ∧ !d4.inFlight i then d4.freeStreamPages i else d4
        | none => d4
      (d5.applySets i).holdMigrating i

/-- A stream of a draft wave at its commit point: its drawn token is kept; rows of committed positions count (11 R284, R289 step 1). -/
def Dev.commitDraft (d : Dev) (w : Wave) (i : Nat) : Dev :=
  let cols := w.cols.filter fun c => c.stream == i && c.kind == 1
  match cols.getLast?, d.stream? i with
  | some c, some s =>
    if s.closing then d.closeNow i
    else if s.state = .ended then (if d.inFlight i then d else d.freeStreamPages i)
    else if s.cancelPending then ((d.setStream i { s with drafts := [], roundK := 0 }).applyCancel i).holdMigrating i
    else if s.state ≠ .generating then d.setStream i { s with drafts := [], roundK := 0 }
    else
      -- step 1 has written the rows that the round before left out
      let d1 := d.setStream i { s with drafts := s.drafts ++ [d.sampleAt true c.slot], allAccepted := false,
                                       draftGaps := if s.allAccepted then s.draftGaps.erase (s.committed - 1) else s.draftGaps }
      (if s.allAccepted then d1.fillDraft i (s.committed - 1) s.committed else d1).holdMigrating i
  | _, _ => d

/-- A wave reaches its commit point: its streams in ascending index (11 R289). -/
def Dev.commitWave (d : Dev) (w : Wave) : Dev :=
  let d1 := ({ d with serve := { d.serve with waves := d.serve.waves.erase w } }).bump Reg.wavesCommitted
  let is := sortBy (fun a b => decide (a < b)) (w.cols.map (·.stream)).eraseDups
  is.foldl (fun d i => if w.draft then d.commitDraft w i else d.commitMain w i) d1

/-- A column of an abandoned wave is not replayed: its stream has a cancel pending, or met an unreadable page and the pages that it would read are not readable yet (10 R260, 11 R293). -/
def Dev.purged (d : Dev) (c : WCol) : Bool :=
  if c.kind = 3 then
    (AMap.find d.serve.recPos c.stream).isNone || d.serve.ptes.any fun p => p.owner == c.stream && p.block == c.position / 256 && p.state == 3
  else match d.stream? c.stream with
    | some s => s.cancelPending || s.state == .ended || (d.serve.missing.contains c.stream && d.pagesAway c.stream s)
    | none => true

/-- The replays without the columns that are not carried again; a wave with no column left is none (11 R271). -/
def Dev.purgeReplays (d : Dev) : Dev :=
  let d2 := d.serve.replays.foldl (fun (d : Dev) w =>
    let keep := w.cols.filter fun c => !d.purged c
    if keep.length = w.cols.length then d
    else
      let gone := (w.cols.map (·.stream)).eraseDups.filter fun i => !(keep.any fun c => c.stream == i)
      let d1 := gone.foldl (fun d i => d.giveBack w i) d
      let w1 := { w with cols := keep, reserve := w.reserve.filter fun r => !gone.contains r.1 }
      { d1 with serve := { d1.serve with
          replays := if keep.isEmpty then d1.serve.replays.erase w else d1.serve.replays.map fun v => if v = w then w1 else v } }) d
  { d2 with serve := { d2.serve with missing := [] } }

/-- What a boundary decides for streams with no wave in flight: closes, cancels, the frames of ended ones, parameters, migrations (10 R263, 11 R293, 12 R319, 15 R366). -/
def Dev.settleStreams (d : Dev) : Dev :=
  d.streamIds.foldl (fun (d : Dev) i => match d.stream? i with
    | some s =>
      if d.inFlight i then d
      else if s.closing then d.closeNow i
      else if s.cancelPending then d.applyCancel i
      else if s.state = .ended then d.freeStreamPages i
      else (d.applySets i).holdMigrating i
    | none => d) d

end Sys2Proof.Machine
end

