-- ==== Sys2Proof/Machine/Pages.lean ====
section
/-! DEFINITION. KV pages that move to a cache device and back (10 R243, R256, R259, R260, 12 R313 PAGE_MIGRATE, 15 R362). The layout of the messages is a DESIGN CHOICE, log entry 9. -/
namespace Sys2Proof.Machine

/-- Owner of the frames of pages that a cache device holds, among the KV granules (15 R362). -/
def remoteOwner : Nat := 200001

/-- A class-3 message about a page: sender, stream, kind, layer, block. -/
def Dev.sendPageMsg (d : Dev) (peer stream kind layer block : Nat) (bs : List Byte) (tenant : Option Nat) : Dev :=
  d.sendMsg 3 peer (leBytes 2 (d.rd Reg.fabDevice) ++ leBytes 2 stream ++ leBytes 1 kind ++ leBytes 2 layer ++ leBytes 4 block ++ bs) tenant

/-- The tenant of a stream, whose session key its pages travel under (21 R462). -/
def Dev.tenantOf (d : Dev) (i : Nat) : Option Nat := (d.stream? i).map (·.tenant)

/-- A page in motion is one that a PAGE_MIGRATE names. -/
def covers (j : Job) (m : Moving) : Bool :=
  j.objs == [.stream m.stream] && (arg j.req 10 1 == 1) == m.back && arg j.req 16 4 ≤ m.block &&
    m.block < arg j.req 16 4 + arg j.req 20 4

/-- PAGE_MIGRATE commands that have nothing left to move complete (12 R313). -/
def Dev.finishMoves (d : Dev) : Dev :=
  ((d.jobs 0x52).filter fun j => !(d.fab.moving.any fun m => covers j m)).foldl (fun d j => d.finishJob j {}) d

/-- Changes the hold on a page (10 R256). -/
def Dev.pinPage (d : Dev) (m : Moving) (up : Bool) : Dev :=
  let p := d.pageOf (d.pte m.stream m.layer m.block) (d.serve.prefixes.length + 1)
  if p.state = 0 then d else d.setPte { p with pins := if up then p.pins + 1 else p.pins - 1 }

/-- Changes a page in motion in its place. -/
def Dev.setMoving (d : Dev) (m n : Moving) : Dev :=
  { d with fab := { d.fab with moving := d.fab.moving.map fun x => if x = m then n else x } }

/-- The motion of a page is over: its hold ends where it has one (10 R256). -/
def Dev.endMove (d : Dev) (m : Moving) : Dev :=
  let d1 := { d with fab := { d.fab with moving := d.fab.moving.filter fun x => x != m } }
  (if m.phase = 0 then d1 else d1.pinPage m false).finishMoves

/-- A page that waits starts to move once its block allows it (10 R243, R256, R260): a FULL page is sent, a REMOTE one is asked for; a block that is recomputed is waited for; any other does not move. -/
def Dev.stepMove (d : Dev) (m : Moving) : Dev :=
  let p := d.pte m.stream m.layer m.block
  if m.phase ≠ 0 then d
  else if p.state = (if m.back then 6 else 2) then
    if 255 ≤ p.pins then d
    else
      let d1 := (d.pinPage m true).setMoving m { m with phase := 1 }
      if m.back then d1.sendPageMsg m.peer m.stream 6 m.layer m.block [] (d.tenantOf m.stream)
      else
        let bs := d.pageBytes p
        d1.sendPageMsg m.peer m.stream 4 m.layer m.block (leBytes 16 (pteNat p) ++ leBytes 4 bs.length ++ bs) (d.tenantOf m.stream)
  else if !m.back && (p.state = 3 || p.state = 4) then d
  else d.endMove m

/-- The page becomes REMOTE: its frame is freed, a transfer record names the cache device (10 R242, R243). -/
def Dev.makeRemote (d : Dev) (m : Moving) : Dev :=
  let p := d.pte m.stream m.layer m.block
  match lowestIndex d.fab.transfers 65536 with
  | none => d.endMove m
  | some k =>
    let d1 := { d with fab := { d.fab with transfers := AMap.insert k (m.peer, m.stream, m.layer, m.block) d.fab.transfers } }
    ((d1.releasePage p).setPte { p with state := 6, cached := false, frame := k, size := 0 }).endMove m

/-- The cache device tells whether it has taken a page (15 R362). A page dropped since then is sent anew when its block stands again (10 R256). -/
def Dev.pageTaken (d : Dev) (src stream layer block : Nat) (ok : Bool) : Dev :=
  match d.fab.moving.find? fun m => m.stream == stream && m.layer == layer && m.block == block && m.peer == src && !m.back && m.phase == 1 with
  | none => d
  | some m =>
    if !ok then d.endMove m
    else if (d.pte stream layer block).state ≠ 2 then
      ((d.pinPage m false).setMoving m { m with phase := 0 }).sendPageMsg src stream 9 layer block [] (d.tenantOf stream)
    else if d.inFlight stream then d.setMoving m { m with phase := 2 }
    else d.makeRemote m

/-- A REMOTE page is brought back: FULL in a frame of its own, its version, epoch and format as they were (10 R243); without a free frame it is asked for again at the next boundary. -/
def Dev.pageBack (d : Dev) (src stream layer block : Nat) (bs : List Byte) : Dev :=
  match d.fab.moving.find? fun m => m.stream == stream && m.layer == layer && m.block == block && m.peer == src && m.back && m.phase == 1 with
  | none => d
  | some m =>
    let p := d.pte stream layer block
    let g := ceilDiv bs.length 65536
    if p.state ≠ 6 then (d.endMove m).sendPageMsg src stream 9 layer block [] (d.tenantOf stream)
    else match d.findFrame g with
    | none => (d.pinPage m false).setMoving m { m with phase := 0 }
    | some f =>
      let d1 := { d with fab := { d.fab with transfers := AMap.erase p.frame d.fab.transfers } }
      let d2 := (d1.takeFrame g stream f).setPte { p with state := 2, frame := f, size := g }
      let d3 := { d2 with mem := { d2.mem with dram := memWrite d2.mem.dram (f * 65536) bs } }
      (d3.endMove m).sendPageMsg src stream 9 layer block [] (d.tenantOf stream)

/-- The cache device does not hold a page any more: its block counts as DROPPED (15 R369). -/
def Dev.pageGone (d : Dev) (src stream layer block : Nat) : Dev :=
  let p := d.pte stream layer block
  if p.state ≠ 6 || (AMap.find d.fab.transfers p.frame).map (·.1) ≠ some src then d
  else
    let d1 := { d with fab := { d.fab with transfers := AMap.erase p.frame d.fab.transfers } }.setPte { p with state := 3, frame := 0 }
    match d1.fab.moving.find? fun m => m.stream == stream && m.layer == layer && m.block == block with
    | some m => d1.endMove m
    | none => d1

/-- A page that this cache device holds. -/
def Dev.heldPage (d : Dev) (key : Nat × Nat × Nat × Nat) : Option (Nat × Nat × Nat) := (d.fab.remote.find? fun e => e.1 == key).map (·.2)

/-- A cache device gives up a page that it holds. -/
def Dev.forgetPage (d : Dev) (key : Nat × Nat × Nat × Nat) : Dev :=
  match d.heldPage key with
  | some (_, f, n) => { d.freeFrame (ceilDiv n 65536) f with fab := { d.fab with remote := d.fab.remote.filter fun e => e.1 != key } }
  | none => d

/-- A page comes to this device, which takes it into its KV pool where its role is cache (15 R362). -/
def Dev.takePage (d : Dev) (src stream layer block : Nat) (entry : Nat) (bs : List Byte) (tenant : Option Nat) : Dev :=
  let key := (src, stream, layer, block)
  let d0 := d.forgetPage key
  match (if d.rd Reg.fabRole = 2 then d0.findFrame (ceilDiv bs.length 65536) else none) with
  | none => d0.sendPageMsg src stream 5 layer block (leBytes 1 0) tenant
  | some f =>
    let d1 := d0.takeFrame (ceilDiv bs.length 65536) remoteOwner f
    let d2 := { d1 with fab := { d1.fab with remote := d1.fab.remote ++ [(key, (entry, f, bs.length))] },
                        mem := { d1.mem with dram := memWrite d1.mem.dram (f * 65536) bs } }
    d2.sendPageMsg src stream 5 layer block (leBytes 1 1) tenant

/-- The owner asks for a page (10 R243). -/
def Dev.givePage (d : Dev) (src stream layer block : Nat) (tenant : Option Nat) : Dev :=
  match d.heldPage (src, stream, layer, block) with
  | some (_, f, n) => d.sendPageMsg src stream 7 layer block (leBytes 4 n ++ d.dramBytes (f * 65536) n) tenant
  | none => d.sendPageMsg src stream 8 layer block [] tenant

/-- A class-3 message about a page. -/
def Dev.pageMessage (d : Dev) (b : List Byte) (tenant : Option Nat) : Dev :=
  let src := numAt b 0 2
  let i := numAt b 2 2
  let layer := numAt b 5 2
  let block := numAt b 7 4
  match numAt b 4 1 with
  | 4 => d.takePage src i layer block (numAt b 11 16) (cut b 31 (numAt b 27 4)) tenant
  | 5 => d.pageTaken src i layer block (numAt b 11 1 == 1)
  | 6 => d.givePage src i layer block tenant
  | 7 => d.pageBack src i layer block (cut b 15 (numAt b 11 4))
  | 8 => d.pageGone src i layer block
  | 9 => d.forgetPage (src, i, layer, block)
  | _ => d

/-- What moves to or from a device ends, the commands that name it with a reply (12 R313, 15 R357). -/
def Dev.movesLost (d : Dev) (peer : Nat) (p : Reply) : Dev :=
  let js := (d.jobs 0x52).filter fun j => arg j.req 12 2 == peer
  let d1 := js.foldl (fun d j => d.finishJob j p) d
  (d1.fab.moving.filter fun (m : Moving) => m.peer == peer).foldl (fun d m => d.endMove m) d1

/-- REMOTE pages of a stream that is to run, or for whose pages a command waits, are brought back, with KV page management in hardware mode (10 R259, 12 R316). -/
def Dev.callBack (d : Dev) : Dev :=
  if d.hostMode 6 then d
  else
    let due := d.serve.ptes.filter fun (p : Pte) => p.state == 6 && p.owner < 65536 &&
      (match d.stream? p.owner with
        | some s => s.state == .prefill || s.state == .generating || d.pagesWanted p.owner
        | none => false) && !(d.fab.moving.any fun m => m.stream == p.owner && m.layer == p.layer && m.block == p.block)
    let ms := due.filterMap fun (p : Pte) => (AMap.find d.fab.transfers p.frame).bind fun t =>
      if d.peerGone t.1 then none
      else some ({ stream := p.owner, layer := p.layer, block := p.block, peer := t.1, back := true, phase := 0 } : Moving)
    { d with fab := { d.fab with moving := d.fab.moving ++ ms } }

/-- Transfer records whose page is REMOTE no more are freed, and the cache device gives the page up (10 R243). -/
def Dev.sweepTransfers (d : Dev) : Dev :=
  (d.fab.transfers.filter fun t => !(d.serve.ptes.any fun p => p.owner == t.2.2.1 && p.state == 6 && p.frame == t.1)).foldl
    (fun (d : Dev) t => ({ d with fab := { d.fab with transfers := AMap.erase t.1 d.fab.transfers } }).sendPageMsg t.2.1 t.2.2.1 9
      t.2.2.2.1 t.2.2.2.2 [] (d.tenantOf t.2.2.1)) d

/-- The pages in motion at a beat boundary (10 R243, R256, R260). -/
def Dev.pageBoundary (d : Dev) : Dev :=
  let d1 := d.sweepTransfers
  let d2 := (d1.fab.moving.filter fun (m : Moving) => m.phase == 2 && !d1.inFlight m.stream).foldl (fun (d : Dev) m =>
    if (d.pte m.stream m.layer m.block).state = 2 then d.makeRemote m else (d.pinPage m false).setMoving m { m with phase := 0 }) d1
  let d3 := d2.callBack
  d3.fab.moving.foldl (fun d m => d.stepMove m) d3

/-- The row of PAGE_MIGRATE (12 R313). -/
def rowPageMigrate : Row := { op := 0x52, classes := 6, params := [(8, 2), (10, 1), (12, 2), (16, 4), (20, 4)] }

/-- The device that a PAGE_MIGRATE names takes pages: a MEMBER of the cache role (15 R362). -/
def Dev.isCache (d : Dev) (peer : Nat) : Bool := match AMap.find d.fab.table peer with
  | some m => m.state == 2 && m.role == 2
  | none => false

/-- The pages that a PAGE_MIGRATE moves: of its blocks, those that are FULL or will be, or those REMOTE on the peer (10 R243, R260). -/
def Dev.movesOf (d : Dev) (r : Rhoic) : List Moving :=
  let i := arg r 8 2
  let back := arg r 10 1 == 1
  let peer := arg r 12 2
  (d.serve.ptes.filter fun (p : Pte) => p.owner == i && arg r 16 4 ≤ p.block && p.block < arg r 16 4 + arg r 20 4 &&
      (if back then p.state == 6 && (AMap.find d.fab.transfers p.frame).map (·.1) == some peer
       else p.state == 2 || p.state == 3 || p.state == 4)).map fun (p : Pte) =>
    { stream := i, layer := p.layer, block := p.block, peer := peer, back := back, phase := 0 }

/-- Moves a stream's blocks to a cache device or back (12 R313). -/
def startPageMigrate (r : Rhoic) (d : Dev) : Start :=
  let i := arg r 8 2
  let peer := arg r 12 2
  if d.classOf r.qp = 2 ∧ !d.hostMode 6 then .done (bad St.modeDevice 6) d
  else match d.stream? i with
  | none => .done (bad St.streamUnknown) d
  | some s =>
    if s.state = .ended then .done (bad St.notActive 4) d
    else match rangeFault [(10, arg r 10 1 ≤ 1), (12, peer < 1024 && d.isCache peer), (16, arg r 16 4 < s.ptBlocks),
        (20, arg r 16 4 + arg r 20 4 ≤ s.ptBlocks)] with
    | some o => .done (bad St.paramRange o) d
    | none =>
      if d.peerGone peer then .done (bad St.peerUnreachable peer) d
      else
        let ms := d.movesOf r
        if (d.fab.moving.any fun m => m.stream == i) || ms.any (fun m => 255 ≤ (d.pte m.stream m.layer m.block).pins) then .wait d
        else if ms.isEmpty then .done {} d
        else
          let d1 := { d with fab := { d.fab with moving := d.fab.moving ++ ms } }
          .run { op := 0x52, req := r } (ms.foldl (fun d m => d.stepMove m) d1)

/-- PAGE_MIGRATE (10 R243). -/
def execPageMigrate (r : Rhoic) (s : State) : Host.Outcome State Fault Refusal :=
  s.next (s.dev.rhoic rowPageMigrate [.stream (arg r 8 2)] r (startPageMigrate r))

end Sys2Proof.Machine
end

