-- ==== Sys2Proof/Machine/Weights.lean ====
section
/-! DEFINITION. Weight distribution and swap (16 R374-R386): staging, forwarding, the copy into the tiles, the steps of a swap at beat boundaries, the copy-back. -/
namespace Sys2Proof.Machine

/-- The signature of a package is its last 4,627 bytes (16 R374). -/
def sigBytes : Nat := 4627

/-- Owner of staging frames among the KV granules (16 R377). -/
def stagingOwner : Nat := 200000

/-- The extent entries of a package's bytes with the offset of each one's data (16 R374). -/
def pkgExtents (m : Mem) : List (Nat × Nat × Nat × Nat) :=
  let n := memNat m 32 4
  ((List.range n).foldl (fun (acc : List (Nat × Nat × Nat × Nat) × Nat) i =>
    let o := 128 + 16 * i
    let len := memNat m (o + 8) 4
    (acc.1 ++ [(memNat m o 2, memNat m (o + 4) 4, len, acc.2)], acc.2 + roundUp len 64)) ([], 128 + 16 * n)).1

/-- Bytes of header and extent table. -/
def pkgHeadBytes (m : Mem) : Nat := 128 + 16 * memNat m 32 4

/-- A package from its bytes (16 R374). -/
def pkgOf (m : Mem) : Pkg :=
  { kind := memNat m 6 1 % 4, version := memNat m 24 4, extents := pkgExtents m, data := m, bytes := memNat m 8 8 }

/-- `magic`, `format_version` or a reserved field is wrong (16 R376). -/
def pkgFormBad (m : Mem) : Bool :=
  let k := memNat m 6 1 % 4
  let n := memNat m 32 4
  memNat m 0 4 != 0x4B505257 || memNat m 4 2 != 1 || 1 < k || memNat m 6 2 / 4 != 0 || memNat m 36 4 != 0 ||
    memNat m 104 24 != 0 || n == 0 || (if k = 0 then 34560 else 65535) < n ||
    (List.range n).any fun i => memNat m (128 + 16 * i + 2) 2 != 0 || memNat m (128 + 16 * i + 12) 4 != 0

/-- The image that a package is for: the active one; in a JOIN of a device without one, the loaded one (15 R365 step 5, 16 R374). -/
def Dev.pkgImage (d : Dev) : Image := d.img.active.getD (d.img.loaded.getD {})

/-- The weight version of that image. -/
def Dev.pkgBase (d : Dev) : Nat := if d.img.active.isSome then d.rd Reg.activeVersion else d.pkgImage.weightVersion

/-- The layout hash of an image's directory, or the versions, do not match (16 R376). -/
def Dev.pkgMatchBad (d : Dev) (m : Mem) (want : Nat) : Bool :=
  let v := memNat m 24 4
  memNat m 16 8 != d.pkgImage.modelId || memRead m 40 32 != d.pkgImage.layoutHash || v == d.pkgBase || v != want ||
    (if memNat m 6 1 % 4 = 1 then memNat m 28 4 != d.pkgBase else memNat m 28 4 != 0)

/-- The weight tiles in the order of their weights (16 R375). -/
def Image.byWeights (im : Image) : List TileRec := sortBy (fun (a b : TileRec) => decide (a.wOffset < b.wOffset)) im.weightTiles

/-- An extent lies within its tile's weight bytes, in whole 4 KiB pieces (16 R374, R376). -/
def Image.extentOk (im : Image) (e : Nat × Nat × Nat × Nat) : Bool :=
  match im.weightTiles.find? fun r => r.tile == e.1 with
  | some r => e.2.1 % 4096 == 0 && e.2.1 + e.2.2.1 ≤ r.wBytes && (e.2.2.1 % 4096 == 0 || e.2.1 + e.2.2.1 == r.wBytes)
  | none => false

/-- Two extents of one tile overlap. -/
def extentsClash : List (Nat × Nat × Nat × Nat) → Bool
  | [] => false
  | e :: es => (es.any fun f => f.1 == e.1 && overlaps e.2.1 e.2.2.1 f.2.1 f.2.2.1) || extentsClash es

/-- The extents break R375 or lie wrong (16 R375, R376). -/
def Image.extentsBad (im : Image) (p : Pkg) : Bool :=
  let es := p.extents
  let inFull (t : Nat) : Bool := es.any fun e => e.1 == t && e.2.1 == 0 && (match im.rec? t with
    | some r => e.2.2.1 == r.wBytes
    | none => false)
  let total := 128 + 16 * es.length + (es.map fun e => roundUp e.2.2.1 64).foldl (· + ·) 0 + sigBytes
  !(es.all im.extentOk) || extentsClash es || p.bytes != total ||
    (if p.kind = 0 then (es.map fun e => (e.1, e.2.1, e.2.2.1)) != im.byWeights.map fun r => (r.tile, 0, r.wBytes)
     else im.stripes.any fun s => (s.members.any fun m => es.any fun e => e.1 == m.1 && e.2.2.1 != 0) &&
       !(s.girdle.all fun g => inFull g.1))

/-- Data bytes that are not a T5 code (02 R47, 16 R376), among the bytes below `hi`. -/
def pkgCodeBad (m : Mem) (hi : Nat) : Bool :=
  m.any fun e => pkgHeadBytes m ≤ e.1 && e.1 < hi && 243 ≤ e.2.toNat

/-- The signature covers every byte before it (16 R374). -/
def pkgSigned (m : Mem) : Bool :=
  let n := memNat m 8 8
  Config.mldsaVerify (memRead m 72 32) (memRead m 0 (n - sigBytes)) (memRead m (n - sigBytes) sigBytes)

/-- The first check of header and extent table that fails, as a reason of 08 R207 (16 R376). -/
def Dev.pkgHeadRefusal (d : Dev) (keys : List (List Byte)) (m : Mem) (want : Nat) : Option Nat :=
  if pkgFormBad m then some 0x01
  else if d.pkgMatchBad m want || d.pkgImage.extentsBad (pkgOf m) then some 0x06
  else if !keys.contains (memRead m 72 32) then some 0x03
  else none

/-- Granules of a staging buffer (16 R377). -/
def stagingGranules (bytes : Nat) : Nat := ceilDiv bytes 65536

/-- Takes granules for staging, top down (16 R377). -/
def Dev.takeStaging (d : Dev) : Nat → Option Dev
  | 0 => some d
  | n + 1 => match d.findFrame 1 with
    | some f => (d.takeFrame 1 stagingOwner f).takeStaging n
    | none => none

/-- Drops units of tenants of priority 0 until the buffer can be taken (16 R377, 10 R258). -/
def Dev.stagingRoom (d : Dev) (n : Nat) : List (Nat × Nat) → Nat → Option (Dev × Nat)
  | [], k => (d.takeStaging n).map fun d1 => (d1, k)
  | u :: us, k => match d.takeStaging n with
    | some d1 => some (d1, k)
    | none => (d.dropUnit u.1 u.2).stagingRoom n us (k + 1)

/-- Allocates the staging buffer; KV_DROPPED where units were dropped for it (16 R377, 10 R258). None where the pool cannot: nothing is dropped then. -/
def Dev.allocStaging (d : Dev) (bytes : Nat) : Option Dev :=
  let units := if d.hostMode 6 then [] else d.dropOrder 0 []
  (d.stagingRoom (stagingGranules bytes) units 0).map fun e =>
    if e.2 = 0 then e.1 else e.1.raise { code := Rc.kvDropped, detail := e.2, source := 78 }

/-- Returns the staging frames to the KV pool (16 R382). -/
def Dev.freeStaging (d : Dev) : Dev :=
  { d with mem := { d.mem with frames := d.mem.frames.filter fun e => e.2 != stagingOwner } }

/-- Nothing is staged or arrives: the buffer is freed, the registers of the package read 0 (16 R376, R385). -/
def Dev.clearStage (d : Dev) : Dev :=
  let d1 := d.freeStaging
  let d2 := { d1 with wts := { d1.wts with staged := none, arriving := none, arrived := [], arrivedLen := 0 } }
  (((d2.wr Reg.stagedVersion 0).wr Reg.stageState 0).wr Reg.pkgKind 0).wr Reg.stageBytes 0

/-- A JOIN fails (15 R365): the device is as it was, with the system identifier and the index it had; a coordinator that has listed it is told. -/
def Dev.joinFails (d : Dev) (p : Reply) : Dev :=
  (d.jobs 0x60).foldl (fun (d : Dev) j =>
    let tell := if d.rd Reg.memberState = 1 then match (d.fab.table.filter fun e => e.2.state == 2).head? with
        | some c => d.emit (.ctl c.1 (.leaveRequest (d.rd Reg.fabDevice)))
        | none => d
      else d
    let d1 := { tell with fab := { tell.fab with joining := none, table := [], proposal := none, commitPending := none } }
    ((((d1.wr Reg.systemId j.arg).wr Reg.fabDevice j.arg2).wr Reg.memberState 0).wr Reg.coordinator 0).finishJob j p) d

/-- A staging ends without a package: the command completes, a JOIN that needs it fails, `ERR_STAGE` is set (15 R365, 16 R376, R385). -/
def Dev.stageFails (d : Dev) (p : Reply) : Dev :=
  let d1 := d.clearStage.setW1c Reg.errStage 76
  let d2 := (d1.jobs 0x13).foldl (fun d j => d.finishJob j p) d1
  if d2.fab.joining.isSome then d2.joinFails p else d2

/-- The staged package is being read by a swap or a FORWARD_WEIGHTS (16 R378). -/
def Dev.stageBusy (d : Dev) : Bool :=
  d.rd Reg.swapState != 0 || (match d.wts.forward with
    | some f => f.version == d.rd Reg.stagedVersion
    | none => false)

/-- A class-4 message about a package: sender, version, offset, bytes; with no bytes it reports what the sender holds (16 R380; the layout is a DESIGN CHOICE, log entry 9). -/
def Dev.sendChunk (d : Dev) (peer version off : Nat) (bs : List Byte) : Dev :=
  d.sendMsg 4 peer (leBytes 2 (d.rd Reg.fabDevice) ++ leBytes 4 version ++ leBytes 8 off ++ bs)

/-- The row of STAGE_WEIGHTS (12 R313). -/
def rowStageWeights : Row := { op := 0x13, classes := 5, params := [(8, 4), (12, 1), (14, 2), (16, 8), (24, 8)] }

/-- Refuses a package that is in DRAM, at its start (16 R376). -/
def refusePkg (d : Dev) (reason : Nat) : Start :=
  .done { st := St.imageRefused, detail := reason } (d.clearStage.setW1c Reg.errStage 76)

/-- Copies a package from DRAM into the staging buffer, its checks in the order of R376 (16 R377, R378). -/
def stageFromDram (keys : List (List Byte)) (r : Rhoic) (d : Dev) : Start :=
  let v := arg r 8 4
  let a := arg r 16 8
  let n := arg r 24 8
  if d.dramTop < a + n then .done (bad St.unmappedAddress) (d.unmappedBy r.qp false (max a d.dramTop))
  else if (firstIn d.protectedAt a n).isSome || d.mem.allocs.any (fun x => x.kind == 3 && overlaps a n x.base x.size) then
    .done (bad St.notPermitted 2) d
  else match d.badLine a n with
  | some l => .done { st := St.uncorrectable, result := l } d
  | none =>
    let m := memOf (d.dramBytes a n)
    if n < 128 || n < pkgHeadBytes m then refusePkg d 0x01
    else match d.pkgHeadRefusal keys m v with
    | some c => refusePkg d c
    | none =>
      if memNat m 8 8 ≠ n then refusePkg d 0x06
      else if pkgCodeBad m (n - sigBytes) then refusePkg d 0x09
      else if !pkgSigned m then refusePkg d 0x04
      else match d.allocStaging n with
      | none => refusePkg d 0x1C
      | some d1 =>
        let d2 := { d1 with wts := { d1.wts with arriving := some (0xFFFF, n), arrived := m, arrivedLen := n } }
        .run { op := 0x13, req := r } ((((d2.wr Reg.stagedVersion v).wr Reg.stageState 3).wr Reg.stageBytes n).wr Reg.pkgKind
          (pkgOf m).kind)

/-- Starts a staging (16 R377, R378). -/
def startStageWeights (keys : List (List Byte)) (r : Rhoic) (d : Dev) : Start :=
  let v := arg r 8 4
  let src := arg r 12 1
  let peer := arg r 14 2
  if d.rd Reg.imageState = 0 then .done (bad St.noImage) d
  else if d.rd Reg.imageState = 2 then .done (bad St.imageStopped) d
  else if 1 < src then .done (bad St.paramRange 12) d
  else if src = 0 ∧ d.hostMode 7 then .done (bad St.modeHost 7) d
  else if src = 0 ∧ (1024 ≤ peer ∨ peer = d.rd Reg.fabDevice) then .done (bad St.paramRange 14) d
  else if !(d.jobs 0x13).isEmpty || !(d.jobs 0x12).isEmpty then .wait d
  else if d.wts.staged.isSome && d.rd Reg.stagedVersion == v && d.rd Reg.swapState != 4 then .done {} d
  else if d.wts.staged.isSome && d.stageBusy then .done (bad St.busy 0) d
  else
    let d0 := d.clearStage
    if src = 1 then stageFromDram keys r d0
    else if d.peerGone peer then .done (bad St.peerUnreachable peer) (d0.setW1c Reg.errStage 76)
    else
      let d1 := { d0 with wts := { d0.wts with arriving := some (peer, 0) } }
      .run { op := 0x13, req := r } (((d1.wr Reg.stagedVersion v).wr Reg.stageState 1).sendChunk peer v 0 [])

/-- STAGE_WEIGHTS (16 R377, R378). -/
def execStageWeights (r : Rhoic) (s : State) : Host.Outcome State Fault Refusal :=
  s.next (s.dev.rhoic rowStageWeights [] r (startStageWeights s.sec.signers r))

/-- A package that arrives, or that the last full swap left, as the bytes that the device holds of it, their number and its length (16 R379). -/
def Dev.otherPkg (d : Dev) (v : Nat) : Option (Mem × Nat × Nat) :=
  if d.wts.arriving.isSome && d.rd Reg.stagedVersion == v then
    some (d.wts.arrived, d.wts.arrivedLen, (d.wts.arriving.map (·.2)).getD 0)
  else match d.wts.kept with
    | some p => if p.version = v ∧ d.rd Reg.activeVersion = v then some (p.data, p.bytes, p.bytes) else none
    | none => none

/-- The package of version V that a device can forward (16 R379). -/
def Dev.pkgFor (d : Dev) (v : Nat) : Option (Mem × Nat × Nat) :=
  match d.wts.staged with
  | some p => if p.version = v then some (p.data, p.bytes, p.bytes) else d.otherPkg v
  | none => d.otherPkg v

/-- The package that a running FORWARD_WEIGHTS sends (16 R379, R384). -/
def Dev.pkgSent (d : Dev) (f : Fwd) : Option (Mem × Nat × Nat) := match f.own with
  | some p => some (p.data, p.bytes, p.bytes)
  | none => d.pkgFor f.version

/-- Sends every chunk that is held and not yet sent (16 R380). -/
def Dev.pumpForward (d : Dev) : Nat → Dev
  | 0 => d
  | fuel + 1 =>
    match d.wts.forward with
    | none => d
    | some f =>
      match d.pkgSent f with
      | none => d
      | some (m, held, total) =>
        let hi := min (f.sent + f.chunk) total
        if !f.started || total = 0 || total ≤ f.sent || held < hi then d
        else
          let d1 := d.sendChunk f.peer f.version f.sent (memRead m f.sent (hi - f.sent))
          { d1 with wts := { d1.wts with forward := some { f with sent := hi } } }.pumpForward fuel

/-- The most chunks that a package can have (16 R374, R380). -/
def maxChunks : Nat := 70000

/-- The row of FORWARD_WEIGHTS (12 R313). -/
def rowForwardWeights : Row := { op := 0x63, classes := 6, params := [(8, 4), (12, 2), (16, 4)] }

/-- Starts a forwarding (16 R379, R380). -/
def startForwardWeights (r : Rhoic) (d : Dev) : Start :=
  let v := arg r 8 4
  let peer := arg r 12 2
  let chunk := arg r 16 4
  if d.hostMode 7 then .done (bad St.modeHost 7) d
  else if 1024 ≤ peer ∨ peer = d.rd Reg.fabDevice then .done (bad St.paramRange 12) d
  else if chunk % 2 ^ 20 ≠ 0 ∨ chunk = 0 ∨ 64 * 2 ^ 20 < chunk then .done (bad St.paramRange 16) d
  else if !(d.jobs 0x63).isEmpty then .wait d
  else if (d.pkgFor v).isNone then .done (bad St.notStaged) d
  else if d.peerGone peer then .done (bad St.peerUnreachable peer) d
  else .run { op := 0x63, req := r }
    ({ d with wts := { d.wts with forward := some { peer := peer, version := v, chunk := chunk } } }.wr Reg.fwdActive 1)

/-- FORWARD_WEIGHTS (16 R380). -/
def execForwardWeights (r : Rhoic) (s : State) : Host.Outcome State Fault Refusal :=
  s.next (s.dev.rhoic rowForwardWeights [] r (startForwardWeights r))

/-- A forwarding ends (16 R380). -/
def Dev.endForward (d : Dev) (p : Reply) : Dev :=
  let d1 := { d with wts := { d.wts with forward := none } }.wr Reg.fwdActive 0
  (d1.jobs 0x63).foldl (fun d j => d.finishJob j p) d1

/-- The next peer reports what it holds: sending starts; every chunk acknowledged ends the command (16 R380). -/
def Dev.chunkReport (d : Dev) (src version off : Nat) : Dev :=
  match d.wts.forward with
  | none => d
  | some f =>
    if f.peer ≠ src ∨ f.version ≠ version then d
    else
      let d1 := { d with wts := { d.wts with forward := some { f with started := true } } }
      match d1.pkgSent f with
      | some (_, _, total) => if total ≠ 0 ∧ total ≤ off then d1.endForward {} else d1.pumpForward maxChunks
      | none => d1

/-- What the arrival of bytes makes known about a package: a refusal, the buffer once header and extent table are there, the end of reception (16 R376, R377). -/
def Dev.checkArrived (d : Dev) (keys : List (List Byte)) (before : Nat) : Dev :=
  let m := d.wts.arrived
  let n := d.wts.arrivedLen
  let head := if n < 128 then 128 else pkgHeadBytes m
  if n < head then d
  else
    let refusal := if before < head then d.pkgHeadRefusal keys m (d.rd Reg.stagedVersion) else none
    match refusal with
    | some c => d.stageFails { st := St.imageRefused, detail := c }
    | none =>
      let total := memNat m 8 8
      if pkgCodeBad m (min n (total - sigBytes)) then d.stageFails { st := St.imageRefused, detail := 0x09 }
      else
        let room := if before < head then d.allocStaging total else some d
        match room with
        | none => d.stageFails { st := St.imageRefused, detail := 0x1C }
        | some d1 =>
          let peer := (d1.wts.arriving.map (·.1)).getD 0xFFFF
          let d2 := { d1 with wts := { d1.wts with arriving := some (peer, total) } }.wr Reg.pkgKind (pkgOf m).kind
          d2.wr Reg.stageState (if total ≤ n then 3 else 2)

/-- A class-4 message of a weight chain (16 R380): one without bytes reports what the sender holds; a chunk is taken in package order by a device that has the matching STAGE_WEIGHTS, else it is discarded. -/
def effWeightChunk (keys : List (List Byte)) (src version off : Nat) (data : List Byte) (d : Dev) : Dev :=
  if data.isEmpty then d.chunkReport src version off
  else match d.wts.arriving with
  | none => d
  | some (peer, total) =>
    let n := d.wts.arrivedLen
    if peer ≠ src ∨ d.rd Reg.stagedVersion ≠ version ∨ off ≠ n ∨ 3 ≤ d.rd Reg.stageState ∨
        (total ≠ 0 ∧ total < n + data.length) then d
    else
      let d1 := { d with wts := { d.wts with arrived := memWrite d.wts.arrived n data, arrivedLen := n + data.length } }
      let d2 := (d1.wr Reg.stageBytes (n + data.length)).checkArrived keys n
      if d2.wts.arriving.isNone then d2
      else (d2.sendChunk src version (n + data.length) []).pumpForward maxChunks

/-- WEIGHT_CHUNK (16 R380). -/
def execWeightChunk (src version off : Nat) (data : List Byte) (s : State) : Host.Outcome State Fault Refusal :=
  s.next (effWeightChunk s.sec.signers src version off data s.dev)

/-- A peer that becomes unreachable ends the chain at either end (16 R380). -/
def Dev.chainLost (d : Dev) (p : Nat) : Dev :=
  let d1 := match d.wts.arriving with
    | some (peer, _) => if peer = p then d.stageFails (bad St.peerUnreachable p) else d
    | none => d
  match d1.wts.forward with
  | some f => if f.peer = p then d1.endForward (bad St.peerUnreachable p) else d1
  | none => d1

/-- The weights of an image with the extents of a package in their places (16 R382). -/
def Image.withPkg (im : Image) (p : Pkg) : Mem :=
  p.extents.foldl (fun m e =>
    match im.rec? e.1 with
    | some r =>
      let cells := (p.data.filter fun c => inRange c.1 e.2.2.2 e.2.2.1).map fun c => (r.wOffset + e.2.1 + (c.1 - e.2.2.2), c.2)
      memSplice m (r.wOffset + e.2.1) e.2.2.1 cells
    | none => m) im.weights

/-- Writes the weights of an image into a tile of it, on its own site or, for a member that a girdle tile hosts, there; nothing for a member in recovery, for the girdle tiles of a stripe with a hosted member, whose planes are discarded, and for a tile with no working site (09 R234, 16 R381 step 3). -/
def Dev.writeWeights (d : Dev) (im : Image) (r : TileRec) : Dev :=
  let put (d : Dev) (t : Nat) : Dev := d.onTile t fun x => { x with weights := im.tileWeights r }
  if (d.stripesOf r.tile).isEmpty then (if d.works r.tile && d.hostOf r.tile == r.tile then put d r.tile else d)
  else (d.stripesOf r.tile).foldl (fun (d : Dev) e =>
    let (n, i) := e
    match d.stripeRec n with
    | none => d
    | some s =>
      let st := d.stripe n
      let m := s.members.length
      if st.lost = some i ∧ !st.pageRepair then d
      else if i < m then
        match st.hosted.find? fun h => h.1 == i with
        | some h => match s.girdle[h.2]? with
          | some g => put d g.1
          | none => d
        | none => if d.works r.tile then put d r.tile else d
      else if !st.hosted.isEmpty then d
      else if d.works r.tile then put d r.tile else d) d

/-- Rebuilds of lost members start anew under new weights (09 R234). -/
def Dev.restartRebuilds (d : Dev) : Dev :=
  { d with img := { d.img with stripes := d.img.stripes.map fun e =>
      (e.1, if e.2.lost.isSome then { e.2 with nextChunk := 0, complete := false, buffer := [] } else e.2) } }

/-- Writes the weights of an image into every tile that has a working site, stages in ascending order (16 R381 step 3). -/
def Dev.writeAllWeights (d : Dev) (im : Image) : Dev :=
  (im.weightTiles.foldl (fun d r => d.writeWeights im r) d).restartRebuilds

/-- Segment 0 orders a step of the swap: 0 asks whether the version is staged, 1 barrier, 2 drain, 3 copy, 4 release, 5 the swap is off (16 R383). -/
def Dev.orderSwap (d : Dev) (step : Nat) : Dev :=
  let v := d.rd Reg.stagedVersion
  let d1 := { d with fab := { d.fab with swapReports := [] } }
  d1.otherSegments.foldl (fun d p => d.emit (.ctl p (.swapOrder step v))) d1

/-- Every other segment has reported the step (16 R383). -/
def Dev.allReported (d : Dev) : Bool := d.otherSegments.all fun p => d.fab.swapReports.contains p

/-- The row of SWAP_WEIGHTS (12 R313). -/
def rowSwapWeights : Row := { op := 0x14, classes := 5, params := [(8, 4)] }

/-- Starts a swap: the barrier falls at the next boundary (16 R381, R384). -/
def startSwapWeights (r : Rhoic) (d : Dev) : Start :=
  if d.rd Reg.segment ≠ 0 then .done (bad St.notPermitted 0) d
  else if d.rd Reg.imageState = 0 then .done (bad St.notStaged) d
  else if d.rd Reg.imageState = 2 then .done (bad St.imageStopped) d
  else if [0x11, 0x12, 0x14, 0x70].any fun op => !(d.jobs op).isEmpty then .wait d
  else if d.rd Reg.stageState ≠ 4 ∨ d.rd Reg.stagedVersion ≠ arg r 8 4 ∨ d.rd Reg.swapState ≠ 0 then .done (bad St.notStaged) d
  else .run { op := 0x14, req := r } ((d.wr Reg.swapState 1).orderSwap 0)

/-- SWAP_WEIGHTS (16 R381). -/
def execSwapWeights (r : Rhoic) (s : State) : Host.Outcome State Fault Refusal :=
  s.next (s.dev.rhoic rowSwapWeights [] r (startSwapWeights r))

/-- The swap ends without the new version (16 R384): the barrier falls. -/
def Dev.swapOff (d : Dev) (p : Reply) : Dev :=
  let d1 := (({ d with wts := { d.wts with copied := false, order := 0 } }.wr Reg.swapState 0).orderSwap 5).release 2
  (d1.jobs 0x14).foldl (fun d j => d.finishJob j p) d1

/-- The staged package is lost (14 R347, 16 R384): a swap that has started copying rewrites every tile from the weight copy of the old version. -/
def Dev.loseStaged (d : Dev) : Dev :=
  let st := d.rd Reg.swapState
  let d1 := match d.wts.forward with
    | some f => if f.version = d.rd Reg.stagedVersion then d.endForward (bad St.notStaged) else d
    | none => d
  if st = 4 then
    -- the new version stands on the tiles; the copy-back reads them instead (14 R347)
    { d1.clearStage with wts := { d1.clearStage.wts with copyBack := false } }.wr Reg.swapState 0
  else
    let d2 := if st = 3 then d1.writeAllWeights d1.image else d1
    let d3 := if d2.wts.arriving.isSome then d2.stageFails (bad St.notStaged) else d2.clearStage
    if st = 0 then d3 else d3.swapOff (bad St.notStaged)

/-- The image that the staged package makes of the active one (16 R381: epoch and programs are unchanged). -/
def Dev.swappedImage (d : Dev) : Image :=
  match d.wts.staged with
  | some p => { d.image with weights := d.image.withPkg p, weightVersion := p.version }
  | none => d.image

/-- The end of the copy into the tiles (16 R381 step 3, 09 R234); a segment other than 0 reports it (R383). -/
def effSwapCopyDone (d : Dev) : Dev :=
  if d.rd Reg.swapState ≠ 3 || d.wts.copied || !d.drained then d
  else
    let d1 := d.writeAllWeights d.swappedImage
    let d2 := { d1 with wts := { d1.wts with copied := true } }
    if d.rd Reg.segment = 0 then d2
    else d2.emit (.ctl ((d2.fab.table.find? fun e => e.2.seg == 0 && e.2.state == 2).map (·.1) |>.getD (d2.rd Reg.segPrev))
      (.swapReport (d2.rd Reg.fabDevice) 3))

/-- SWAP_COPY_DONE (16 R381). -/
def execSwapCopyDone (s : State) : Host.Outcome State Fault Refusal := s.next (effSwapCopyDone s.dev)

/-- Streams that do not accept another version end; a pending cancel is applied first (11 R293). -/
def Dev.endStrict (d : Dev) : Dev :=
  d.streamIds.foldl (fun (d : Dev) i =>
    let d1 := match d.stream? i with
      | some s => if s.strict && s.cancelPending then d.applyCancel i else d
      | none => d
    match d1.stream? i with
    | some s => if s.strict && s.state != .ended then d1.endStream i 4 else d1
    | none => d1) d

/-- Drops every page of another weight version (10 R257). -/
def Dev.dropOldVersion (d : Dev) (v : Nat) : Dev := d.dropPages fun p => p.state != 3 && p.version != v

/-- An audit pass over every stripe starts (09 R231). -/
def Dev.startAudit (d : Dev) : Dev :=
  { d with img := { d.img with stripes := (List.range d.image.stripes.length).foldl (fun m n =>
      AMap.modify {} m n fun s => { s with audited := 0, reaudit := true }) d.img.stripes } }

/-- The release of a swap (16 R381 step 4): the new version is active, old pages drop, strict streams end, waves may enter, the command completes; the copy-back starts (R382). -/
def Dev.swapRelease (d : Dev) : Dev :=
  match d.wts.staged with
  | none => d.swapOff (bad St.notStaged)
  | some p =>
    let im := d.swappedImage
    let d1 := { d with img := { d.img with active := some im, model := some (im.modelId, p.version) },
                       wts := { d.wts with copied := false, order := 0, copyBack := true,
                                           kept := if p.kind = 0 then some p else none } }
    let d2 := (((d1.wr Reg.activeVersion p.version).wr Reg.swapState 4).orderSwap 4).raise
      { code := Rc.swapReleased, detail := p.version, source := 76 }
    let d3 := ((d2.dropOldVersion p.version).endStrict.startAudit).release 2
    (d3.jobs 0x14).foldl (fun d j => d.finishJob j {}) d3

/-- The steps of a swap at a beat boundary (16 R381, R383): the barrier, the end of the drain, the release. -/
def Dev.swapBoundary (d : Dev) : Dev :=
  let st := d.rd Reg.swapState
  let head := d.rd Reg.segment == 0
  let d1 := if st = 1 ∧ (!head || d.allReported) then
      let d2 := ((d.hold 2).wr Reg.swapState 2).raise { code := Rc.swapBarrier, detail := d.rd Reg.stagedVersion, source := 76 }
      if head then d2.orderSwap 1 else d2
    else d
  if d1.rd Reg.swapState = 2 ∧ d1.drained ∧ (head || d1.wts.order == 3) then
    let d2 := d1.wr Reg.swapState 3
    if head then d2.orderSwap 3 else d2
  else if d1.rd Reg.swapState = 3 ∧ d1.wts.copied ∧ (if head then d1.allReported else d1.wts.order == 4) then d1.swapRelease
  else d1

/-- The end of the copy-back: the weight copy holds the new version, the staging frames return to the pool (16 R382). -/
def effWeightCopyDone (d : Dev) : Dev :=
  if !d.wts.copyBack then d
  else
    let v := d.rd Reg.activeVersion
    let d1 := match d.image.regions.find? fun r => r.kind == 0 with
      | some r => d.fillRegion r d.image.weights d.image.weightsLen
      | none => d
    let own (f : Fwd) : Fwd := if f.version = v ∧ f.own.isNone then { f with own := d.wts.staged } else f
    let d2 := { d1.clearStage with wts := { d1.clearStage.wts with copyBack := false, forward := d.wts.forward.map own } }
    (d2.wr Reg.swapState 0).raise { code := Rc.weightCopyDone, detail := v, source := 76 }

/-- WEIGHT_COPY_DONE (16 R382). -/
def execWeightCopyDone (s : State) : Host.Outcome State Fault Refusal := s.next (effWeightCopyDone s.dev)

/-- In a JOIN the system's version is staged: an active image is swapped to it, a loaded one is activated with it (15 R365 step 5). -/
def Dev.joinStaged (d : Dev) : Dev :=
  match d.fab.joining, d.wts.staged with
  | some v, some p =>
    if p.version ≠ v then d
    else if d.img.active.isSome then (if d.rd Reg.swapState = 0 then d.wr Reg.swapState 1 else d)
    else match d.img.loaded with
    | some im =>
      let im1 := { im with weights := im.withPkg p, weightVersion := v }
      let d1 := { d with img := { d.img with loaded := some im1, activating := true } }.clearStage.hold 0
      match im1.regions.find? fun r => r.kind == 0 with
      | some r => d1.fillRegion r im1.weights im1.weightsLen
      | none => d1
    | none => d
  | _, _ => d

/-- The end of a staging: the signature is checked after the last byte, the package is staged, the command completes (16 R376, R378). -/
def effWeightsStaged (d : Dev) : Dev :=
  if d.rd Reg.stageState ≠ 3 then d
  else if !pkgSigned d.wts.arrived then d.stageFails { st := St.imageRefused, detail := 0x04 }
  else
    let p := pkgOf d.wts.arrived
    let d1 := { d with wts := { d.wts with staged := some p, arriving := none, arrived := [], arrivedLen := 0 } }
    let d2 := (d1.wr Reg.stageState 4).raise { code := Rc.weightsStaged, detail := p.version, source := 76 }
    ((d2.jobs 0x13).foldl (fun d j => d.finishJob j {}) d2).joinStaged

/-- WEIGHTS_STAGED (16 R378). -/
def execWeightsStaged (s : State) : Host.Outcome State Fault Refusal := s.next (effWeightsStaged s.dev)

end Sys2Proof.Machine
end

