-- ==== Sys2Proof/Machine/Members.lean ====
section
/-! DEFINITION. Membership epochs (15 R360-R363, R367, R369): a proposal and its acknowledgements, the epoch that a device applies, and what a change of state or role does. -/
namespace Sys2Proof.Machine

/-- This device's index. -/
def Dev.me (d : Dev) : Nat := d.rd Reg.fabDevice

/-- Members of a table (15 R360). -/
def membersOf (t : List Member) : List Nat := (t.filter fun m => m.state == 2).map (·.dev)

/-- The coordinator of a table: the MEMBER with the lowest index (15 R360). -/
def coordOf (t : List Member) : Option Nat := match membersOf t with
  | [] => none
  | x :: xs => some (xs.foldl min x)

/-- The table in force. -/
def Dev.members (d : Dev) : List Member := d.fab.table.map (·.2)

/-- The coordinator of the epoch in force. -/
def Dev.coord (d : Dev) : Option Nat := coordOf d.members

/-- Puts an entry into a table. -/
def putMember (m : Member) (t : List Member) : List Member :=
  (t.filter fun (x : Member) => x.dev < m.dev) ++ [m] ++ t.filter fun (x : Member) => m.dev < x.dev

/-- The table on which the next change builds: the one committed or proposed last, else the one in force. -/
def Dev.latestTable (d : Dev) : List Member :=
  match d.fab.proposal, d.fab.commitPending with
  | some (_, t), _ => t
  | none, some (_, t) => t
  | none, none => d.members

/-- The number of the next epoch. -/
def Dev.nextEpoch (d : Dev) : Nat :=
  match d.fab.commitPending with
  | some (e, _) => e + 1
  | none => d.rd Reg.fabEpoch + 1

/-- The devices that hold a proposal: every MEMBER and LEAVING device of the epoch in force (15 R361). -/
def Dev.voters (d : Dev) : List Nat := (d.members.filter fun m => m.state == 2 || m.state == 3).map (·.dev)

/-- The coordinator reaches more than half of the MEMBER devices of the current epoch, itself among them (15 R361). -/
def Dev.majority (d : Dev) : Bool :=
  let ms := membersOf d.members
  ms.length < 2 * (ms.filter fun i => i == d.me || !d.peerGone i).length

/-- The commit of the proposal once every voter that is reached has acknowledged it (15 R361). -/
def Dev.tryCommit (d : Dev) : Dev :=
  match d.fab.proposal with
  | none => d
  | some (e, t) =>
    if d.voters.all fun i => i == d.me || d.fab.acks.contains i || d.peerGone i then
      let others := ((t.filter fun (m : Member) => m.state != 0).map (·.dev) ++ d.voters).eraseDups.filter (· != d.me)
      let d1 := others.foldl (fun (d : Dev) i => d.emit (.ctl i (.commit e))) d
      { d1 with fab := { d1.fab with commitPending := some (e, t), proposal := none, acks := [] } }
    else d

/-- The coordinator proposes a table: it goes to every MEMBER and LEAVING device and to every device that the table names (15 R361). Nothing without the majority. -/
def Dev.propose (d : Dev) (t : List Member) : Dev :=
  if !d.majority then d
  else
    let e := d.nextEpoch
    let others := (d.voters ++ (t.filter fun m => m.state == 1).map (·.dev)).eraseDups.filter (· != d.me)
    let d1 := others.foldl (fun (d : Dev) i => d.emit (.ctl i (.proposal e t))) d
    { d1 with fab := { d1.fab with proposal := some (e, t), acks := [] } }.tryCommit

/-- The coordinator changes one entry. -/
def Dev.proposeEntry (d : Dev) (m : Member) : Dev := d.propose (putMember m d.latestTable)

/-- The entry of an index; ABSENT where the table has none (15 R360). -/
def entryOf (t : List Member) (i : Nat) : Member := (t.find? fun m => m.dev == i).getD { dev := i, state := 0 }

/-- The image hash of an entry, and the weight version of this device's image (15 R360). -/
def Dev.selfEntry (d : Dev) (state : Nat) : Member :=
  { dev := d.me, state := state, role := d.rd Reg.fabRole, seg := d.rd Reg.segment, imageHash := leNat d.image.hash,
    version := d.rd Reg.activeVersion }

/-- Issue holds of the fabric: 10 the cache role, which runs no waves (15 R362); 11 a device that is LOST or outside the majority (R369). -/
def Dev.setHold (d : Dev) (why : Nat) (on : Bool) : Dev := if on then d.hold why else d.release why

/-- The weight version of the image with which a device joins (15 R365 step 5). -/
def Dev.joinVersion (d : Dev) : Nat := d.pkgBase

/-- Changes the JOIN that runs. -/
def Dev.joinPhase (d : Dev) (n : Nat) : Dev := (d.jobs 0x60).foldl (fun d j => d.setJob j { j with phase := n }) d

/-- The joining device is ready to be a MEMBER: the coordinator learns its entry (15 R365 step 6). -/
def Dev.joinReady (d : Dev) (coord : Nat) : Dev :=
  ({ d with fab := { d.fab with joining := none } }.joinPhase 3).emit
    (.ctl coord (.joinReady { d.selfEntry 2 with version := d.joinVersion, imageHash := leNat d.pkgImage.hash }))

/-- The device is listed as JOINING (15 R365 step 5): where the system runs another weight version, that version is staged from the lowest member that holds it; PEER_UNREACHABLE where none is reached. -/
def Dev.joinListed (d : Dev) : Dev :=
  match d.coord with
  | none => d
  | some c =>
    let v := (entryOf d.members c).version
    if (d.jobs 0x60).isEmpty then d
    else if v = d.joinVersion then d.joinReady c
    else match (d.members.find? fun m => m.state == 2 && m.version == v && !d.peerGone m.dev).map (·.dev) with
      | none => d.joinFails (bad St.peerUnreachable (((d.members.find? fun m => m.state == 2 && m.version == v).map (·.dev)).getD c))
      | some p =>
        let d1 := { d.clearStage with fab := { d.clearStage.fab with joining := some v } }.joinPhase 2
        let d2 := { d1 with wts := { d1.wts with arriving := some (p, 0) } }
        (((d2.wr Reg.stagedVersion v).wr Reg.stageState 1).sendChunk p v 0 [])

/-- A JOIN goes on once the device runs the system's version (15 R365 steps 5 and 6). -/
def Dev.joinCheck (d : Dev) : Dev :=
  match d.fab.joining, d.coord with
  | some v, some c => if d.imgActive && d.rd Reg.activeVersion == v && d.rd Reg.swapState == 0 then d.joinReady c else d
  | _, _ => d

/-- This device takes a role (15 R362): a cache device runs no wave and gives its streams away. -/
def Dev.takeRole (d : Dev) (role : Nat) : Dev :=
  let d1 := (d.wr Reg.fabRole role).setHold 10 (role == 2)
  if role = 2 then d1.sendAllAway else d1

/-- The device is outside the system's majority or LOST: every stream ends MIGRATED and it serves no more until it joins again (15 R369). -/
def Dev.stopServing (d : Dev) : Dev := (d.streamIds.foldl (fun (d : Dev) i => d.endStream i 6) d).hold 11

/-- REMOTE pages on a lost device count as DROPPED, and what moves to or from it ends (15 R369). -/
def Dev.dropRemote (d0 : Dev) (lost : Nat) : Dev :=
  let d := d0.movesLost lost (bad St.peerUnreachable lost)
  (d.serve.ptes.filter fun p => p.state == 6 && (AMap.find d.fab.transfers p.frame).map (·.1) == some lost).foldl
    (fun d p => d.setPte { p with state := 3, frame := 0 }) d

/-- Session keys with a device that leaves or is lost are erased (21 R462). -/
def Dev.dropKeys (d : Dev) (i : Nat) : Dev :=
  if (AMap.find d.fab.assocs i).isNone then d else d.setAssoc i { d.assoc i with tenantKeys := [] }

/-- Streams that were to migrate to a lost device resume, and another target is chosen (15 R371). -/
def Dev.rerouteFrom (d : Dev) (lost : Nat) : Dev :=
  d.streamIds.foldl (fun (d : Dev) i => match d.stream? i with
    | some s => if s.migrating = some lost then d.rechoose i s else d
    | none => d) d

/-- A device is LOST (15 R364, R369): its streams go on elsewhere, its pages are dropped; a tree node or a segment of the pipeline on it stops the image. -/
def Dev.onLost (d : Dev) (lost : Nat) : Dev :=
  let d1 := ((d.dropRemote lost).rerouteFrom lost).rerunFor lost
  let node := d1.image.trees.any fun t => t.nodes.any fun n => n.kind == 1 && n.device == lost
  let seg := d1.rd Reg.segPrev == lost || d1.rd Reg.segNext == lost || (d1.otherSegments.contains lost)
  if node || seg then d1.wantStop Rc.peerLost 0xFFFF 0xFFFF else d1

/-- The registers of the membership table (15 R372). -/
def Dev.showTable (d : Dev) (old t : List Member) : Dev :=
  ((old ++ t).map (·.dev)).eraseDups.foldl (fun (d : Dev) i =>
    let m := entryOf t i
    (d.wr (Reg.peerState i) m.state).wr (Reg.peerRole i) (if m.state = 0 then 0 else m.role)) d

/-- What the device's own entry becomes in an epoch (15 R362, R365, R367, R369). -/
def Dev.selfChange (d : Dev) (was : Nat) (m : Member) : Dev :=
  let d1 := d.wr Reg.memberState m.state
  if m.state = 2 then
    let d2 := (d1.takeRole m.role).release 11
    let d3 := (d2.jobs 0x62).foldl (fun d j => d.finishJob j { result := j.arg }) d2
    if was = 2 then d3 else (d3.jobs 0x60).foldl (fun (d : Dev) j => d.finishJob j {}) { d3 with fab := { d3.fab with joining := none } }
  else if m.state = 1 then (if was = 1 then d1 else d1.joinListed)
  else if m.state = 3 then { d1 with fab := { d1.fab with leaving := true } }.sendAllAway
  else if m.state = 4 then d1.stopServing
  else if m.state = 0 ∧ was ≠ 0 then
    let d2 := { d1 with fab := { d1.fab with leaving := false, table := [], joining := none } }
    (d2.wr Reg.systemId 0).wr Reg.coordinator 0
  else d1

/-- The device enters a system epoch (15 R361): table, registers, EPOCH_CHANGE; lost devices and its own change of state follow. -/
def Dev.enterEpoch (d : Dev) (e : Nat) (t : List Member) : Dev :=
  let old := d.members
  let live := t.filter fun m => m.state != 0
  let lost := (live.filter fun m => m.state == 4 && (entryOf old m.dev).state != 4 && m.dev != d.me).map (·.dev)
  let d1 := { d with fab := { d.fab with table := live.map (fun (m : Member) => (m.dev, m)), commitPending := none, acks := [] } }
  let d2 := ((d1.wr Reg.fabEpoch e).wr Reg.coordinator (b2n (coordOf live == some d.me))).showTable old live
  let d3 := d2.raise { code := Rc.epochChange, detail := e, source := 1 }
  let d4 := d3.selfChange (entryOf old d.me).state (entryOf live d.me)
  let gone := (d.fab.table.map (·.1)).filter fun i => (entryOf live i).state == 0 || (entryOf live i).state == 4
  let d5 := (lost.foldl (fun d i => d.onLost i) d4)
  let d6 := gone.foldl (fun d i => d.dropKeys i) d5
  if (entryOf live d.me).state = 2 then d6.renewPartners else d6

/-- A committed epoch takes effect (15 R361). -/
def Dev.applyEpoch (d : Dev) : Dev :=
  match d.fab.commitPending with
  | some (e, t) => d.enterEpoch e t
  | none => d

/-- A commit that this device has received waits for its next beat boundary; where no beat runs it applies at once (15 R361; DESIGN CHOICE, log entry 45). -/
def Dev.applyIfIdle (d : Dev) : Dev := if d.noBeats then d.applyEpoch else d

/-- LEAVE completes when no open stream remains; the device is then ABSENT at the next epoch (15 R367). -/
def Dev.leaveCheck (d : Dev) : Dev :=
  if !d.fab.leaving || (d.jobs 0x61).isEmpty || d.serve.streams.any fun e => e.2.state != .ended then d
  else
    let d1 := match d.coord with
      | some c => if c = d.me then d.proposeEntry { entryOf d.latestTable d.me with state := 0 }
                  else d.emit (.ctl c (.leaveRequest d.me))
      | none => d.proposeEntry { entryOf d.latestTable d.me with state := 0 }
    (d1.jobs 0x61).foldl (fun d j => d.finishJob j {}) d1

/-- What the fabric decides at a beat boundary: a committed epoch, a role that waited, streams that go to other devices (15 R361-R363, R367). -/
def Dev.fabricBoundary (d : Dev) : Dev :=
  let d1 := d.applyEpoch.pageBoundary
  let d2 := match d1.fab.rolePending with
    | some r =>
      let d2 := { d1 with fab := { d1.fab with rolePending := none } }.takeRole r
      (d2.jobs 0x62).foldl (fun (d : Dev) j => d.finishJob j { result := j.arg }) d2
    | none => d1
  -- streams of a device that is leaving or a cache, generations of a prefill device
  let away (s : Stream) : Bool :=
    d2.fab.leaving || d2.rd Reg.fabRole == 2 || (d2.rd Reg.fabRole == 0 && s.state == .generating)
  let d3 := if d2.rd Reg.memberState = 2 ∨ d2.rd Reg.memberState = 3 then
      d2.streamIds.foldl (fun (d : Dev) i => match d.stream? i with
        | some s => if away s then d.sendAway i else d
        | none => d) d2
    else d2
  d3.startAdopted.leaveCheck.joinCheck

end Sys2Proof.Machine
end

