-- ==== Sys2Proof/Machine/Beat.lean ====
section
/-! DEFINITION. The beat boundary (06 R143, 11 R270, R271) with all that takes effect at it: stray data (06 R168), the stop of an image (08 R208), replays (20 R434), commit points (11 R289), mode changes (12 R316), substitutions (01 R20), reserve tiles (08 R206), detours (07 R182), stripes and switch beats (09 R228-R230), swaps (16 R381), epochs (15 R361), handoffs (15 R364), frequency changes (18 R408), STEP_SYNC_OUT (11 R294); and the start of a beat (06 R139). -/
namespace Sys2Proof.Machine

/-- The beat period in array cycles: `beat_cycles` × (1 + σ), rounded up (11 R270); a switch beat lasts at least until its writes end (09 R229). -/
def Dev.period (d : Dev) : Nat :=
  let b := d.image.beatCycles
  max (b + ceilDiv (b * d.rd Reg.syncStretch) 65536) d.serve.beatExtra

/-- The cycle of the next scheduled boundary (11 R270). -/
def Dev.nextBoundary (d : Dev) : Nat := d.serve.beatStart + d.period + d.serve.beatDelay

/-- A tile's sequencer has nothing more to do in the beat; one that stalls in an abandoned stage is covered by the replay, with the stages it had still to run (06 R143, R168). -/
def Dev.tileDone (d : Dev) (x : Site) : Bool :=
  (x.seqState != 1 && x.seqState != 2) || d.serve.faulted.any fun f => f.1 == x.stage

/-- Stages that a stalled tile had still to run in the beat: their waves are abandoned with the stalled one. -/
def Dev.stalledStages (d : Dev) : List Nat :=
  (d.wafer.sites.flatMap fun e =>
    if (e.2.seqState == 1 || e.2.seqState == 2) && d.serve.faulted.any (fun f => f.1 == e.2.stage) then
      e.2.todo.map fun i => (e.2.sectionAt i).2.1
    else []).eraseDups

/-- Stages in whose sections a channel is used (06 R159); for a reduction edge the stage of its tree. -/
def Image.chanStages (im : Image) (c : Nat) : List Nat :=
  match im.chans[c]? with
  | none => []
  | some r =>
    if r.kind = 1 then ((im.trees.find? fun t => t.id == r.treeId).map im.treeStage).toList
    else im.tiles.flatMap fun x => if x.tile = r.src ∨ x.tile = r.dst then
        x.sections.filterMap fun s => if (x.sectDescs s).any fun i =>
            let n := x.descAt i
            (n % 64 == 0x10 || n % 64 == 0x11) && (chanDesc n).1 == c
          then some (x.sectStage s) else none
      else []

/-- A stage's wave was abandoned in this beat: by a fault, or with a tile that stalled in one (06 R168). -/
def Dev.gaveUp (d : Dev) (stage : Nat) : Bool := d.serve.faulted.any (fun f => f.1 == stage) || d.stalledStages.contains stage

/-- STRAY_DATA against the tile at which the data lies, and the descriptor at which its sequencer ended (06 R168, 07 R191; DESIGN CHOICE on that descriptor, log entry 112). -/
def Dev.strayOcc (d : Dev) (detail t : Nat) : Dev :=
  let x := d.tile t
  (d.raise (d.atTile { code := Rc.strayData, detail := detail, cls := 2, outcome := 3, unitKind := 1, unit := d.ptileOf t,
                       desc := x.seqIndex, sect := x.seqSection, stage := x.stage } t)).wantStop Rc.strayData t x.seqIndex

/-- Data that nothing has consumed is discarded at the boundary; STRAY_DATA unless a wave of its stage was abandoned (06 R168). Data at the rim has been consumed. -/
def Dev.strays (d : Dev) : Dev :=
  let chans := d.mesh.chans.filter fun e =>
    let rim := match d.chanRec e.1 with
      | some r => r.dst == 0xFFFF
      | none => false
    (!e.2.flight.isEmpty || !e.2.gather.isEmpty || (!rim && !e.2.held.isEmpty)) && !((d.image.chanStages e.1).any d.gaveUp)
  let trees := d.mesh.redBufs.filter fun b => !(((d.treeRec b.tree).map d.image.treeStage).any d.gaveUp)
  let d1 := chans.foldl (fun (d : Dev) e => d.strayOcc e.1 (((d.chanRec e.1).map d.chanEnd).getD 0xFFFF)) d
  trees.foldl (fun (d : Dev) b => d.strayOcc b.tree (d.hostOf b.tile)) d1

/-- Nothing of a beat stays in channels and reduction buffers (06 R168); detours stay, and samples on their way. -/
def Dev.emptyMesh (d : Dev) : Dev :=
  { d with mesh := { d.mesh with redBufs := [], packets := d.mesh.packets.filter (fun p => isSample p.id),
                                 chans := d.mesh.chans.filterMap fun e => e.2.detour.map fun hs => (e.1, { detour := some hs }) } }

/-- A PATCH that has not been carried out is off (08 R209): its new range is freed. -/
def Dev.patchOff (d : Dev) (p : Reply) : Dev :=
  match d.img.patching with
  | none => d
  | some (_, b) =>
    let d1 := { d with img := { d.img with patching := none },
                       mem := { d.mem with allocs := d.mem.allocs.filter fun a => !(a.kind == 3 && a.base == b) } }.release 5
    (d1.jobs 0x11).foldl (fun d j => d.finishJob j p) d1

/-- Every reservation of waves is given back (11 R281). -/
def Dev.giveBackAll (d : Dev) (ws : List Wave) : Dev :=
  ws.foldl (fun (d : Dev) w => (w.reserve.map (·.1)).eraseDups.foldl (fun d i => d.giveBack w i) d) d

/-- The hold that a LOUPE_RUN took on the pages of its stream is given up (10 R256). -/
def Dev.endLoupe (d : Dev) (j : Job) : Dev := (d.pinBlocks j.arg j.arg2 false).release 6

/-- Commands that wait for beats of the image complete with IMAGE_STOPPED (08 R209); mode changes and page drops, which need none, are carried out. -/
def Dev.stopJobs (d : Dev) : Dev :=
  let d0 := (d.jobs 0x70).foldl (fun (d : Dev) j => d.endLoupe j) d
  let d1 := [0x2A, 0x70].foldl (fun (d : Dev) op => (d.jobs op).foldl (fun d j => d.finishJob j (bad St.imageStopped)) d) d0
  let d2 := d1.patchOff (bad St.imageStopped)
  let st := d2.rd Reg.swapState
  let d3 := if 1 ≤ st ∧ st ≤ 3 then d2.swapOff (bad St.imageStopped) else d2
  let d4 := d3.applyModes
  (d4.jobs 0x53).foldl (fun (d : Dev) j =>
    let (p, d1) := d.decideDrop j.req
    d1.finishJob j p) d4

/-- The active image stops (08 R208, 11 R293): no wave in flight is committed, streams are HELD, cancels and closes of HELD streams apply at once, IMAGE_STOPPED names the first fault. -/
def Dev.stopImage (d : Dev) (c : Nat × Nat × Nat) : Dev :=
  let (code, tile, desc) := c
  let ws := d.serve.waves ++ d.serve.replays
  let d0 := d.giveBackAll ws
  let d1 := { d0 with serve := { d0.serve with waves := [], replays := [], between := true },
                      img := { d0.img with stop := none, switching := none } }.clearBeat.emptyMesh
  let d2 := ((d1.wr Reg.imageState 2).hold 1).mapStreams fun s => holdStream { s with drafts := [], roundK := 0 }
  let d3 := d2.streamIds.foldl (fun (d : Dev) i => match d.stream? i with
    | some s => if s.closing then d.closeNow i else if s.cancelPending then d.applyCancel i else d
    | none => d) d2
  let o : Occ := { code := Rc.imageStopped, detail := code, source := 76, desc := desc }
  d3.stopJobs.raise (if tile = 0xFFFF then o else d3.atTile o tile)

/-- The rim channels that leave a stage, with the data at the rim (07 R175, 15 R364). -/
def Dev.rimOut (d : Dev) (stage : Nat) : List (Nat × List Byte) :=
  d.mesh.chans.filterMap fun e => match d.chanRec e.1 with
    | some r => if r.kind = 2 ∧ r.dst = 0xFFFF ∧ (d.image.chanStages e.1).contains stage then
        some (e.1, e.2.held.flatMap (·.bytes)) else none
    | none => none

/-- The columns of a wave as a handoff carries them (15 R364; layout: log entry 9). -/
def colsBytes (w : Wave) : List Byte :=
  leBytes 1 w.cols.length ++ w.cols.flatMap fun c => leBytes 2 c.stream ++ leBytes 1 c.rank ++ leBytes 5 c.position ++ leBytes 4 c.token

/-- A wave that ends its segment's last stage goes to the next segment over class 1 (15 R364). -/
def Dev.handOver (d : Dev) (w : Wave) : Dev :=
  (d.rimOut w.stage).foldl (fun (d : Dev) e =>
    d.sendMsg 1 (d.rd Reg.segNext) (leBytes 1 1 ++ leBytes 2 d.me ++ leBytes 2 e.1 ++ colsBytes w ++ e.2)) d

/-- The head of the system's pipeline: the MEMBER that holds segment 0. -/
def Dev.headDev (d : Dev) : Nat := ((d.members.find? fun m => m.state == 2 && m.seg == 0).map (·.dev)).getD (d.rd Reg.segPrev)

/-- Main stages of the active image (11 R269). -/
def Dev.mainStages (d : Dev) : Nat := d.image.stageCount false

/-- A wave leaves its pipeline's last stage (11 R271, 15 R364): its commit point; on a head with further segments it waits for their tokens; on another segment it goes on, or its tokens go back to the head. -/
def Dev.finishWave (d : Dev) (w : Wave) : Dev :=
  let out (d : Dev) : Dev := { d with serve := { d.serve with waves := d.serve.waves.erase w } }
  let last := d.rd Reg.segNext == 0x3FF
  if d.rd Reg.segment = 0 then
    if last || w.draft then d.commitWave w
    else { d with serve := { d.serve with waves := d.serve.waves.map fun v => if v = w then { v with stage := d.mainStages } else v } }.handOver w
  else if last then
    (out d).emit (.ctl d.headDev (.tokensBack ((d.serve.sampled.filter fun p => p.1 < 4).map fun p => (p.1, p.2))))
  else (out d).handOver w

/-- A wave has run its pipeline's last stage. -/
def Dev.atEnd (d : Dev) (w : Wave) : Bool :=
  if w.draft then w.stage + 1 == 512 + d.image.stageCount true else w.stage + 1 == d.mainStages

/-- Waves move on by one stage; those that have run the last one finish, the main wave first (11 R271). -/
def Dev.advance' (d : Dev) : Dev :=
  let done := d.serve.waves.filter fun w => d.atEnd w
  let moved := d.serve.waves.map fun w => if d.atEnd w || (!w.draft && d.mainStages ≤ w.stage) then w else { w with stage := w.stage + 1 }
  let d1 := { d with serve := { d.serve with waves := moved } }
  ((done.filter fun w => !w.draft) ++ done.filter (·.draft)).foldl (fun d w => d.finishWave w) d1

/-- Tokens that the last segment has returned commit the waves that wait for them, oldest first (15 R364). -/
def Dev.commitReturned (d : Dev) : List (List (Nat × Nat)) → Dev
  | [] => d
  | toks :: rest =>
    match d.serve.waves.find? fun w => !w.draft && d.mainStages ≤ w.stage with
    | none => d
    | some w =>
      let d1 := { d with serve := { d.serve with sampled := toks }, fab := { d.fab with tokensBack := rest } }
      (d1.commitWave w).commitReturned rest

/-- The beats in which a tile ran a product descriptor are counted (05 R133). -/
def Dev.countProducts (d : Dev) : Dev :=
  let ran := d.wafer.sites.filterMap fun e => if e.2.ranProduct then d.logOf e.1 else none
  { d with img := { d.img with prodBeats := ran.foldl (fun m t => AMap.modify 0 m t (· + 1)) d.img.prodBeats }
           wafer := { d.wafer with sites := d.wafer.sites.map fun e => (e.1, { e.2 with cycles := 0, ranProduct := false }) } }

/-- The end of a beat: table files invalid (03 R71), stray data, the waves of faulted stages abandoned, the others moved and committed (06 R143, R168, 11 R271, R289, 20 R434). An image that is to stop commits nothing (08 R208). -/
def Dev.closeBeat (d : Dev) : Dev :=
  let d0 := d.strays.countProducts.dropsDue
  match d0.img.stop with
  | some c => d0.stopImage c
  | none =>
    let d1 := d0.replayWaves fun w => d0.gaveUp w.stage
    let d2 := (d1.advance'.emptyMesh)
    let d3 := d2.commitReturned d2.fab.tokensBack
    { d3 with serve := { d3.serve with faulted := [], sampled := [], between := true, beatExtra := 0 },
              wafer := { d3.wafer with sites := d3.wafer.sites.map fun e =>
                (e.1, { e.2 with seqState := if e.2.seqState = 3 then 3 else 0, todo := [], table := none }) } }

/-- Links of a tile's router that lead to working routers are up again: the tile has moved to another site (01 R20). -/
def Dev.relink (d : Dev) (t : Nat) : Dev :=
  (List.range 4).foldl (fun (d : Dev) dir => match neighbour t dir with
    | some u => if d.wafer.lostTiles.contains u then d
        else (d.setLink t dir { d.link t dir with down := false }).setLink u (opposite dir) { d.link u (opposite dir) with down := false }
    | none => d) d

/-- A substitution slot takes effect (01 R20): the table, TILE_SUBSTITUTED; a member or girdle tile whose rebuild goes into the spare is being rebuilt from now on; an embedding tile is written from the weight copy (09 R237). Without a journal flash package the change cannot be appended, and does not take effect (01 R22). -/
def Dev.substitute (d : Dev) (t s : Nat) : Dev :=
  if d.pwr.packages = [] then d else
  let b := d.table (segOf t)
  let k := if (substSlot b 0).isNone then 0 else 1
  let d1 := d.changeTable (segOf t) (withSubst b k (posOf t) (s % 256 % 32))
  let lostBefore := d1.wafer.lostTiles.contains t
  let rebuilds := (d1.stripesOf t).any fun e =>
    ((d1.stripe e.1).lost == some e.2 && (d1.stripe e.1).target == 1) || (d1.stripe e.1).out.contains e.2
  let d2 := { d1 with wafer := { d1.wafer with quarantined := d1.wafer.quarantined.filter (· != t),
                                               lostTiles := d1.wafer.lostTiles.filter (· != t),
                                               rebuilding := if rebuilds then d1.wafer.rebuilding ++ [t] else d1.wafer.rebuilding } }
  let d3 := d2.raise (d2.atTile { code := Rc.tileSubstituted, detail := posOf t + 32 * (s % 256 % 32), source := 1, unitKind := 1,
                                  unit := d2.ptileOf t } t)
  let d4 := if lostBefore then d3.relink t else d3
  match d4.image.rec? t with
  | some r =>
    if d4.isEmbedding t then ((d4.unserveTile t).onTile t fun x => { x with weights := d4.image.tileWeights r }).loadProgram t t
    else d4
  | none => d4

/-- The substitutions that wait take effect (01 R20). -/
def Dev.applySubst (d : Dev) : Dev :=
  d.wafer.subst.foldl (fun (d : Dev) p => d.substitute p.1 p.2) { d with wafer := { d.wafer with subst := [] } }

/-- The reserve-tile assignments that wait take effect (08 R206). -/
def Dev.applyReserve (d : Dev) : Dev :=
  let d0 := { d with wafer := { d.wafer with resPending := [] } }
  d.wafer.resPending.foldl (fun (d : Dev) p =>
    { d with wafer := { d.wafer with resMap := (d.wafer.resMap.filter fun (q : Nat × Nat) => q.1 != p.1) ++ [p] } }.loadProgram p.1 p.2) d0

/-- A stripe's rebuild into a spare is done (09 R225, R228): the tile runs its own program again, the stripe is arranged as the image has it, PROTECTED where every girdle tile holds its planes and hosts no member; another girdle tile's rebuild may follow. -/
def Dev.spareDone (d : Dev) (n : Nat) (s : Stripe) : Dev :=
  match d.stripeRec n, s.lost with
  | some r, some i =>
    let t := ((r.all[i]?).map (·.1)).getD 0
    let s1 := { s.idle with out := s.out.filter (· != i) }
    let d1 := (d.putStripe n { s1 with state := s1.served }).nextRebuild n
    let more := (d1.stripesOf t).any fun e => (d1.stripe e.1).lost == some e.2
    (if more then d1 else d1.rebuildOff t).girdleEvent Rc.girdleRebuilt r i t
  | _, _ => d

/-- The switch beat of a stage has ended: its buffers stand in girdle tiles 0, which run the members from now on; the stripes are UNPROTECTED (09 R229). -/
def Dev.endSwitch (d : Dev) : Dev :=
  match d.img.switching with
  | none => d
  | some stage =>
    let d0 := { d with img := { d.img with switching := none } }
    d0.img.stripes.foldl (fun (d : Dev) e =>
      let s := d.stripe e.1
      match d.stripeRec e.1, s.lost with
      | some r, some i =>
        if r.stage = stage ∧ s.complete ∧ s.target = 2 then
          let g := (r.girdle.head?.map (·.1)).getD 0
          let m := ((r.members[i]?).map (·.1)).getD 0
          let base := (((r.members[i]?).bind d.stripeProd).map (·.wBase)).getD 0
          let w := (sortBy (fun a b => decide (a.1 < b.1)) s.buffer).foldl (fun (acc : Mem) c => acc ++ cellsOf (base + 4096 * c.1) c.2) []
          let d1 := d.onTile g fun x => { x with weights := w }
          (d1.putStripe e.1 { s.idle with state := 2, hosted := s.hosted ++ [(i, 0)] }).girdleEvent Rc.girdleRebuilt r i m
        else d
      | _, _ => d) d0

/-- A stage whose recovering stripes have complete buffers gets its switch beat, 64 beats after that of another stage; the beat lasts until the writes, 32 bytes a cycle, have ended (09 R229). -/
def Dev.startSwitch (d : Dev) : Dev :=
  if (match d.img.lastSwitchBeat with
      | some b => decide (d.beat < b + 64)
      | none => false) then d
  else match d.img.stripes.find? fun e => e.2.complete && e.2.target == 2 with
    | none => d
    | some e => match d.stripeRec e.1 with
      | none => d
      | some r =>
        let sizes := (d.img.stripes.filter fun e => e.2.complete && e.2.target == 2 &&
          ((d.stripeRec e.1).map (·.stage)) == some r.stage).map fun e => (e.2.buffer.map fun c => c.2.length).foldl (· + ·) 0
        { d with img := { d.img with switching := some r.stage, lastSwitchBeat := some d.beat },
                 serve := { d.serve with beatExtra := ceilDiv (maxOf sizes) 32 } }

/-- Stripes at a boundary (09 R221 step 6, R228-R230, R232): recoveries that waited start, a page repair that has had its beat ends, rebuilds that are done take effect, LOST stripes are UNPROTECTED. -/
def Dev.stripeBoundary (d : Dev) : Dev :=
  let d1 := d.endSwitch
  (d1.img.stripes.foldl (fun (d : Dev) e =>
    let s := d.stripe e.1
    if s.waits then d.putStripe e.1 { s with waits := false }
    else if s.pageRepair then d.putStripe e.1 { s.idle with state := 0 }
    else if s.complete ∧ s.target = 1 then d.spareDone e.1 s
    else d) d1).resumeLost

/-- The mode of STEP_SYNC that software has written takes effect (11 R294): a leader runs at a stretch of 64/65,536, off means none. -/
def Dev.syncBoundary (d : Dev) : Dev :=
  let m := d.rd Reg.syncMode
  let d1 := { d with serve := { d.serve with syncMode := m } }
  if m = 1 then d1.wr Reg.syncStretch 64
  else if m = 2 then d1
  else { (d1.wr Reg.syncStretch 0).wr Reg.syncLocked 0 with serve := { d1.serve with syncLast := none, syncGood := 0 } }

/-- A leader or follower pulses STEP_SYNC_OUT at every (`DIV` + 1)-th boundary (11 R294). -/
def Dev.syncOut (d : Dev) : Dev :=
  if d.serve.syncMode ≠ 1 ∧ d.serve.syncMode ≠ 2 then d
  else
    let n := d.serve.divCount + 1
    if d.rd Reg.syncDiv < n then { d with serve := { d.serve with divCount := 0 } }.emit .stepSyncOut
    else { d with serve := { d.serve with divCount := n } }

/-- `VMIN_TARGET` at a frequency step (18 R408): round(650 + 70 × (f − 400) / 1,200) mV, f = 25 MHz × step. -/
def vminAt (step : Nat) : Nat := 650 + (70 * (25 * step - 400) * 2 + 1200) / 2400

/-- Sets `VMIN_TARGET` of every field. -/
def Dev.setVmin (d : Dev) (step : Nat) : Dev :=
  (List.range 36).foldl (fun (d : Dev) n => d.wr (Reg.vminTarget n) (vminAt step)) d

/-- A frequency change starts at the boundary (18 R408): issue is held; on a rise the voltage targets go up first. -/
def Dev.startFreq (d : Dev) : Dev :=
  if !d.bit Reg.freqPending || d.serve.freqTo.isSome then d
  else
    let step := d.rd Reg.freqStep
    let d1 := ({ d with serve := { d.serve with freqTo := some step } }.hold 8).wr Reg.freqPending 0
    if d1.rd Reg.freqNow < step then d1.setVmin step else d1

/-- PAGE_DROP commands are decided (12 R318). -/
def Dev.pageDrops (d : Dev) : Dev :=
  (d.jobs 0x53).foldl (fun (d : Dev) j =>
    let (p, d1) := d.decideDrop j.req
    d1.finishJob j p) d

/-- Commands that a transition to P2 or P3 waits for (19 R425). -/
def Dev.powerWaits (d : Dev) : Bool := [0x10, 0x11, 0x12, 0x13, 0x14, 0x63, 0x70].any fun op => !(d.jobs op).isEmpty

/-- The barrier of a power transition falls at the boundary: no wave enters from now on (19 R425). -/
def Dev.powerBoundary (d : Dev) : Dev :=
  match d.pwr.transition with
  | some (t, false) => if 2 ≤ t ∧ d.powerWaits then d else { d with pwr := { d.pwr with transition := some (t, true) } }.hold 3
  | _ => d

/-- All that waited for the boundary, after the commit points and before the next beat. -/
def Dev.deferred' (d : Dev) : Dev :=
  let d1 := d.applyModes.purgeReplays.settleStreams.pageDrops
  let d2 := d1.fabricBoundary.swapBoundary.powerBoundary
  ((d2.applySubst.applyReserve.applyRelink.applyDetours.stripeBoundary.followEnds.startSwitch).syncBoundary).startFreq

/-- On a segment other than the head the columns of a wave tell how far a stream is committed: `fill` follows, recomputed blocks below are readable again, and the blocks the wave writes get pages (10 R243, R248, 15 R364; DEDUCED, log entry 55). -/
def Dev.segmentPages (d : Dev) (cols : List WCol) : List Nat → Option Dev
  | [] => some d
  | i :: is =>
    let ps := (cols.filter fun (c : WCol) => c.stream == i).map (·.position)
    let lo := ps.foldl min (ps.headD 0)
    let d1 := (d.serve.ptes.filter fun (p : Pte) => p.owner == i && p.state == 4 && 256 * p.block + p.fill ≤ lo).foldl
      (fun (d : Dev) p => d.setPte { p with state := if p.fill = 256 then 2 else 1 }) d
    match (d1.fillTo (fun _ => true) i 0 lo).givePages i (d1.pageNeeds i ps) with
    | some d2 => d2.segmentPages cols is
    | none => none

/-- A wave enters a segment other than the head, with the columns that its handoff carries; the handoff's data feeds the rim channel of the same number (15 R364). A segment short of frames asks the head for a drop, and the wave waits. -/
def Dev.enterHandoff (d : Dev) : Dev :=
  match d.fab.handoffs with
  | [] =>
    let late := d.fab.assocs.any fun a => a.1 == d.rd Reg.segPrev && a.2.msgs.any fun m => m.cls == 1
    if late then d.raise { code := Rc.handoffLate, detail := d.rd Reg.segPrev, source := 1 } else d
  | h :: _ =>
    let same := d.fab.handoffs.filter fun g => g.cols == h.cols
    let cols := (List.range h.cols.length).filterMap fun k => (h.cols[k]?).map fun c =>
      ({ stream := c.1, rank := c.2.1, position := c.2.2.1, token := c.2.2.2, kind := 0, slot := k } : WCol)
    match d.segmentPages cols (cols.map (·.stream)).eraseDups with
    | none => d.emit (.ctl d.headDev (.askDrop ((cols.map (·.stream)).headD 0)))
    | some d0 =>
    let d1 := { d0 with fab := { d0.fab with handoffs := d0.fab.handoffs.filter (fun g => g.cols != h.cols) } }
    let d2 := { d1 with serve := { d1.serve with waves := d1.serve.waves ++ d1.newWave false cols [] } }
    same.foldl (fun (d : Dev) g =>
      d.setChan g.chan { d.chan g.chan with flight := flitsOf g.data (ceilDiv g.data.length 64) }) d2

/-- The rim channels into the first stage of an entering wave carry its tokens (07 R175; the format is not in the spec: log entry 9). -/
def Dev.feedRim (d : Dev) (w : Wave) : Dev :=
  (List.range d.image.chans.length).foldl (fun (d : Dev) c => match d.chanRec c with
    | some r => if r.kind = 2 ∧ r.src = 0xFFFF ∧ (d.image.chanStages c).contains w.stage then
        let bytes := w.cols.flatMap fun k => Config.rimInput k.slot k.token k.position
        d.setChan c { d.chan c with flight := flitsOf bytes (ceilDiv bytes.length 64) }
      else d
    | none => d) d

/-- Tiles on which work of the active image runs (06 R139). -/
def Dev.workTiles (d : Dev) : List Nat := (d.image.tiles.map fun r => d.hostOf r.tile).eraseDups

/-- Every tile runs its valid sections whose stage holds a wave, in ascending entry order (06 R139). -/
def Dev.startSections (d : Dev) : Dev :=
  d.workTiles.foldl (fun (d : Dev) t =>
    let x := d.tile t
    if !d.runs t || x.gated || x.progBytes = 0 then d
    else
      let todo := (List.range 16).filter fun i =>
        let (_, stage, v) := x.sectionAt i
        v && (d.waveAt stage).isSome
      let live (m : Nat × Nat) : Bool := (d.serve.waves ++ d.serve.replays).any fun w => w.entry == m.2
      (d.onTile t fun x => { x with seqState := 0, todo := todo, lastFaults := x.lastFaults.filter live }).nextSection t) d

/-- The start of a beat (06 R139, R140, 11 R271, R280): the tenants' balances are refilled, waves enter, the tiles start. `first` is the first beat after an activation. -/
def Dev.openBeat (d : Dev) (cycle : Nat) (first : Bool) : Dev :=
  let d0 := if first then d.wr Reg.beatNumber 0 else d.wr Reg.beatNumber ((d.beat + 1) % 2 ^ 64)
  let d1 := d0.refill
  let seen := d1.serve.waves
  let d2 := if d1.rd Reg.segment = 0 then d1.enterWaves
    else if !d1.serve.replays.isEmpty then d1.enterReplays
    else if d1.serve.holds.isEmpty then d1.enterHandoff else d1
  let fresh := d2.serve.waves.filter fun w => !seen.contains w
  let d3 := if d2.rd Reg.segment = 0 then fresh.foldl (fun d w => d.feedRim w) d2 else d2
  let d4 := { d3 with serve := { d3.serve with beatStart := cycle, beatDelay := 0, between := false } }
  d4.syncOut.startSections

/-- Issue cannot go on at the boundary: a fault's reconfiguration or a frequency change runs, or the device is not in P0 (20 R433, 18 R408, 19 R424). -/
def Dev.issueStands (d : Dev) : Bool := d.held 4 || d.held 8 || d.rd Reg.pstate != 0

/-- The boundary at a cycle: the beat ends, what waited takes effect, the next beat starts unless issue stands or the image has stopped. -/
def Dev.boundary (d : Dev) (cycle : Nat) : Dev :=
  let d1 := if !d.serve.between then d.closeBeat else match d.img.stop with
    | some c => d.stopImage c
    | none => d
  if !d1.imgActive then d1
  else
    let d2 := d1.deferred'
    if !d2.imgActive || d2.issueStands then d2 else d2.openBeat cycle false

/-- The boundary has come: beats run, the period has elapsed, every tile is done with the beat (06 R143, 11 R270). -/
def Dev.boundaryDue (d : Dev) (cycle : Nat) : Bool :=
  d.imgActive && d.rd Reg.pstate == 0 && !d.serve.between && !d.issueStands && d.nextBoundary ≤ cycle &&
    d.wafer.sites.all fun e => d.tileDone e.2

/-- The effect of BEAT_BOUNDARY at an array cycle; none where the boundary has not come. -/
def effBeatBoundary (cycle : Nat) (d : Dev) : Dev := if d.boundaryDue cycle then d.boundary cycle else d

/-- BEAT_BOUNDARY (06 R143). -/
def execBeatBoundary (cycle : Nat) (s : State) : Host.Outcome State Fault Refusal := s.next (effBeatBoundary cycle s.dev)

/-- A fault's reconfiguration ends (20 R433): what waited takes effect, a beat starts at once, ISSUE_RESUMED holds the time from the fault in µs. An image that is to stop does so, and no beat resumes (08 R208). The beat's first cycle is taken as that of the beat before and the cycles of that time (DESIGN CHOICE, log entry 46). -/
def effIssueResumed (us : Nat) (d : Dev) : Dev :=
  if !d.held 4 || !d.wafer.sites.all (fun e => d.tileDone e.2) then d
  else
    let v := min us 0xFFFF
    let next (d : Dev) : Dev := d.boundary (d.serve.beatStart + us * 25 * d.rd Reg.freqNow)
    let d1 := d.release 4
    if d1.img.stop.isSome then next d1
    else
      let d2 := (d1.wr Reg.lastInterruptUs v).wr Reg.maxInterruptUs (max v (d1.rd Reg.maxInterruptUs))
      next (d2.raise { code := Rc.issueResumed, detail := v, source := 1 })

/-- ISSUE_RESUMED (20 R433). -/
def execIssueResumed (us : Nat) (s : State) : Host.Outcome State Fault Refusal := s.next (effIssueResumed us s.dev)

end Sys2Proof.Machine
end

