-- ==== Sys2Proof/Machine/Registers.lean ====
section
/-! DEFINITION. Register accesses, event controller commands, latches, doorbells and windows as commands (00 R6, 01 R33-R36, 12 R304, R305, R311, 13 R321-R334, 14 R348, 18 R408, 19 R423, 22 R469-R479). -/
namespace Sys2Proof.Machine

/-- The PCIe host's accesses reach the registers: the link is up, which it is from stage B6 (19 R419, R423). -/
def Dev.reaches (d : Dev) (who : Requester) : Bool :=
  match who with
  | .pcie => d.io.pcieUp
  | _ => true

/-- The size and alignment that a register accepts over PCIe (22 R470). -/
def accessOk (a : RegAcc) : Bool := (a.size == 4 || a.size == 8) && a.off % a.size == 0

/-- The rim core that makes an access. -/
def coreOfReq : Requester → Option Nat
  | .rimCore c => some c
  | _ => none

/-- The word write that an access makes on the register word at `off`: the half is that of the access (22 R470). -/
def wordOf (a : RegAcc) (off : Nat) : WordWrite :=
  let b0 := a.off % 8
  { off := off, b0 := b0, b1 := b0 + a.size, v := a.val.toNat % 256 ^ a.size * 256 ^ b0, core := coreOfReq a.who }

/-- A write to the named register word `off`: an access of a size or alignment that registers do not accept has no effect (22 R470). -/
def Dev.namedWrite (d : Dev) (a : RegAcc) (off : Nat) : Dev :=
  if d.reaches a.who && accessOk a then d.regWrite (wordOf a off) else d

/-- Write of `ENABLE` of a queue pair's entry (12 R304). -/
def effQueueEnable (qp : Nat) (a : RegAcc) (d : Dev) : Dev := d.namedWrite a (0x100000 + 64 * qp)

/-- QUEUE_ENABLE (12 R304). -/
def execQueueEnable (qp : Nat) (a : RegAcc) (s : State) : Host.Outcome State Fault Refusal :=
  s.next (effQueueEnable qp a s.dev)

/-- A doorbell write: over BAR2 only from stage B7 and with the link up (12 R305, 19 R419, 22 R470). -/
def effDoorbell (path qp : Nat) (val : Word) (d : Dev) : Dev :=
  if d.rd Reg.stage < 7 || (path == 0 && !d.io.pcieUp) || Config.queuePairs ≤ qp then d else d.ringDoorbell path qp val.toNat

/-- DOORBELL (12 R305). -/
def execDoorbell (path qp : Nat) (val : Word) (s : State) : Host.Outcome State Fault Refusal :=
  s.next (effDoorbell path qp val s.dev)

/-- COMPLETION_RECORD_WRITE: the records that wait on a pair are written as far as its ring has space (12 R311). -/
def execCompletionRecordWrite (qp : Nat) (s : State) : Host.Outcome State Fault Refusal := s.next (s.dev.pumpCq qp)

/-- EVT_EOI: a write that completes a ring's interrupt (13 R326). -/
def execEvtEoi (a : RegAcc) (s : State) : Host.Outcome State Fault Refusal := s.next (s.dev.namedWrite a 0x10008)

/-- BANK_EOI of rim core `core`'s bank (13 R330, R334). -/
def execBankEoi (core : Nat) (a : RegAcc) (s : State) : Host.Outcome State Fault Refusal :=
  s.next (s.dev.namedWrite a (0x14010 + 256 * core))

/-- EVT_RAISE: a write that raises a software source (13 R334). -/
def execEvtRaise (a : RegAcc) (s : State) : Host.Outcome State Fault Refusal := s.next (s.dev.namedWrite a 0x10018)

/-- EVENT_RING_ENABLE (13 R323). -/
def execEventRingEnable (ring : Nat) (a : RegAcc) (s : State) : Host.Outcome State Fault Refusal :=
  s.next (s.dev.namedWrite a (0x20000 + 32 * ring))

/-- EVENT_RING_HEAD_WRITE (13 R323). -/
def execEventRingHeadWrite (ring : Nat) (a : RegAcc) (s : State) : Host.Outcome State Fault Refusal :=
  s.next (s.dev.namedWrite a (0x20008 + 32 * ring))

/-- ROUTE_WRITE (13 R321). -/
def execRouteWrite (source : Nat) (a : RegAcc) (s : State) : Host.Outcome State Fault Refusal :=
  s.next (s.dev.namedWrite a (0x12000 + 8 * source))

/-- The source of an always-on latch's bit (13 R320, R331). -/
def latchSource (bit : Nat) : Nat := [71, 70, 67, 68, 69, 72].getD bit 1

/-- Starts a wake to P0 (19 R424, R426). -/
def Dev.requestWake (d : Dev) : Dev :=
  if d.rd Reg.pstate ≠ 0 ∧ d.rd Reg.pstate < 4 ∧ !d.bit Reg.pstateBusy then
    (d.wr Reg.pstateBusy 1).wr Reg.pstateTarget 0
  else d

/-- An edge on an always-on input: bit, count and first tick (13 R331), and a wake where it is enabled (13 R332). While the rim clock runs the set of the bit is an occurrence of its source (13 R333); `shared` when the cause has a record of its own there. -/
def Dev.latchEdge (d : Dev) (bit : Nat) (shared : Bool) : Dev :=
  if 6 ≤ bit || !d.pwr.aonOn then d
  else
    let first := !bitOf (d.rd Reg.aonLatch) bit
    let d1 := d.setW1c Reg.aonLatch (latchSource bit) (shared || d.rd Reg.stage < 1) bit
    let c := d1.rd Reg.aonCount
    let n := bitsOf c (8 * bit) 8
    let d2 := d1.wr Reg.aonCount (c + (min (n + 1) 255 - n) * 256 ^ bit)
    let d3 := if first then d2.wr (Reg.aonTick bit) d2.tick else d2
    if bitOf (d3.rd Reg.aonWakeEn) bit then d3.requestWake else d3

/-- AON_EDGE: an edge of 5 ns or longer on an always-on input (13 R331). -/
def execAonEdge (bit : Nat) (s : State) : Host.Outcome State Fault Refusal := s.next (s.dev.latchEdge bit false)

/-- Bytes that a register access covers. -/
def regBytes (a : RegAcc) : Nat := a.size

/-- A read of registers: the bytes, and RC fields that it covers whole cleared (00 R6, 22 R470). Over PCIe any other size or alignment is an Unsupported Request. -/
def effRcRead (a : RegAcc) (d : Dev) : Dev :=
  if !d.reaches a.who then d
  else match a.who with
    | .pcie =>
      if accessOk a then
        let (bs, d1) := d.regReadPart (a.off - a.off % 8) (a.off % 8) (a.off % 8 + a.size)
        d1.emit (.pcieData bs)
      else d.emit .pcieUnsupported
    | _ =>
      let (bs, d1) := d.regReadBytes a.off (regBytes a) (regBytes a)
      d1.emit (.busData St.success bs)

/-- RC_READ (00 R6, 22 R470). -/
def execRcRead (a : RegAcc) (s : State) : Host.Outcome State Fault Refusal := s.next (effRcRead a s.dev)

/-- A write of any register (00 R6, 22 R470): over PCIe of 4 or 8 aligned bytes; through the rim register region split into words. -/
def effRegisterWrite (a : RegAcc) (d : Dev) : Dev :=
  if !d.reaches a.who then d
  else if accessOk a then d.regWrite (wordOf a (a.off - a.off % 8))
  else match a.who with
    | .pcie => d
    | _ => (d.write (0x200000000000 + a.off) (leBytes a.size a.val.toNat)).dev

/-- REGISTER_WRITE (00 R6). -/
def execRegisterWrite (a : RegAcc) (s : State) : Host.Outcome State Fault Refusal := s.next (effRegisterWrite a s.dev)

/-- DEVICE_RESET: the keyed write (19 R423). -/
def execDeviceReset (a : RegAcc) (s : State) : Host.Outcome State Fault Refusal := s.next (s.dev.namedWrite a 0x1010)

/-- FREQ_STEP_WRITE (18 R408). -/
def execFreqStepWrite (a : RegAcc) (s : State) : Host.Outcome State Fault Refusal := s.next (s.dev.namedWrite a 0x201000)

/-- MIRROR_GIB_WRITE (14 R348). -/
def execMirrorGibWrite (a : RegAcc) (s : State) : Host.Outcome State Fault Refusal := s.next (s.dev.namedWrite a 0x500008)

/-- BAR4_BASE_WRITE (01 R36). -/
def execBar4BaseWrite (a : RegAcc) (s : State) : Host.Outcome State Fault Refusal := s.next (s.dev.namedWrite a 0x2008)

/-- HOST_WIN_BASE_WRITE (22 R477). -/
def execHostWinBaseWrite (a : RegAcc) (s : State) : Host.Outcome State Fault Refusal := s.next (s.dev.namedWrite a 0x2000)

/-- The `unit_kind` and `unit` of a requester (01 R34). -/
def unitOf : Requester → Nat × Nat
  | .pcie => (11, 0)
  | .rimCore c => (6, c)
  | .queuePair q => (12, q)
  | .ring r => (13, r)

/-- Records the unmapped access of a requester, if there was one (01 R34). -/
def Dev.noteUnmapped (d : Dev) (who : Requester) (write : Bool) : Option Nat → Dev
  | none => d
  | some a => d.raise (unmappedOcc write a (unitOf who).1 (unitOf who).2)

/-- An access by a requester inside the device to the tile windows (01 R31, R34, R35). -/
def effTileWindowAccess (a : WinAcc) (d : Dev) : Dev :=
  match a.data with
  | some bs =>
    let res := d.write a.addr bs
    (res.dev.noteUnmapped a.who true res.unmapped).emit (.busData res.st [])
  | none =>
    let res := d.read a.addr a.len
    (res.dev.noteUnmapped a.who false res.unmapped).emit (.busData res.st res.bytes)

/-- TILE_WINDOW_ACCESS (01 R31-R35). -/
def execTileWindowAccess (a : WinAcc) (s : State) : Host.Outcome State Fault Refusal :=
  s.next (effTileWindowAccess a s.dev)

/-- Writes the bytes of a BAR4 write one by one: bytes outside the DRAM region, and bytes of poisoned lines that the write does not cover whole, are discarded (14 R341, 22 R478). -/
def Dev.bar4Store (d : Dev) (a : Nat) (bs : List Byte) (lo hi : Nat) : Dev :=
  match bs with
  | [] => d
  | b :: rest =>
    let line := a / 64 * 64
    let poisoned := d.lineBadAt line && !(lo ≤ line && line + 64 ≤ hi)
    let d1 := if a < d.dramTop ∧ !poisoned then
        { d with mem := { d.mem with dram := memSet d.mem.dram (d.dramKey a) b } } else d
    d1.bar4Store (a + 1) rest lo hi

/-- A host access through the BAR4 aperture; `addr` is the offset in BAR4 (01 R36, 22 R478). Before stage B7 it reads 0 and ignores writes (19 R419). -/
def effBar4Access (a : WinAcc) (d : Dev) : Dev :=
  if !d.io.pcieUp then d
  else if d.rd Reg.stage < 7 then
    (match a.data with
    | some _ => d
    | none => d.emit (.pcieData (List.replicate a.len 0)))
  else
    let base := d.rd Reg.bar4BaseGib * gib + a.addr
    match a.data with
    | some bs =>
      let n := bs.length
      let d1 := if d.dramTop < base + n then d.raise (unmappedOcc true (max base d.dramTop) 11 0) else d
      if (firstIn d.protectedAt base n).isSome then d1.bump Reg.bar4Refused
      else (d1.bar4Store base bs base (base + n)).clearPoisonIn base n
    | none =>
      let n := a.len
      let inside := d.dramTop - base
      let bytes := d.dramBytes base (min n inside) ++ List.replicate (n - inside) 0
      let d1 := if d.dramTop < base + n then d.raise (unmappedOcc false (max base d.dramTop) 11 0) else d
      if (firstIn d.protectedAt base (min n inside)).isSome then (d1.bump Reg.bar4Refused).emit .pcieAbort
      else if (d.badLine base n).isSome then d1.emit (.pciePoison bytes)
      else (d1.countReads (linesOf base (min n inside))).emit (.pcieData bytes)

/-- BAR4_ACCESS (22 R478). -/
def execBar4Access (a : WinAcc) (s : State) : Host.Outcome State Fault Refusal := s.next (effBar4Access a s.dev)

/-- A host access through a diagnostic slot; `addr` is the BAR0 offset (01 R36, 22 R479). The `addr` of its UNMAPPED_ACCESS is that of the slot's byte in the rim register region (DESIGN CHOICE, log entry 107: R34 says 'the lowest unmapped address that the access touched', and the slot shows a window that has another). -/
def effDiagSlotAccess (a : WinAcc) (d : Dev) : Dev :=
  if !d.io.pcieUp then d
  else if d.rd Reg.stage < 7 then
    (match a.data with
    | some _ => d
    | none => d.emit (.pcieData (List.replicate a.len 0)))
  else
    let base := 0x200000000000 + a.addr
    match a.data with
    | some bs =>
      let res := d.write base bs
      res.dev.noteUnmapped .pcie true res.unmapped
    | none =>
      let res := d.read base a.len
      let statuses := (List.range a.len).map fun i =>
        match slotAt (a.addr + i) with
        | some (k, o) => (d.slotByte k o).1
        | none => St.success
      let d1 := res.dev.noteUnmapped .pcie false res.unmapped
      if statuses.contains St.tileRebuilding then d1.emit .pcieAbort else d1.emit (.pcieData res.bytes)

/-- DIAG_SLOT_ACCESS (22 R479). -/
def execDiagSlotAccess (a : WinAcc) (s : State) : Host.Outcome State Fault Refusal := s.next (effDiagSlotAccess a s.dev)

end Sys2Proof.Machine
end

