-- ==== Sys2Proof/Machine/Images.lean ====
section
/-! DEFINITION. Activation of an image (08 R202, R209, R210, 09 R235, R236, 10 R257, R262): what ACTIVATE_IMAGE starts and what stands when the first beat starts. -/
namespace Sys2Proof.Machine

/-- The row of ACTIVATE_IMAGE (12 R313). -/
def rowActivateImage : Row := { op := 0x12, classes := 5, params := [] }

/-- Holds new waves until the loaded image stands on the tiles (08 R202). It waits for a PATCH, a swap, a LOUPE_RUN and an earlier activation. -/
def startActivateImage (r : Rhoic) (d : Dev) : Start :=
  if d.img.loaded.isNone then .done (bad St.noImage) d
  else if [0x11, 0x12, 0x14, 0x70].any fun op => !(d.jobs op).isEmpty then .wait d
  else .run { op := 0x12, req := r } ({ d with img := { d.img with activating := true } }.hold 0)

/-- ACTIVATE_IMAGE (08 R202). -/
def execActivateImage (r : Rhoic) (s : State) : Host.Outcome State Fault Refusal :=
  s.next (s.dev.rhoic rowActivateImage [] r (startActivateImage r))

/-- The epoch of an image (10 R262): that of its hash, else the next number; when the numbers run out every page is dropped and numbering restarts. -/
def Dev.takeEpoch (d : Dev) (hash : List Byte) : Nat × Dev :=
  match d.img.epochs.find? fun e => e.1 == hash with
  | some e => (e.2, d)
  | none =>
    if d.img.nextEpoch ≤ 65535 then
      (d.img.nextEpoch, { d with img := { d.img with epochs := d.img.epochs ++ [(hash, d.img.nextEpoch)], nextEpoch := d.img.nextEpoch + 1 } })
    else
      let d1 := d.dropPages fun _ => true
      (1, { d1 with img := { d1.img with epochs := [(hash, 1)], nextEpoch := 2 } })

/-- The image that was active leaves: its regions are released, every tile is cleared (08 R202 step 3). -/
def Dev.clearOld (d : Dev) : Dev :=
  let d1 := match d.img.active with
    | some im => d.freeRegions im
    | none => d
  { d1 with
    wafer := { d1.wafer with sites := [], resMap := [], resPending := [], served := [] }
    mesh := { d1.mesh with chans := [], redBufs := [], packets := [], detourPending := [] }
    img := { d1.img with active := none, stripes := [], stats := [], prodBeats := [], samples := [], sampleTurn := [], lastSwitchBeat := none,
                         treeEdits := [], chanEdits := [], switching := none, stop := none } }

/-- Weight tiles with no working site move to a free spare of their segment (09 R236, 01 R20), with the substitutions that waited. -/
def Dev.placeSpares (d : Dev) (im : Image) : Dev :=
  im.weightTiles.foldl (fun (d : Dev) r =>
    if d.works r.tile then d
    else match d.spareFor r.tile with
      | some s => d.substitute r.tile s
      | none => d) d.applySubst

/-- Writes a tile of the image (08 R202 step 4): its weights, its program. A member whose spare a rebuild has not fully written is left to the rebuild (09 R235). -/
def Dev.writeTile (d : Dev) (im : Image) (r : TileRec) : Dev :=
  if !d.works r.tile || d.wafer.rebuilding.contains r.tile then d
  else (d.onTile r.tile fun _ => { weights := im.tileWeights r }).loadProgram r.tile r.tile

/-- A stripe at activation (09 R235, R236): PROTECTED; a tile whose spare was not fully written is rebuilt again, a data member in recovery; a member with no site is hosted by girdle tile 0, a girdle tile with none is left out, UNPROTECTED; a second one is a loss. Only one tile is rebuilt: others half written, and all of them where another tile has no site, are written from the image. -/
def Dev.placeStripe (d : Dev) (im : Image) (r : StripeRec) : Dev :=
  let m := r.members.length
  let tileOf (i : Nat) : Nat := ((r.all[i]?).map (·.1)).getD 0xFFFF
  let out := (List.range r.all.length).filter fun i => !d.works (tileOf i)
  let half := (List.range r.all.length).filter fun i => d.works (tileOf i) && d.wafer.rebuilding.contains (tileOf i)
  let write (d : Dev) (i : Nat) : Dev := match im.rec? (tileOf i) with
    | some t => d.writeDirect t
    | none => d
  match out, half with
  | [], [] => d.putStripe r.stripe {}
  | [], i :: more =>
    let d1 := more.foldl write d
    if i < m then d1.enterRecovery r.stripe r i (tileOf i) 1 false
    else d1.putStripe r.stripe { lost := some i, target := 1, out := [i] }
  | i :: rest, _ =>
    let d1 := half.foldl write d
    let d2 :=
      if i < m then
        match r.girdle.head?, im.rec? (tileOf i) with
        | some g, some tr => (d1.onTile g.1 fun x => { x with weights := im.tileWeights tr }).putStripe r.stripe { state := 2, hosted := [(i, 0)] }
        | _, _ => d1
      else d1.putStripe r.stripe { state := 2, out := [i] }
    rest.foldl (fun (d : Dev) j => d.stripeLoss r.stripe j (tileOf j) Rc.stripeLost) d2

/-- Work outside the stripes whose tile has no working site: a compute-only tile gets the reserve tile that the load assigned, while that is still free, else another (08 R201, R206); an embedding tile is served from DRAM (09 R237). -/
def Dev.placeLoose (d : Dev) (im : Image) : Dev :=
  let d1 := im.resMap.foldl (fun (d : Dev) p =>
    if !d.works p.1 && (d.reserveFree (fieldOf p.2)).contains p.2 then
      { d with wafer := { d.wafer with resPending := d.wafer.resPending ++ [p] } }
    else d) d
  (im.tiles.foldl (fun (d : Dev) r =>
    if d.works r.tile then d
    else if d.isEmbedding r.tile then d.serveTile r.tile
    else if r.role = 1 ∧ !(d.wafer.resPending.any fun p => p.1 == r.tile) then d.assignReserve r.tile Rc.tileRetired
    else d) d1).applyReserve

/-- Channels that a lost link, router or field cuts take detours (07 R182). -/
def Dev.placeDetours (d : Dev) : Dev := (d.detourFor d.hopLost).applyDetours

/-- A stream or prefix that a bring-up restored has no structures in DRAM yet (17 R401). -/
def Dev.roomless (d : Dev) (owner : Nat) : Bool :=
  d.image.kvLayers != 0 && !(d.mem.allocs.any fun a => a.owner == owner && a.kind == 0)

/-- Without the ranges of an owner, before it takes its structures anew. -/
def Dev.dropRanges (d : Dev) (owner : Nat) : Dev :=
  { d with mem := { d.mem with allocs := d.mem.allocs.filter fun a => !(a.owner == owner && a.kind ≤ 2) } }

/-- The page table of a restored owner (10 R257): the blocks of the prefix that it shares are SHARED, every other block below its committed length is DROPPED. -/
def Dev.rebuildTable (d : Dev) (owner committed : Nat) (pfx : Option Nat) : Dev :=
  let shared := ((pfx.bind fun p => AMap.find d.serve.prefixes p).map fun x => x.positions / 256).getD 0
  let mine := (d.droppedTable owner committed).filter fun e => shared ≤ e.block
  let front := (pfx.map fun p => d.sharedEntries owner p shared).getD []
  { d with serve := { d.serve with ptes := (d.serve.ptes.filter fun e => e.owner != owner) ++ front ++ mine } }

/-- A restored prefix takes structures (17 R401, 10 R264). -/
def Dev.restorePrefix (d : Dev) (p : Nat) : Dev :=
  match AMap.find d.serve.prefixes p with
  | some x =>
    if !d.roomless (65536 + p) then d
    else match (d.dropRanges (65536 + p)).pfxRoom p x.positions with
      | some (pt, re, d1) => (d1.onPrefix p fun y => { y with ptBase := pt, residBase := re }).rebuildTable (65536 + p) x.positions x.parent
      | none => d
  | none => d

/-- A restored stream takes structures (17 R401, 11 R275); one for which DRAM has no room keeps none. -/
def Dev.restoreStream (d : Dev) (i : Nat) : Dev :=
  match d.stream? i with
  | some s =>
    if !d.roomless i then d
    else match (d.dropRanges i).streamRoom i s.ptBlocks with
      | some (pt, re, hi, d1) =>
        (d1.onStream i fun y => { y with ptBase := pt, residBase := re, histBase := hi }).rebuildTable i s.committed s.pfx
      | none => d
  | none => d

/-- Every restored prefix and stream takes structures, in ascending number. -/
def Dev.restoreRooms (d : Dev) : Dev :=
  let d1 := (d.serve.prefixes.map (·.1)).foldl (fun (d : Dev) p => d.restorePrefix p) d
  d1.streamIds.foldl (fun (d : Dev) i => d.restoreStream i) d1

/-- The base of a device structure (14 R348). -/
def Dev.structBase (d : Dev) (owner : Nat) : Nat :=
  ((d.mem.allocs.find? fun a => a.kind == 6 && a.owner == owner).map (·.base)).getD 0

/-- Streams and pages across an activation (08 R209, 10 R257): another model ends every open stream; another version ends those that are strict; pages of another version, epoch or format are dropped; held streams take their state again. -/
def Dev.resumeStreams (d : Dev) (im : Image) (epoch : Nat) : Dev :=
  let d1 := match d.img.model with
    | some (m, v) =>
      if m ≠ im.modelId then d.streamIds.foldl (fun (d : Dev) i => d.endStream i 5) d
      else if v ≠ im.weightVersion then d.endStrict else d
    | none => d
  let d2 := d1.restoreRooms.dropPages fun p => p.state != 3 && (p.version != im.weightVersion || p.epoch != epoch || (match im.kvOf p.layer with
    | some g => g.fmt != 0xF && g.fmt != p.fmt
    | none => true))
  d2.mapStreams fun s =>
    -- an image with no draft pipeline leaves no draft length and no round (11 R273)
    let t := if im.hasDraft then s else { s with kMax := 0, kCur := 0, drafts := [], roundK := 0, allAccepted := false }
    if s.migSent || s.origin.isSome then t else resumeStream t

/-- A staged package that does not fit the new active image is discarded; no version is forwardable that came with an image (16 R376, R379). -/
def Dev.checkStaged (d : Dev) : Dev :=
  let d0 := { d with wts := { d.wts with kept := none, copied := false, order := 0 } }
  let d1 := if d0.wts.copyBack then { d0.clearStage with wts := { d0.clearStage.wts with copyBack := false } }.wr Reg.swapState 0 else d0
  match d1.wts.staged with
  | some p => if d1.pkgMatchBad p.data p.version then d1.clearStage else d1
  | none => d1

/-- The loaded image may be written to the tiles: no wave is left (08 R202 steps 1 and 2). -/
def Dev.activationReady (d : Dev) : Bool :=
  d.img.activating && !d.img.placed && d.drained && !d.issueStands && !d.held 9

/-- Steps 3 and 4 of R202: the old image leaves, the new one is written to the tiles. No beat runs until its first one starts: IMAGE_STATE reads none meanwhile (DESIGN CHOICE, log entry 116). -/
def Dev.placeOnTiles (d : Dev) (im : Image) : Dev :=
  let d1 := d.clearOld.placeSpares im
  let d2 := { d1 with img := { d1.img with active := some im, loaded := none, placed := true },
                      serve := { d1.serve with faulted := [], sampled := [], between := true, beatExtra := 0 } }
  let d3 := ((d2.wr Reg.imageState 0).wr Reg.stripeStateBase (d2.structBase 3)).wr Reg.reserveMapBase (d2.structBase 4)
  let d4 := im.tiles.foldl (fun d r => d.writeTile im r) d3
  (((im.stripes.foldl (fun d r => d.placeStripe im r) d4).placeLoose im).countStripes).placeDetours

/-- The first beat may start: in host-assisted sampling every consumer has a seed (08 R202 step 5, 05 R126). -/
def Dev.firstBeatReady (d : Dev) (im : Image) : Bool :=
  d.img.placed && !d.issueStands && !d.held 9 && (!d.hostMode 5 || im.consumers.all fun c => (d.hostSeed c).isSome)

/-- Step 5 of R202: the image is active, streams go on (R209), its first beat starts and ACTIVATE_IMAGE completes. -/
def Dev.firstBeat (d : Dev) (im : Image) : Dev :=
  let (epoch, d1) := d.takeEpoch im.hash
  let d2 := { d1 with img := { d1.img with activating := false, placed := false, everActive := true } }
  let d3 := (((d2.wr Reg.imageState 1).wr Reg.imageEpoch epoch).wr Reg.imageModelId im.modelId).wr Reg.activeVersion im.weightVersion
  let d4 := ((d3.resumeStreams im epoch).checkStaged).startAudit
  let d5 := { d4 with img := { d4.img with model := some (im.modelId, im.weightVersion) } }
  let d6 := (((d5.release 0).release 1).release 7).raise { code := Rc.imageActivated, detail := epoch, source := 76 }
  let d7 := (d6.jobs 0x12).foldl (fun d j => d.finishJob j { result := epoch }) d6
  (d7.applySubst.applyReserve.resumeLost.syncBoundary).openBeat 0 true

/-- The effect of IMAGE_ACTIVATED (08 R202 steps 3 to 5, R209): the loaded image is written to the tiles; the first beat starts at once, or, where seeds are missing, at a later IMAGE_ACTIVATED. -/
def effImageActivated (d : Dev) : Dev :=
  let d1 := match d.img.loaded with
    | some im => if d.activationReady then d.placeOnTiles im else d
    | none => d
  match d1.img.active with
  | some im => if d1.firstBeatReady im then d1.firstBeat im else d1
  | none => d1

/-- IMAGE_ACTIVATED (08 R202). -/
def execImageActivated (s : State) : Host.Outcome State Fault Refusal := s.next (effImageActivated s.dev)

end Sys2Proof.Machine
end

