-- ==== Sys2Proof/Machine/Inclusion.lean ====
section
/-! DEFINITION. The inclusion monitor (05 R133-R136): which beats are sampled, what a sample holds, the checker's recomputation and its tolerance per accumulation class, and what a mismatch leads to. -/
namespace Sys2Proof.Machine

/-- The product descriptors of a tile's valid sections, with their stage (05 R133): MATMUL_TABLE, MATMUL_DIRECT and LOG_PRODUCT. -/
def TileRec.products (r : TileRec) : List (Nat × Nat) :=
  r.sections.flatMap fun s => if bitOf (r.sectWord s) 26 then
    (r.sectDescs s).filterMap fun i =>
      let op := r.descAt i % 64
      if op = 0x01 ∨ op = 0x02 ∨ op = 0x03 then some (i, r.sectStage s) else none
  else []

/-- A tile's stripe is in recovery: it is not sampled (05 R133). -/
def Dev.inRecovery (d : Dev) (t : Nat) : Bool :=
  (d.stripesOf t).any fun e => (d.stripe e.1).state == 1

/-- The beats counted for a tile, with its offset, are a multiple of 4,096 (05 R133). -/
def Dev.sampleDue (d : Dev) (t : Nat) : Bool :=
  let n := AMap.get 0 d.img.prodBeats t
  n != 0 && (n + (t % 256 + 180 * (t / 256)) % 4096) % 4096 == 0

/-- Rows and columns of a product descriptor; a LOG_PRODUCT has its groups as rows, and one column. -/
def prodSize (n : Nat) : Nat × Nat :=
  if n % 64 = 0x03 then (2 ^ (logDesc n).groups, 1)
  else ((prodDesc false n).rows, (prodDesc false n).cols)

/-- The rows and the column of a descriptor's `v`-th sample (05 R133): eight rows at a time, then the next column; the order of the two is a DESIGN CHOICE (log entry 109). -/
def samplePlace (n v : Nat) : Nat × Nat × Nat :=
  let (rows, cols) := prodSize n
  let g := ceilDiv rows 8
  (8 * (v % g), min 8 (rows - 8 * (v % g)), v / g % cols)

/-- Memory cells that lie in one of a list of ranges. -/
def cellsIn (m : Mem) (rs : List (Nat × Nat)) : Mem := m.filter fun e => rs.any fun r => inRange e.1 r.1 r.2

/-- The ranges of the weight store that hold rows [r0, r0 + n) of a product (03 R73). -/
def ProdDesc.rowRanges (p : ProdDesc) (r0 n : Nat) : List (Nat × Nat) :=
  let kw := kWindow p.shape
  (List.range n).flatMap fun i => (List.range (planesOf p.wFmt)).flatMap fun q => (List.range (ceilDiv p.k kw)).map fun w =>
    (p.wBase + p.streamAt q (r0 + i) (kw * w), kw / 5)

/-- The ranges of working SRAM that a sample of a product needs: the activation column and, where they lie there, the rows. -/
def ProdDesc.operandRanges (p : ProdDesc) (stride r0 n c : Nat) : List (Nat × Nat) :=
  (p.xBase + c * colBytes p.xFmt p.k, colBytes p.xFmt p.k) ::
    (if p.wSram then (List.range n).map fun i => (p.wBase + (r0 + i) * stride, stride) else [])

/-- What the checker recomputes a product from: the bytes of the sample. -/
def Sample.ctx (x : Sample) : ProdCtx :=
  { weights := x.weights, sram := x.sram, valid := 15, stride := x.stride, masked := [], skipped := [] }

/-- The window partials of row `r` of the sampled column, as the bytes of the sample give them (05 R134). -/
def Sample.windowParts (x : Sample) (p : ProdDesc) (r : Nat) : List (Int × Int) :=
  rowPartials p (fun w => p.rowWindow x.weights x.sram none x.stride r w) (fun c w => p.colWindow x.sram true c w) x.col

/-- The block partial of a row of a product, from an entry that the block opens itself (05 R133). -/
def Sample.ownPart (x : Sample) (n r : Nat) : Int × Int :=
  if n % 64 = 0x03 then
    let p := logDesc n
    let e := (p.run x.sram r p.opened).1
    if p.antilog then (e.sig.getD 0, e.exp) else ((l16Mag (foldLevels e.levels)).getD (-16384), 0)
  else
    let p := prodDesc (n % 64 == 0x02) n
    let e := p.entryAfter { x.ctx with masked := [], skipped := [] } (x.windowParts p r) r x.col (openEntry p.cls p.xFmt p.openExp)
    (e.sig.getD 0, e.exp)

/-- A sample of a descriptor of a tile (05 R133). `err` are the errors of the tile's own partials, row by row, where its array or lanes have computed wrong without a sign. -/
def Dev.sampleOf (d : Dev) (t desc n v : Nat) (err : List Int) : Sample :=
  let (r0, rows, c) := samplePlace n v
  let x := d.tile t
  let p := prodDesc (n % 64 == 0x02) n
  let log := n % 64 == 0x03
  let stride := if log then 0 else d.prodStride t p
  let masks := if !log && p.causal then d.causalMask t p.wBase p.rows p.cols else ([], [])
  let base : Sample := {
    beat := d.beat, desc := desc, row := r0, rows := rows, col := c, stride := stride, parts := []
    weights := if log || p.wSram then [] else cellsIn (d.weightsOf t) (p.rowRanges r0 rows),
    sram := if log then cellsIn x.sram (logRanges (logDesc n)) else cellsIn x.sram (p.operandRanges stride r0 rows c) }
  let sent (i : Nat) : Option (Int × Int) :=
      if masks.1.contains (r0 + i) || masks.2.contains (r0 + i, c) then none
      else
        some ((base.ownPart n (r0 + i)).1 + err.getD i 0, (base.ownPart n (r0 + i)).2)
  { base with parts := (List.range rows).map sent }

/-- The checkers of a tile (05 R133, R135): (lx xor 1, ly) and (lx, ly xor 1), the second first where the first is quarantined or retired. -/
def Dev.checkers (d : Dev) (t : Nat) : Nat × Nat :=
  let a := if t % 2 = 0 then t + 1 else t - 1
  let b := if t / 256 % 2 = 0 then t + 256 else t - 256
  if d.wafer.quarantined.contains a || d.isRetired a then (b, a) else (a, b)

/-- A sample is over: it and the packet that carries it to the checker are gone. -/
def Dev.dropSample (d : Dev) (t : Nat) : Dev :=
  { d with img := { d.img with samples := AMap.erase t d.img.samples },
           mesh := { d.mesh with packets := d.mesh.packets.filter fun p => p.id != sampleId t } }

/-- A sample is taken: the tile's product descriptors in turn, and in each its rows and columns in turn (05 R133); it travels to the checker as a packet of class 5 (07 R181). -/
def effInclusionSample (t : Nat) (err : List Int) (d : Dev) : Dev :=
  match d.recOf t with
  | none => d
  | some r =>
    let ps := r.products
    let k := AMap.get 0 d.img.sampleTurn t
    if !d.imgActive || !d.sampleDue t || d.inRecovery t || !d.works t || (AMap.find d.img.samples t).isSome then d
    else match ps[k % ps.length]? with
      | none => d
      | some p =>
        let carried : Packet := { id := sampleId t, cls := 5, src := t, dst := (d.checkers t).1, request := true, router := t, port := 4 }
        { d with img := { d.img with samples := AMap.insert t (d.sampleOf t p.1 (r.descAt p.1) (k / ps.length) err) d.img.samples
                                     sampleTurn := AMap.set 0 d.img.sampleTurn t (k + 1) }
                 mesh := { d.mesh with packets := d.mesh.packets ++ [carried] } }

/-- INCLUSION_SAMPLE (05 R133). -/
def execInclusionSample (x : SampleInfo) (s : State) : Host.Outcome State Fault Refusal :=
  s.next (effInclusionSample x.tile x.err s.dev)

/-- The stage of a tile's descriptor. -/
def Dev.sampleStage (d : Dev) (t desc : Nat) : Nat :=
  (((d.recOf t).map (·.products)).getD [] |>.find? fun p => p.1 == desc).map (·.2) |>.getD 0

/-- 2^(k/512) × 2^160, rounded down, for k below 512. -/
def pow512 (k : Nat) : Nat := bitSearch (fun r => decide (r ^ 512 ≤ 2 ^ (81920 + k))) 161 0

/-- 2^(h/512) × 2^300, rounded down: h counts half codes of L16 (04 R102). -/
def halfCodes (h : Int) : Int := rneShift (pow512 (h % 512).toNat) (h / 512 + 140)

/-- A log-class result agrees with the exact log2 of the sum of the antilogs of its `n` inputs, those of `xs` and zeros (05 R134): it differs by at most D/2 codes, D = ⌈log2 n⌉ (04 R102). Powers are taken to 160 binary places (DEDUCED, log entry 109). -/
def logAgrees (n : Nat) (xs : List Int) (code err : Int) : Bool :=
  let depth : Int := if n ≤ 1 then 0 else (Nat.log2 (n - 1) + 1 : Nat)
  let sum := (xs.map fun m => halfCodes (2 * m)).foldl (· + ·) 0
  decide (halfCodes (2 * (code - err) - depth) ≤ sum) && decide (sum ≤ halfCodes (2 * (code - err) + depth))

/-- The log inputs of a group over all cycles: the products of its lanes that are not zero and not negative (03 R82, 04 R101). -/
def LogDesc.inputs (p : LogDesc) (sram : Mem) (g : Nat) : List Int :=
  (List.range p.nCycles).flatMap fun t => (p.lanes sram t g).filterMap fun c => if bitOf c 15 then none else l16Mag c

/-- The value of (significand, exponent) pairs summed exactly, as a significand at an exponent not above any of theirs. -/
def exactSum (xs : List (Int × Int)) (z : Int) : Int := (xs.map fun x => x.1 * 2 ^ (x.2 - z).toNat).foldl (· + ·) 0

/-- The partial that the tile sent for a row passes against the checker's recomputation of it (05 R134, the table of tolerances); `err` is the error of the checker's own result, in its last place. -/
def Sample.agrees (x : Sample) (n r : Nat) (part : Int × Int) (err : Int) : Bool :=
  if n % 64 = 0x03 then
    let p := logDesc n
    if p.antilog then decide (part.1 = (x.ownPart n r).1 + err) else logAgrees (p.nCycles * (512 / 2 ^ p.groups)) (p.inputs x.sram r) part.1 err
  else
    let p := prodDesc (n % 64 == 0x02) n
    let ws := (x.windowParts p r).filter fun w => w.1 != 0
    if p.cls = .windowed then
      let z := (ws.map (·.2)).foldl min part.2 - 1
      let diff := part.1 * 2 ^ (part.2 - z).toNat - (exactSum ws z + 2 * err)
      decide ((diff.natAbs : Int) ≤ ws.length * 2 ^ (part.2 - 1 - z).toNat)
    else decide (part.1 = (ws.map (·.1)).foldl (· + ·) 0 + err)

/-- Every row of a sample passes against a checker whose results have these errors (05 R134). -/
def Sample.passes (x : Sample) (n : Nat) (err : List Int) : Bool :=
  (List.range x.rows).all fun i => match x.parts.getD i none with
    | some q => x.agrees n (x.row + i) q (err.getD i 0)
    | none => true

/-- Two checkers' results are the same: they recompute from the same bytes, so their errors are. -/
def sameErrors (rows : Nat) (a b : List Int) : Bool := (List.range rows).all fun i => a.getD i 0 == b.getD i 0

/-- SILENT_DATA_MISMATCH against a tile (05 R135, R495), which is then quarantined. -/
def Dev.mismatch (d : Dev) (t detail beat desc stage : Nat) : Dev :=
  let o : Occ := { code := Rc.silentDataMismatch, detail := detail, cls := 1, desc := desc, stage := stage, outcome := 2,
                   unitKind := 1, unit := d.ptileOf t, beat := some beat }
  (d.raise (d.atTile o t)).quarantine t Rc.silentDataMismatch

/-- The check of a sample (05 R134, R135): it passes against the first checker's recomputation, or the second checker's decides. `first` and `second` are the errors of the two checkers' results, row by row. -/
def effInclusionCheck (t : Nat) (first second : List Int) (d : Dev) : Dev :=
  match AMap.find d.img.samples t with
  | none => d
  | some x =>
    let n := ((d.recOf t).map (·.descAt x.desc)).getD 0
    let stage := d.sampleStage t x.desc
    let d1 := d.dropSample t
    if x.passes n first then d1.stat t stage fun s => { s with passed := s.passed + 1 }
    else
      let d2 := d1.stat t stage fun s => { s with failed := s.failed + 1 }
      let checker := (d.checkers t).1
      if sameErrors x.rows first second then d2.mismatch t 0 x.beat x.desc stage
      else if x.passes n second then d2.mismatch checker 1 x.beat x.desc stage
      else (d2.mismatch t 2 x.beat x.desc stage).mismatch checker 2 x.beat x.desc stage

/-- INCLUSION_CHECK (05 R134, R135). -/
def execInclusionCheck (t : Nat) (x : CheckInfo) (s : State) : Host.Outcome State Fault Refusal :=
  s.next (effInclusionCheck t x.first x.second s.dev)

/-- A sample that is not finished within 4,096 beats is abandoned and counted as skipped (05 R134). -/
def effInclusionSkipped (t : Nat) (d : Dev) : Dev :=
  match AMap.find d.img.samples t with
  | none => d
  | some x =>
    if d.beat < x.beat + 4096 then d
    else (d.dropSample t).stat t (d.sampleStage t x.desc) fun s =>
      { s with skipped := s.skipped + 1 }

/-- INCLUSION_SKIPPED (05 R134). -/
def execInclusionSkipped (t : Nat) (s : State) : Host.Outcome State Fault Refusal := s.next (effInclusionSkipped t s.dev)

end Sys2Proof.Machine
end

