-- ==== Sys2Proof/Machine/Upkeep.lean ====
section
/-! DEFINITION. Background work on the wafer: the inclusion report (05 R136), the girdle code's rebuild and audit (09 R225-R231), memory-tier scrub (19 R427, 20 R438), calibration (19 R427), telemetry. -/
namespace Sys2Proof.Machine

/-- The row of INCLUSION_REPORT (12 R313). -/
def rowInclusionReport : Row := { op := 0x71, classes := 5, params := [(16, 8), (24, 4)] }

/-- The counts of a layer stage, summed over its tiles (05 R128, R136): samples passed, failed, skipped; elements requantised, saturations, clamps, FORMAT_NONFINITE events. -/
def Dev.stageCounts (d : Dev) (stage : Nat) : List Nat :=
  let xs := (d.img.stats.filter fun e => e.1 % 1024 == stage).map (·.2)
  [StageStat.passed, StageStat.failed, StageStat.skipped, StageStat.requantised, StageStat.saturations, StageStat.clamps, StageStat.nonfinite].map fun f => (xs.map f).foldl (· + ·) 0

/-- The reply buffer of INCLUSION_REPORT: per layer the samples and the statistics since activation (05 R128, R136); the layout is not in the spec (log entry 9). -/
def Dev.reportOf (d : Dev) : List Byte := d.image.stages.flatMap fun st => Config.reportBytes st.stage (d.stageCounts st.stage)

/-- Writes the report, as far as the buffer reaches (05 R136). -/
def startInclusionReport (r : Rhoic) (d : Dev) : Start :=
  if d.rd Reg.imageState = 0 then .done (bad St.noImage) d
  else if d.rd Reg.imageState = 2 then .done (bad St.imageStopped) d
  else d.bufOut r (arg r 16 8) (d.reportOf.take (arg r 24 4)) {}

/-- INCLUSION_REPORT (05 R136). -/
def execInclusionReport (r : Rhoic) (s : State) : Host.Outcome State Fault Refusal :=
  s.next (s.dev.rhoic rowInclusionReport [] r (startInclusionReport r))

/-- The row and the first weight position that a byte of a product's stream holds, and its plane; none for padding (03 R73). -/
def ProdDesc.placeOf (p : ProdDesc) (o : Nat) : Option (Nat × Nat × Nat) :=
  let kw := kWindow p.shape
  let w := ceilDiv p.k kw
  let g := o % (kw / 5)
  let r := o / (kw / 5)
  let row := r % p.bandRows
  let q := r / p.bandRows % planesOf p.wFmt
  let bw := r / p.bandRows / planesOf p.wFmt
  let n := bw / w * p.bandRows + row
  let k := bw % w * kw + 5 * g
  if n < p.rows ∧ k < p.k then some (n, k, q) else none

/-- The byte of tile `i` of a stripe at a stream offset, from the girdle code (09 R226): digits of the decoded weights; padding holds code 121. -/
def Dev.decodedByte (d : Dev) (s : StripeRec) (i : Nat) (p : ProdDesc) (o : Nat) : Byte :=
  match p.placeOf o with
  | none => 121
  | some (r, k, q) =>
    t5Byte ((List.range 5).map fun j => if p.k ≤ k + j then 0
      else (balanced (p.planeBase + q + 1) (d.decodeWeight s i r (k + j))).getD (p.planeBase + q) 0)

/-- A decoded weight lies outside the range of its format: −1 to 1 for T1, −1 or 1 for B1, else that of the integer format (09 R226, 02 R58). -/
def weightOut (fmt : Nat) (s : Int) : Bool :=
  if fmt = Fmt.t1 then decide (s < -1) || decide (1 < s)
  else if fmt = Fmt.b1 then s != -1 && s != 1
  else match intRange fmt with
    | some (lo, hi) => decide (s < lo) || decide (hi < s)
    | none => false

/-- A decoded weight of a data member's stream byte lies outside the range of the format (09 R226). -/
def Dev.decodedOut (d : Dev) (s : StripeRec) (i : Nat) (p : ProdDesc) (o : Nat) : Bool :=
  match p.placeOf o with
  | some (r, k, _) => i < s.members.length && (List.range 5).any fun j => k + j < p.k && weightOut s.wFmt (d.decodeWeight s i r (k + j))
  | none => false

/-- Chunks of 4 KiB of a product's stream (09 R226). -/
def ProdDesc.chunks (p : ProdDesc) : Nat := ceilDiv p.streamBytes 4096

/-- The bytes of the weight copy at a stream offset of a tile (09 R226). -/
def Image.copyByte (im : Image) (r : TileRec) (p : ProdDesc) (o : Nat) : Byte := memGet im.weights (r.wOffset + p.wBase + o)

/-- Lines of the weight copy that hold `n` stream bytes of a tile from offset `o` on cannot be read (09 R226). While the copy is being brought up to date its uses read the staging buffer (16 R382). -/
def Dev.copyLost (d : Dev) (r : TileRec) (p : ProdDesc) (o n : Nat) : Bool :=
  !d.wts.copyBack && match d.image.regions.find? fun g => g.kind == 0 with
    | some g => (d.badLine (g.base + r.wOffset + p.wBase + o) n).isSome
    | none => false

/-- Stream bytes [o, o + n) of tile `i` of a stripe as the girdle code writes them, and whether they are inconsistent (09 R226): decoded, or those of the weight copy where the range check fails or the two differ; where the copy cannot be read, as decoded. -/
def Dev.rebuiltBytes (d : Dev) (s : StripeRec) (i : Nat) (r : TileRec) (p : ProdDesc) (o n : Nat) (copyBad : Bool) : List Byte × Bool :=
  let offs := (List.range n).map (o + ·)
  let dec := offs.map (d.decodedByte s i p)
  let copy := offs.map (d.image.copyByte r p)
  let out := offs.any (d.decodedOut s i p)
  if copyBad then (dec, out) else (copy, out || dec != copy)

/-- One chunk of tile `i` of a stripe as the rebuild writes it, whether it is inconsistent, and whether its copy cannot be read (09 R226): the command says so, or a line of the copy is known to be gone. -/
def Dev.rebuiltChunk (d : Dev) (s : StripeRec) (i : Nat) (r : TileRec) (p : ProdDesc) (c : Nat) (copyBad : Bool) : List Byte × Bool × Bool :=
  let n := min 4096 (p.streamBytes - 4096 * c)
  let bad := copyBad || d.copyLost r p (4096 * c) n
  let (bs, odd) := d.rebuiltBytes s i r p (4096 * c) n bad
  (bs, odd, bad)

/-- A rebuild of a stripe that can go on: the index and tile of the lost one, with its record and stripe product (09 R225). -/
def Dev.rebuildOf (d : Dev) (n : Nat) : Option (StripeRec × Nat × Nat × TileRec × ProdDesc) :=
  let st := d.stripe n
  match d.stripeRec n, st.lost with
  | some s, some i => match s.all[i]? with
    | some m => match d.image.rec? m.1, d.stripeProd m with
      | some r, some p =>
        if st.pageRepair || st.complete || st.state == 3 then none
        else if st.target = 1 then (if d.wafer.rebuilding.contains m.1 then some (s, i, m.1, r, p) else none)
        else if st.target = 2 then some (s, i, m.1, r, p)
        else none
      | _, _ => none
    | none => none
  | _, _ => none

/-- Rebuild buffers in use (09 R229). -/
def Dev.buffersInUse (d : Dev) : Nat := (d.img.stripes.filter fun e => e.2.target == 2 && !e.2.buffer.isEmpty).length

/-- One chunk of a rebuild (09 R226, R228, R229): into the spare, or into a rebuild buffer, of which there are 32; after the last chunk into a spare the program is loaded. -/
def effRebuildChunk (n : Nat) (copyBad : Bool) (d : Dev) : Dev :=
  match d.rebuildOf n with
  | none => d
  | some (s, i, t, r, p) =>
    let st := d.stripe n
    let c := st.nextChunk
    if p.chunks ≤ c || (st.target == 2 && st.buffer.isEmpty && 32 ≤ d.buffersInUse) || d.rd Reg.swapState = 3 then d
    else
      let (bs, inconsistent, bad) := d.rebuiltChunk s i r p c copyBad
      let d1 := if inconsistent then d.girdleEvent Rc.girdleInconsistent s i t else d
      let st1 := { st with nextChunk := c + 1, reaudit := st.reaudit || inconsistent || bad }
      if st.target = 1 then
        let d2 := d1.onTile t fun x => { x with weights := memWrite x.weights (p.wBase + 4096 * c) bs }
        let d3 := d2.setStripe n st1
        if c + 1 = p.chunks then d3.loadProgram t t else d3
      else d1.setStripe n { st1 with buffer := st.buffer ++ [(c, bs)] }

/-- REBUILD_CHUNK (09 R226). -/
def execRebuildChunk (n : Nat) (copyBad : Bool) (s : State) : Host.Outcome State Fault Refusal :=
  s.next (effRebuildChunk n copyBad s.dev)

/-- Every chunk of a rebuild is written: what follows waits for the next boundary, or for a switch beat (09 R228, R229). -/
def effGirdleRebuilt (n : Nat) (d : Dev) : Dev :=
  match d.rebuildOf n with
  | none => d
  | some (_, _, _, _, p) =>
    if (d.stripe n).nextChunk < p.chunks then d else d.setStripe n { d.stripe n with complete := true }

/-- GIRDLE_REBUILT (09 R228, R229). -/
def execGirdleRebuilt (n : Nat) (s : State) : Host.Outcome State Fault Refusal := s.next (effGirdleRebuilt n s.dev)

/-- The weights that a chunk of a stripe's first member holds (09 R231). -/
def chunkWeights (p : ProdDesc) (c : Nat) : List (Nat × Nat) :=
  ((List.range (min 4096 (p.streamBytes - 4096 * c))).filterMap fun j => (p.placeOf (4096 * c + j)).map fun x => (x.1, x.2.1)).eraseDups

/-- Stream offsets of a tile that hold the weights of a chunk, over its planes. -/
def ProdDesc.offsetsOf (p : ProdDesc) (ws : List (Nat × Nat)) : List Nat :=
  ws.flatMap fun w => (List.range (planesOf p.wFmt)).map fun q => p.streamAt q w.1 w.2

/-- A tile's bytes at the weights of a chunk that differ from the weight copy (09 R231). -/
def Dev.differing (d : Dev) (m : Nat × Nat) (ws : List (Nat × Nat)) : List (Nat × Byte) :=
  match d.image.rec? m.1, d.stripeProd m with
  | some r, some p => (p.offsetsOf ws).filterMap fun o =>
      let b := d.image.copyByte r p o
      if memGet (d.tile m.1).weights (p.wBase + o) = b then none else some (p.wBase + o, b)
  | _, _ => []

/-- A chunk of a stripe does not add up: some weight of it has s ≠ 0, with no lost member (09 R231). -/
def Dev.chunkOff (d : Dev) (s : StripeRec) (p : ProdDesc) (c : Nat) : Bool :=
  (chunkWeights p c).any fun w => (List.range 5).any fun j => w.2 + j < p.k &&
    decide (d.decodeWeight s s.members.length w.1 (w.2 + j) ≠ (s.girdle.map fun g => d.shareOf g w.1 (w.2 + j)).foldl (· + ·) 0)

/-- A stripe is UNPROTECTED because its parity does not add up (09 R231). -/
def Dev.unsettle (d : Dev) (n : Nat) : Dev := d.putStripe n { d.stripe n with state := 2, unsettled := true }

/-- A stripe whose chunk does not add up (09 R231): the tiles that differ from the weight copy are rewritten in place, a data member by the procedure of R230; where the copy cannot be read, or the chunk does not add up then either, the stripe is UNPROTECTED. -/
def Dev.settleChunk (d : Dev) (n : Nat) (s : StripeRec) (p : ProdDesc) (c : Nat) (copyBad : Bool) : Dev :=
  let diffs := (List.range s.all.length).filterMap fun i => (s.all[i]?).bind fun m =>
    let x := d.differing m (chunkWeights p c)
    if x.isEmpty then none else some (i, m.1, x)
  let d0 := match diffs.head? with
    | some e => d.girdleEvent Rc.girdleInconsistent s e.1 e.2.1
    | none => d.girdleEvent Rc.girdleInconsistent s 63 ((s.girdle.head?.map (·.1)).getD 0)
  if copyBad then d0.unsettle n
  else
    let d1 := diffs.foldl (fun (d : Dev) e => d.onTile e.2.1 fun x =>
      { x with weights := e.2.2.foldl (fun m b => memSet m b.1 b.2) x.weights }) d0
    if d1.chunkOff s p c then d1.unsettle n
    else match diffs.find? fun e => e.1 < s.members.length with
      | some e => d1.enterRecovery n s e.1 e.2.1 0 true
      | none => d1

/-- The weight copy of a chunk cannot be read for some tile of a stripe (09 R231). -/
def Dev.chunkLost (d : Dev) (s : StripeRec) (c : Nat) : Bool :=
  s.all.any fun m => match d.image.rec? m.1, d.stripeProd m with
    | some r, some p => d.copyLost r p (4096 * c) (min 4096 (p.streamBytes - 4096 * c))
    | _, _ => false

/-- One chunk of the girdle audit (09 R231), in ascending order over a PROTECTED stripe; the pass ends with the last. -/
def effGirdleAudit (n c : Nat) (copyBad : Bool) (d : Dev) : Dev :=
  match d.stripeRec n with
  | none => d
  | some s =>
    match s.members.head?.bind d.stripeProd with
    | none => d
    | some p =>
      let st := d.stripe n
      if !d.imgActive || st.state ≠ 0 || st.lost.isSome || c ≠ st.audited || p.chunks ≤ c || d.rd Reg.swapState = 3 then d
      else
        let d1 := if c + 1 = p.chunks then d.setStripe n { st with audited := 0, reaudit := false }
          else d.setStripe n { st with audited := c + 1 }
        if d.chunkOff s p c then d1.settleChunk n s p c (copyBad || d.chunkLost s c) else d1

/-- GIRDLE_AUDIT (09 R231). -/
def execGirdleAudit (n c : Nat) (copyBad : Bool) (s : State) : Host.Outcome State Fault Refusal :=
  s.next (effGirdleAudit n c copyBad s.dev)

/-- Pages of 4 KiB of a tile's memory tier (01 R24). -/
def tierPages : Nat := 512

/-- A page of a tile is rewritten from the weight copy: of one that belongs to no stripe, or whose parity cannot be used. -/
def Dev.copyPage (d : Dev) (t page : Nat) : Dev :=
  match d.recOf t with
  | none => d
  | some r =>
    let cells := (d.image.tileWeights r).filter fun e => inRange e.1 (4096 * page) 4096
    d.onTile t fun x => { x with weights := memSplice x.weights (4096 * page) 4096 cells }

/-- A page of a weight tile whose retest is good is rebuilt in place (09 R230) by the girdle code, with the checks of R226; bytes of the page that are none of the product's stay. A data member's stripe is RECOVERING from the next boundary until the one after. -/
def Dev.repairPage (d : Dev) (n i t page : Nat) : Dev :=
  match d.stripeRec n with
  | none => d
  | some s =>
    match s.all[i]? with
    | none => d
    | some m =>
      match d.image.rec? m.1, d.stripeProd m with
      | some r, some p =>
        let lo := max (4096 * page) p.wBase
        let n' := min (4096 * page + 4096) (p.wBase + p.streamBytes) - lo
        let bad := d.copyLost r p (lo - p.wBase) n'
        let (bs, odd) := d.rebuiltBytes s i r p (lo - p.wBase) n' bad
        let d1 := if i < s.members.length then d.enterRecovery n s i t 0 true else d
        let d2 := d1.onTile t fun x => { x with weights := memWrite x.weights lo bs }
        if odd then (d2.setStripe n { d2.stripe n with reaudit := true }).girdleEvent Rc.girdleInconsistent s i t
        else if bad then d2.setStripe n { d2.stripe n with reaudit := true }
        else d2
      | _, _ => d

/-- The product of tile `i` of a stripe has bytes in a page of the tile's weight store. -/
def Dev.holdsPage (d : Dev) (n i page : Nat) : Bool :=
  match (((d.stripeRec n).bind fun s => s.all[i]?).bind fun m => d.stripeProd m) with
  | some p => p.wBase < 4096 * page + 4096 && 4096 * page < p.wBase + p.streamBytes
  | none => false

/-- An uncorrectable page of the memory tier (09 R230, 20 R437, R438): rebuilt where the tile passes its retest; else the tile is lost. Where the stripe's parity cannot be used the page is taken from the weight copy (DEDUCED, log entry 47). -/
def Dev.pageLost (d : Dev) (t page : Nat) (retestOk : Bool) : Dev :=
  if !retestOk then d.quarantine t Rc.weightCodeInvalid
  else match (d.stripesOf t).find? fun e => d.holdsPage e.1 e.2 page with
    | some (n, i) =>
      let st := d.stripe n
      if st.state = 0 ∧ st.lost.isNone then d.repairPage n i t page else d.copyPage t page
    | none => d.copyPage t page

/-- Corrections in a macro column of a site are counted (20 R438): one with 64 in a pass is recorded in the repair map while its macro has a spare column, which it receives at the next stage B4 (01 R24). -/
def Dev.countColumn (d : Dev) (site m col : Nat) : Dev :=
  let key := (site * 16 + m) * 65536 + col
  let n := AMap.get 0 d.wafer.colCounts key + 1
  let d1 := { d with wafer := { d.wafer with colCounts := AMap.insert key n d.wafer.colCounts } }
  if 64 ≤ n then d1.recordColumn (site, m, col) else d1

/-- One page of the memory-tier scrub (19 R427, 20 R438): the next page of the site; the counts of a pass start anew with it. Scrub runs in P0 and P1. -/
def effMemoryTierScrub (site : Nat) (found : PageRead) (d : Dev) : Dev :=
  if d.rd Reg.stage < 7 || 2 ≤ d.rd Reg.pstate then d
  else
    let page := AMap.get 0 d.wafer.scrubNext site
    let last := page + 1 == tierPages
    let next := if last then 0 else page + 1
    let counts := if page = 0 then d.wafer.colCounts.filter (fun e => e.1 / 1048576 != site) else d.wafer.colCounts
    let d1 := { d with wafer := { d.wafer with scrubNext := AMap.set 0 d.wafer.scrubNext site next, colCounts := counts } }
    match found with
    | .clean => d1
    | .corrected m col => (d1.bump Reg.mtScrubCorr).countColumn site (m % 16) col
    | .uncorrectable ok =>
      let d2 := d1.bump Reg.mtScrubUncorr
      match d2.logOf site with
      | some t => if d2.imgActive then d2.pageLost t page ok else if ok then d2 else d2.quarantine t Rc.weightCodeInvalid
      | none => d2

/-- MEMORY_TIER_SCRUB (19 R427). -/
def execMemoryTierScrub (site : Nat) (found : PageRead) (s : State) : Host.Outcome State Fault Refusal :=
  s.next (effMemoryTierScrub site found s.dev)

/-- The injection phase trim of a field's oscillator, every second in P0 and P1 (19 R427). -/
def effOscCalibration (n trim : Nat) (d : Dev) : Dev :=
  if d.rd Reg.stage < 7 || 2 ≤ d.rd Reg.pstate then d
  else { d with wafer := { d.wafer with trims := AMap.set 0 d.wafer.trims n trim } }

/-- OSC_CALIBRATION (19 R427). -/
def execOscCalibration (n trim : Nat) (s : State) : Host.Outcome State Fault Refusal := s.next (effOscCalibration n trim s.dev)

/-- The calibration of a field's voltage and temperature sensors against its references, every 60 s in P0 to P2: a count of the state shows that it ran (19 R427). -/
def effSensorCalibration (d : Dev) : Dev :=
  if d.rd Reg.stage < 7 || 3 ≤ d.rd Reg.pstate then d
  else { d with pwr := { d.pwr with calibrations := d.pwr.calibrations + 1 } }

/-- SENSOR_CALIBRATION (19 R427). -/
def execSensorCalibration (_n : Nat) (s : State) : Host.Outcome State Fault Refusal := s.next (effSensorCalibration s.dev)

/-- What a telemetry record holds (19 R427): per-field power, temperatures and duty, per layer stage the statistics of 05 R128, the descriptor-fetch corrections of 06 R138, the count of queue pairs in use and of streams. -/
def Dev.telemetry (d : Dev) : List Nat :=
  ((List.range 36).flatMap fun n => [d.rd (Reg.fieldW n), d.rd (Reg.hotT n), d.rd (Reg.forecastT n), d.rd (Reg.duty n)]) ++
    (d.image.stages.flatMap fun st => st.stage :: d.stageCounts st.stage) ++
    [d.wafer.descCorr, ((List.range Config.queuePairs).filter fun q => d.bit (Reg.qEnable q)).length, d.serve.streams.length]

/-- A telemetry record, every 10 ms in P0 to P3 (19 R427): 4 KiB at the ring's next place, which TELEM_INDEX then names; the layout of its contents is not in the spec (log entry 9). -/
def effTelemetry (d : Dev) : Dev :=
  if d.rd Reg.stage < 7 || 4 ≤ d.rd Reg.pstate || d.rd Reg.telemBase = 0 then d
  else
    let i := (d.rd Reg.telemIndex + 1) % 256
    let bs := (List.range 4096).map fun j => Config.telemetryByte d.telemetry j
    { d with mem := { d.mem with dram := memWrite d.mem.dram (d.rd Reg.telemBase + 4096 * i) bs } }.wr Reg.telemIndex i

/-- TELEMETRY (19 R427). -/
def execTelemetry (s : State) : Host.Outcome State Fault Refusal := s.next (effTelemetry s.dev)

end Sys2Proof.Machine
end

