-- ==== Sys2Proof/Machine/Power.lean ====
section
/-! DEFINITION. Power: the states and the transitions between them (19 R424-R428), Preserve (17 R400), feeds, ride-through and the hold-up module (17 R387-R398, R402, 21 R464, 23 R488), loss of coolant (18 R411), the PCIe link (19 R423). -/
namespace Sys2Proof.Machine

/-- Waves in flight are abandoned without commit: reservations are given back, drafts discarded (17 R400 step 1, 18 R411). -/
def Dev.abandonWaves (d : Dev) : Dev :=
  let d0 := d.giveBackAll (d.serve.waves ++ d.serve.replays)
  ({ d0 with serve := { d0.serve with waves := [], replays := [], between := true } }.clearBeat.emptyMesh).mapStreams
    fun s => { s with drafts := [], roundK := 0 }

/-- Preserve (17 R400): the set is sealed; then everything is off, or, with a feed present, bring-up starts at stage B1. -/
def Dev.runPreserve (d : Dev) : Dev :=
  let d1 := d.abandonWaves.seal
  if d1.pwr.feeds.any (·.2) then d1.deviceResetNow else d1.powerDown

/-- Tile state is dropped, page copies on the wafer are invalid, fields are off (19 R425 steps 4 to 6). Weights survive P2 only. -/
def Dev.sleepTiles (d : Dev) (keepWeights : Bool) : Dev :=
  let sites := if keepWeights then d.wafer.sites.map fun (e : Nat × Site) => (e.1, ({ weights := e.2.weights } : Site)) else []
  let ptes := d.serve.ptes.map fun (p : Pte) => { p with cached := false }
  let d1 := { d with wafer := { d.wafer with sites := sites }, serve := { d.serve with ptes := ptes } }.emptyMesh
  (List.range 36).foldl (fun (d : Dev) n =>
    if d.rd (Reg.fieldState n) = 0 then (d.wr (Reg.fieldState n) 2).wr (Reg.lockState n) 3 else d) d1

/-- A power state is entered: PSTATE_CHANGED, and the command that asked for it completes with the previous state (19 R425, R430). -/
def Dev.enterState (d : Dev) (t : Nat) : Dev :=
  let p := d.rd Reg.pstate
  let d1 := ((d.wr Reg.pstate t).wr Reg.pstateBusy 0).wr Reg.pstateTarget t
  let d2 := { d1 with pwr := { d1.pwr with transition := none }, serve := { d1.serve with between := true } }
  let d3 := d2.raise { code := Rc.pstateChanged, detail := t + 8 * p, source := 75 }
  (d3.jobs 0x04).foldl (fun d j => d.finishJob j { result := p }) d3

/-- Lines of the weight copy of a tile's weights cannot be read (19 R426). -/
def Dev.copyBadFor (d : Dev) (r : TileRec) : Bool :=
  match d.image.regions.find? fun g => g.kind == 0 with
  | some g => r.wBytes != 0 && (d.badLine (g.base + r.wOffset) r.wBytes).isSome
  | none => false

/-- The weights of every tile are written again from the weight copy, members that a girdle tile hosts there; rebuilds into spares start anew; where a copy line cannot be read and the stripe has no usable parity, the tile counts as lost (19 R426 step 3). -/
def Dev.rewriteWeights (d : Dev) : Dev :=
  let d1 := d.image.weightTiles.foldl (fun d r => d.writeWeights d.image r) d
  let again (s : Stripe) : Stripe := if s.lost.isSome && s.target == 1 then { s with nextChunk := 0, complete := false } else s
  let d2 := { d1 with img := { d1.img with stripes := d1.img.stripes.map fun (e : Nat × Stripe) => (e.1, again e.2) } }
  let d3 := d2.image.weightTiles.foldl (fun (d : Dev) r =>
    if !d.copyBadFor r then d
    else (d.stripesOf r.tile).foldl (fun (d : Dev) e =>
      let s := d.stripe e.1
      if s.state = 0 ∧ s.lost.isNone then d else d.stripeLoss e.1 e.2 r.tile Rc.stripeLost) d) d2
  { d3.startAudit with pwr := { d3.startAudit.pwr with weightsOut := false } }

/-- Steps 1 to 3 of a wake from P2 or P3 (19 R426): fields on and locked, programs written, after P3 the weights too. -/
def Dev.wakeTiles (d : Dev) : Dev :=
  let d1 := (List.range 36).foldl (fun (d : Dev) n =>
    if d.rd (Reg.fieldState n) = 2 then (d.wr (Reg.fieldState n) 0).wr (Reg.lockState n) 1 else d) d
  let d2 := if d1.pwr.weightsOut then d1.rewriteWeights else d1
  (d2.workTiles.foldl (fun (d : Dev) t => if d.runs t then d.loadProgram (d.guestOf t) t else d) d2).arrangeAll

/-- Both cores of a standby pair are lost: the device stays in P3 until reset (20 R447). -/
def Dev.coresDead (d : Dev) : Bool :=
  (List.range 8).any fun c => !bitOf (d.rd Reg.rimCoresUp) c && !bitOf (d.rd Reg.rimCoresUp) (c + 8)

/-- Streams that were held for the power state take their state again. -/
def Dev.unholdStreams (d : Dev) : Dev :=
  if !d.imgActive then d
  else d.mapStreams fun s => if s.migrating.isSome || s.migSent || s.origin.isSome then s else resumeStream s

/-- The end of a wake to P0 (19 R426): clocks run, the voltage targets are restored, what waited for a boundary takes effect, the first beat starts. -/
def Dev.wakeUp (d : Dev) : Dev :=
  let d1 := if 2 ≤ d.rd Reg.pstate then d.wakeTiles else d
  let d2 := ((d1.setVmin (d1.rd Reg.freqNow)).enterState 0).release 3
  let d3 := d2.unholdStreams
  d3.boundary d3.nextBoundary

/-- The on-wafer weights are lost; no transition is under way, and a swap's copy is not done. -/
def Dev.markLost (d : Dev) : Dev :=
  { d with pwr := { d.pwr with weightsOut := true, transition := none }, wts := { d.wts with copied := false } }

/-- A target state is reached (19 R424, R425). -/
def Dev.goDown (d : Dev) (t : Nat) : Dev :=
  let p := d.rd Reg.pstate
  if t = 1 then
    let d1 := if 2 ≤ p then d.wakeTiles else d
    ((List.range 36).foldl (fun (d : Dev) n => d.wr (Reg.vminTarget n) 650) d1).enterState 1
  else if t = 2 then (if p < 2 then d.sleepTiles true else d).enterState 2
  else (d.sleepTiles false).markLost.enterState 3

/-- A stream has a wave to issue (11 R282, 19 R424). -/
def Dev.hasWork (d : Dev) : Bool :=
  d.imgActive && d.serve.streams.any fun e => d.candidate e.1 e.2 || (d.recCandidate e.1 e.2 && d.pagesAway e.1 e.2)

/-- P1 is left as soon as a stream is a candidate (19 R424). -/
def Dev.wakeIfWork (d : Dev) : Dev := if d.rd Reg.pstate = 1 ∧ d.hasWork then d.requestWake else d

/-- The end of a power-state transition or a wake; none where its conditions do not hold yet (19 R425, R426). -/
def effPstateChanged (d : Dev) : Dev :=
  if !d.bit Reg.pstateBusy || d.coresDead then d
  else
    let t := d.rd Reg.pstateTarget
    if t = 0 then d.wakeUp
    else
      let d1 := if d.noBeats then d.powerBoundary else d
      match d1.pwr.transition with
      | some (_, true) => if d1.drained then (d1.goDown t).wakeIfWork else d1
      | _ => d1

/-- PSTATE_CHANGED (19 R426). -/
def execPstateChanged (s : State) : Host.Outcome State Fault Refusal := s.next (effPstateChanged s.dev)

/-- The row of SET_POWER_STATE (12 R313). -/
def rowSetPowerState : Row := { op := 0x04, classes := 5, params := [(8, 1)] }

/-- The coolant is within limits in which the device may run (18 R410, R411; DEDUCED: the limits of COOLANT_LOST, log entry 48). -/
def Dev.coolantFit (d : Dev) : Bool := d.rd Reg.inletT ≤ 550 && 120 ≤ d.rd Reg.coolFlow

/-- Starts the transition to P1, P2 or P3; its barrier falls at the next boundary, at once where no beat runs (19 R425). -/
def Dev.startTransition (d : Dev) (t : Nat) : Dev :=
  let d1 := { ((d.wr Reg.pstateBusy 1).wr Reg.pstateTarget t) with pwr := { d.pwr with transition := some (t, false) } }
  if d1.noBeats then d1.powerBoundary else d1

/-- Segment 0 carries a power state to every other segment (19 R425). -/
def Dev.orderPower (d : Dev) (t : Nat) : Dev := d.otherSegments.foldl (fun (d : Dev) p => d.emit (.ctl p (.powerOrder t))) d

/-- Starts a power-state change (19 R425, R428). -/
def startSetPowerState (r : Rhoic) (d : Dev) : Start :=
  let t := arg r 8 1
  let p := d.rd Reg.pstate
  if 3 < t then .done (bad St.paramRange 8) d
  else if d.rd Reg.segment ≠ 0 then .done (bad St.notPermitted 0) d
  else if d.bit Reg.pstateBusy || !(d.jobs 0x04).isEmpty then .wait d
  else if t < 2 ∧ p = 3 ∧ !d.coolantFit then .done (bad St.powerState 3) d
  else
    let d1 := d.orderPower t
    if t = p then .done { result := p } d1
    else if t = 0 then .run { op := 0x04, req := r } ((d1.wr Reg.pstateBusy 1).wr Reg.pstateTarget 0)
    else .run { op := 0x04, req := r } (d1.startTransition t)

/-- SET_POWER_STATE (19 R425). -/
def execSetPowerState (r : Rhoic) (s : State) : Host.Outcome State Fault Refusal :=
  s.next (s.dev.rhoic rowSetPowerState [] r (startSetPowerState r))

/-- A power state that segment 0 orders (19 R425). -/
def Dev.takePowerOrder (d : Dev) (t : Nat) : Dev :=
  if d.bit Reg.pstateBusy || t = d.rd Reg.pstate || 3 < t then d
  else if t = 0 then d.requestWake
  else d.startTransition t

/-- P1 is entered automatically: nothing in flight, no candidate, no transition, `P1_DELAY` not 0 (19 R424, R428). -/
def effP1Entry (d : Dev) : Dev :=
  if d.rd Reg.stage < 7 || d.rd Reg.pstate != 0 || d.bit Reg.pstateBusy || d.rd Reg.p1Delay == 0 || !d.drained || d.hasWork ||
      d.issueStands || !(d.jobs 0x04).isEmpty || d.img.activating then d
  else d.goDown 1

/-- P1_ENTRY (19 R424). -/
def execP1Entry (s : State) : Host.Outcome State Fault Refusal := s.next (effP1Entry s.dev)

/-- A wake under way is abandoned: WAKE_ABANDONED, the command completes POWER_STATE, detail 3 (19 R428). A transition to another state that loses its device to P3 ends the same way. -/
def Dev.abandonWake (d : Dev) : Dev :=
  if !d.bit Reg.pstateBusy then d
  else
    let d1 := if d.rd Reg.pstateTarget = 0 then
        (d.raise { code := Rc.wakeAbandoned, detail := 0, source := 75 }).setW1c Reg.errWake 75 true
      else d
    if d.rd Reg.pstateTarget = 3 then d1
    else (d1.jobs 0x04).foldl (fun d j => d.finishJob j (bad St.powerState 3)) d1

/-- The device goes into P3 at once: issue held, waves abandoned, streams HELD (18 R411). -/
def Dev.fallToP3 (d : Dev) : Dev :=
  let d1 := (d.abandonWaves.hold 3).mapStreams holdStream
  let d3 := (d1.sleepTiles false).markLost
  if d3.rd Reg.pstate = 3 then (d3.wr Reg.pstateBusy 0).wr Reg.pstateTarget 3 else d3.enterState 3

/-- Coolant limits broken for 1 s (18 R410, R411): COOLANT_LOST, then P3 until a command ends it. `which`: 0 inlet, 1 flow. -/
def effCoolantLost (which : Nat) (d : Dev) : Dev :=
  if d.rd Reg.stage < 3 || 4 ≤ d.rd Reg.pstate then d
  else
    let d1 := (d.raise { code := Rc.coolantLost, detail := which % 2, cls := 1, outcome := 0 }).setW1c Reg.errCoolant 73
    d1.abandonWake.fallToP3

/-- COOLANT_LOST (18 R411). -/
def execCoolantLost (which : Nat) (s : State) : Host.Outcome State Fault Refusal := s.next (effCoolantLost which s.dev)

/-- The error bit of a feed. -/
def errFeed (n : Nat) : Fld := if n = 0 then Reg.errFeedA else Reg.errFeedB

/-- The presence bit of a feed. -/
def feedOk (n : Nat) : Fld := if n = 0 then Reg.feedAOk else Reg.feedBOk

/-- The HUM delivers into the bus (17 R396-R398, 23 R488). -/
def Dev.humDelivers (d : Dev) : Bool := d.pwr.hum.isSome && !d.pwr.humAlarm && 70 ≤ d.pwr.energyJ

/-- Both feeds are lost (17 R398, R402, 19 R428, 20 R447): ride-through on the HUM with its threshold, Preserve at a threshold of 0, abrupt loss of power before B7 or without a HUM that can carry Preserve. -/
def Dev.bothFeedsLost (d : Dev) : Dev :=
  if d.rd Reg.stage < 7 then d.powerDown
  else if !d.humDelivers then ({ d with pwr := { d.pwr with doubleFault := true } }).powerDown
  else
    let t := d.rideNow
    let d1 := { (d.wr Reg.onHum 1) with pwr := { d.pwr with ride := some (t, d.tick) } }.updateRide
    let d2 := (d1.raise { code := Rc.rideThrough, detail := t, source := 69, unitKind := 9, unit := 0 }).setW1c Reg.errRide 69 true
    if t = 0 then d2.runPreserve else d2

/-- A feed is lost (17 R388), below its range or, `ov`, above it, which opens its input switch too: FEED_LOST, the latch of the always-on domain, and what follows where the other is lost too. `energyJ` and `watts` are the HUM's energy and the module's input power then. -/
def effFeedLost (feed : Nat) (ov : Bool) (energyJ watts : Nat) (d : Dev) : Dev :=
  let n := feed % 2
  if !d.pwr.aonOn || !AMap.get false d.pwr.feeds n then d
  else
    let e := if d.pwr.hum.isSome then energyJ else 0
    let opened := if ov then n :: d.pwr.feedOpen.filter (· != n) else d.pwr.feedOpen
    let d1 := { (d.wr (feedOk n) 0) with pwr := { d.pwr with feeds := AMap.insert n false d.pwr.feeds, energyJ := e, feedOpen := opened } }
    let d2 := (d1.wr Reg.humEnergyJ e).wr Reg.inputW watts
    let d3 := (d2.raise { code := Rc.feedLost, detail := n, source := 67 + n, unitKind := 8, unit := n }).setW1c (errFeed n) (67 + n) true
    let d4 := (d3.latchEdge (2 + n) true).updateRide
    if d4.pwr.feeds.any (·.2) then d4 else d4.bothFeedsLost

/-- FEED_LOST (17 R388). -/
def execFeedLost (feed : Nat) (ov : Bool) (energyJ watts : Nat) (s : State) : Host.Outcome State Fault Refusal :=
  s.next (effFeedLost feed ov energyJ watts s.dev)

/-- A feed is present again (17 R388, R398): a ride-through ends, RIDE_END with its duration in 100 µs. -/
def effFeedRestored (feed : Nat) (d : Dev) : Dev :=
  let n := feed % 2
  if !d.pwr.aonOn || AMap.get false d.pwr.feeds n then d
  else
    let d1 := ({ (d.wr (feedOk n) 1) with pwr := { d.pwr with feeds := AMap.insert n true d.pwr.feeds, feedOpen := d.pwr.feedOpen.filter (· != n) } }).raise
      { code := Rc.feedRestored, detail := n, source := 67 + n, unitKind := 8, unit := n }
    match d1.pwr.ride with
    | some (_, start) =>
      let d2 := { (d1.wr Reg.onHum 0) with pwr := { d1.pwr with ride := none } }.updateRide
      d2.raise { code := Rc.rideEnd, detail := min ((d2.tick - start) / 2500) 0xFFFF, source := 69, unitKind := 9, unit := 0 }
    | none => d1

/-- FEED_RESTORED (17 R388). -/
def execFeedRestored (feed : Nat) (s : State) : Host.Outcome State Fault Refusal := s.next (effFeedRestored feed s.dev)

/-- The ride threshold has elapsed (17 R398, R400). -/
def effPreserve (d : Dev) : Dev := if d.pwr.ride.isSome then d.runPreserve else d

/-- PRESERVE (17 R400). -/
def execPreserve (s : State) : Host.Outcome State Fault Refusal := s.next (effPreserve s.dev)

/-- A record of the HUM (17 R404). -/
def humOcc (detail : Nat) : Occ := { code := Rc.humChanged, detail := detail, source := 69, unitKind := 9, unit := 0 }

/-- The challenge of the HUM (21 R464): pass sets `HUM_AUTH_OK` and takes its counters; HUM_CHANGED tells the outcome; a failure sets `ERR_HUM` and `ERR_AUTH` (21 R467). Nothing without a HUM. -/
def Dev.challengeHum (d : Dev) : Dev :=
  match d.pwr.hum with
  | none => d
  | some h =>
    if h.genuine then
      (((d.wr Reg.humAuthOk 1).wr Reg.humCycles h.cycles).wr Reg.humHours h.hours).raise (humOcc 2)
    else ((((d.wr Reg.humAuthOk 0).bump Reg.humAuthFails).raise (humOcc 3)).setW1c Reg.errHum 69 true).setW1c Reg.errAuth 81

/-- The HUM is inserted or removed (17 R402, 21 R464, 23 R488): an inserted one is authenticated; a removal while the device runs on it is an abrupt loss of power. -/
def effHumChanged (inserted : Option Hum) (d : Dev) : Dev :=
  if !d.pwr.aonOn then { d with pwr := { d.pwr with hum := inserted } }
  else match inserted, d.pwr.hum with
  | some h, none =>
    let d1 := ({ (d.wr Reg.humPresent 1) with pwr := { d.pwr with hum := some h, humReplace := false } }).raise (humOcc 1)
    (if 1 ≤ d1.rd Reg.stage then d1.challengeHum else d1).updateRide
  | none, some _ =>
    let d1 := { d with pwr := { d.pwr with hum := none, energyJ := 0, humReplace := false } }
    let d2 := ((d1.wr Reg.humPresent 0).wr Reg.humAuthOk 0).wr Reg.humEnergyJ 0
    let d3 := (d2.raise (humOcc 0)).setW1c Reg.errHum 69 true
    if d3.pwr.ride.isSome then d3.powerDown else d3.updateRide
  | _, _ => d

/-- HUM_CHANGED (23 R488). -/
def execHumChanged (inserted : Option Hum) (s : State) : Host.Outcome State Fault Refusal := s.next (effHumChanged inserted s.dev)

/-- HUM_ALARM_N is asserted: the converter stops; on the HUM that is an abrupt loss of power (23 R488). -/
def effHumAlarm (d : Dev) : Dev :=
  if !d.pwr.aonOn then d
  else
    let d1 := { d with pwr := { d.pwr with humAlarm := true } }.latchEdge 4 false
    if d1.pwr.ride.isSome then d1.powerDown else d1.updateRide

/-- HUM_ALARM (23 R488). -/
def execHumAlarm (s : State) : Host.Outcome State Fault Refusal := s.next (effHumAlarm s.dev)

/-- HUM_ALARM_N is released: the converter works again (23 R488). -/
def effHumAlarmReleased (d : Dev) : Dev := { d with pwr := { d.pwr with humAlarm := false } }.updateRide

/-- HUM_ALARM_RELEASED (23 R488). -/
def execHumAlarmReleased (s : State) : Host.Outcome State Fault Refusal := s.next (effHumAlarmReleased s.dev)

/-- The hourly measurement of the HUM (17 R397), with a feed present: capacitance, ESR, energy and the days to 1.2 F; HUM_REPLACE when a limit is passed. -/
def effHumHealth (mf esrUohm energyJ days : Nat) (d : Dev) : Dev :=
  if d.rd Reg.stage < 7 || d.pwr.hum.isNone || d.pwr.humAlarm || !d.pwr.feeds.any (·.2) then d
  else
    let d1 := (((d.wr Reg.humMf mf).wr Reg.humEsrUohm esrUohm).wr Reg.humEnergyJ energyJ).wr Reg.humDays days
    let worn := decide (mf < 1200) || decide (8000 < esrUohm)
    let d2 := { d1 with pwr := { d1.pwr with energyJ := energyJ, humReplace := worn } }
    let d3 := if worn && !d.pwr.humReplace then
        (d2.raise { code := Rc.humReplace, detail := days, source := 69, unitKind := 9, unit := 0 }).setW1c Reg.errHum 69 true
      else d2
    d3.updateRide

/-- HUM_HEALTH (17 R397). -/
def execHumHealth (mf esrUohm energyJ days : Nat) (s : State) : Host.Outcome State Fault Refusal :=
  s.next (effHumHealth mf esrUohm energyJ days s.dev)

/-- The periodic challenge of the HUM (21 R464). -/
def effHumChallenge (d : Dev) : Dev := if d.rd Reg.stage < 1 || 4 ≤ d.rd Reg.pstate then d else d.challengeHum

/-- HUM_CHALLENGE (21 R464). -/
def execHumChallenge (s : State) : Host.Outcome State Fault Refusal := s.next (effHumChallenge s.dev)

/-- PERST_N, a hot reset or a link down (19 R423). -/
def effPcieReset (kind : Nat) (d : Dev) : Dev :=
  if !d.pwr.aonOn then d
  else
    let d1 := d.pcieResetNow
    { d1 with io := { d1.io with perst := kind == 0 || d1.io.perst } }

/-- PCIE_RESET: `kind` 0 PERST_N, 1 hot reset, 2 link down (19 R423). -/
def execPcieReset (kind : Nat) (s : State) : Host.Outcome State Fault Refusal := s.next (effPcieReset kind s.dev)

/-- The PCIe link has trained again (19 R423). -/
def effPcieLinkTrained (d : Dev) : Dev :=
  if d.rd Reg.stage < 6 || 4 ≤ d.rd Reg.pstate then d else { d with io := { d.io with pcieUp := true, perst := false } }

/-- PCIE_LINK_TRAINED (19 R423). -/
def execPcieLinkTrained (s : State) : Host.Outcome State Fault Refusal := s.next (effPcieLinkTrained s.dev)

end Sys2Proof.Machine
end

