-- ==== Sys2Proof/Machine/Fields.lean ====
section
/-! DEFINITION. Fields: their loss (17 R393, 18 R407, R415), regulators and voltage (17 R389-R394), oscillators and the array frequency (18 R405-R408), temperature, forecast, caps and duty (18 R410-R415). -/
namespace Sys2Proof.Machine

/-- The tiles of a field are lost (17 R393, 18 R407): they stop, the stitch links go down, recovery and reserve tiles take over, channels are detoured. `off`: the rails are off, so what the sites hold is lost too. -/
def Dev.loseTiles (d : Dev) (n code : Nat) (off : Bool) : Dev :=
  let running := d.wafer.sites.filterMap fun e => if fieldOfSite e.1 = n ∧ e.2.seqState ≠ 0 then d.logOf e.1 else none
  let d0 := running.foldl (fun (d : Dev) t => d.haltTile t 3) d.interrupt
  let stop (e : Nat × Site) : Nat × Site :=
    if fieldOfSite e.1 = n then (e.1, if off then { seqState := 3 } else { e.2 with seqState := 3, cache := [] }) else e
  let d1 := { d0 with wafer := { d0.wafer with
    lostFields := d0.wafer.lostFields ++ [n], sites := d0.wafer.sites.map stop,
    subst := d0.wafer.subst.filter fun p => fieldOf p.1 != n } }
  let d2 := d1.cutField n
  let mine := ((d2.image.tiles.map (·.tile)) ++ (d2.wafer.resMap ++ d2.wafer.resPending).map (·.2)).eraseDups.filter fun t => fieldOf t == n
  let d3 := mine.foldl (fun (d : Dev) t => d.coverTile t code) d2
  d3.detourFor fun h => fieldOf h.1 == n || (match neighbour h.1 h.2 with
    | some u => fieldOf u == n
    | none => true)

/-- A record of a field (17 R404, 18 R418). -/
def fieldOcc (n code detail cls : Nat) : Occ :=
  { code := code, detail := detail, cls := cls, source := 2 + n, field := n, unitKind := 3, unit := n, outcome := if cls = 1 then 1 else 0 }

/-- A trip or failure during a bring-up counts toward the retirement of the field, which the second in a row records in the repair map (17 R393, 19 R420). -/
def Dev.noteTrip (d : Dev) (n : Nat) : Dev :=
  if d.rd Reg.stage < 7 then
    let k := AMap.get 0 d.wafer.bringupTrips n + 1
    let d1 := { d with wafer := { d.wafer with bringupTrips := AMap.insert n k d.wafer.bringupTrips } }
    if k = 2 then d1.appendRecord 2 (fieldBody n) else d1
  else d

/-- A field trips (17 R393): its regulator latches both rails off, `o` is its data record, its tiles are lost. -/
def Dev.tripField (d : Dev) (n : Nat) (o : Occ) : Dev :=
  if 36 ≤ n || d.rd Reg.stage < 3 || 4 ≤ d.rd Reg.pstate || d.rd (Reg.fieldState n) == 1 || d.rd (Reg.fieldState n) == 3 then d
  else
    let d1 := (d.raise o).setW1c (Reg.errTrip n) (2 + n)
    let d2 := ((d1.wr (Reg.fieldState n) 1).wr (Reg.lockState n) 3).noteTrip n
    if d2.wafer.lostFields.contains n then d2 else d2.loseTiles n o.code true

/-- The record of a field trip: cause 0 VL, 1 VM, 2 undervolt, 3 phases (17 R404). -/
def tripOcc (n cause : Nat) : Occ := fieldOcc n Rc.fieldTrip (n + 64 * (cause % 4)) 1

/-- FIELD_TRIP: a rail whose regulator is on draws too much or falls below half its setpoint (17 R393); in P2 only VM is on (19 R424). -/
def effFieldTrip (n cause : Nat) (d : Dev) : Dev :=
  if d.fieldOn n || (d.rd Reg.pstate == 2 && cause == 1) then d.tripField n (tripOcc n cause) else d

/-- FIELD_TRIP (17 R393). -/
def execFieldTrip (field cause : Nat) (s : State) : Host.Outcome State Fault Refusal := s.next (effFieldTrip field cause s.dev)

/-- The field's minimum has stayed more than 60 mV below its target for 10 µs (17 R392). -/
def effFieldUndervolt (n : Nat) (d : Dev) : Dev := if d.fieldOn n then d.tripField n (tripOcc n 2) else d

/-- FIELD_UNDERVOLT (17 R392). -/
def execFieldUndervolt (field : Nat) (s : State) : Host.Outcome State Fault Refusal := s.next (effFieldUndervolt field s.dev)

/-- Phases of a rail that still work, out of `n` in the group of the lost one (17 R389; for VHBM and VSERDES a group of 6 is a level). -/
def Dev.phasesLeft (d : Dev) (rail n group size : Nat) : Nat :=
  n - (d.pwr.phaseLost.filter fun p => p.1 == rail && p.2 / size == group).length

/-- Phases installed in a rail or a level of it, and needed for full load (17 R389). -/
def railPhases (rail : Nat) : Nat × Nat :=
  if rail < 36 then (16, 15) else if rail < 100 then (4, 3) else if rail = 128 then (8, 7) else if rail = 131 then (2, 1) else (6, 5)

/-- A rail of the part (20 R443). -/
def isRail (rail : Nat) : Bool := rail < 36 || inRange rail 64 36 || inRange rail 128 4

/-- The field cap with the reduction for a lost phase (17 R390, 18 R414). -/
def Dev.capFor (d : Dev) (n cap : Nat) : Nat := if d.phasesLeft n 16 0 32 ≤ 14 then (rounded 3 (cap * 14 : Nat) 15).toNat else cap

/-- A regulator phase is lost (17 R390). -/
def effRegPhaseLost (rail phase : Nat) (d : Dev) : Dev :=
  let (inst, need) := railPhases rail
  let levels := rail == 129 || rail == 130
  if !isRail rail || d.rd Reg.stage < 1 || 32 ≤ phase || (!levels && inst ≤ phase) || d.pwr.phaseLost.contains (rail, phase) then d
  else
    let d1 := { d with pwr := { d.pwr with phaseLost := d.pwr.phaseLost ++ [(rail, phase)] } }
    let field := rail % 64 < 36 && rail < 128
    let n := rail % 64
    let o : Occ := { code := Rc.regPhaseLost, detail := (if field then n else 63) + 64 * b2n (inRange rail 64 36) + 128 * phase,
                     source := if field then 2 + n else 1, field := if field then n else 63, unitKind := 10, unit := rail }
    let d2 := d1.raise o
    let left := if levels then d2.phasesLeft rail inst (phase / 6) 6 else d2.phasesLeft rail inst 0 32
    if field then
      let d3 := d2.setW1c (Reg.errPhase n) (2 + n) true
      if rail < 36 then
        let d4 := d3.wr (Reg.vlPhases n) left
        let d5 := if left = 14 then d4.wr (Reg.capW n) (d4.capFor n (d4.rd (Reg.capW n))) else d4
        if left ≤ 13 then d5.tripField n (tripOcc n 3) else d5
      else
        let d4 := d3.wr (Reg.vmPhases n) left
        if left ≤ 2 then d4.tripField n (tripOcc n 3) else d4
    else if left + 1 = need then (d2.doubleFaulted Rc.regPhaseLost).runPreserve
    else d2

/-- REG_PHASE_LOST (17 R390). -/
def execRegPhaseLost (rail phase : Nat) (s : State) : Host.Outcome State Fault Refusal := s.next (effRegPhaseLost rail phase s.dev)

/-- The smallest of a list of numbers; 0 of none. -/
def minOf (l : List Nat) : Nat := match l with
  | [] => 0
  | x :: rest => rest.foldl min x

/-- The sensor of a tile counts: its tile stands on a site, is not quarantined and has not been excluded (17 R391, 18 R412). -/
def Dev.sensed (d : Dev) (t : Nat) : Bool :=
  isLogical t && (d.physOf t).isSome && !d.wafer.quarantined.contains t && !d.wafer.sensorOut.contains (d.ptileOf t) && d.fieldOn (fieldOf t)

/-- The readings of voltage sensors of tiles that stand on a site are held (01 R23). -/
def Dev.readVolts (d : Dev) (xs : List VoltRead) : Dev :=
  xs.foldl (fun (d : Dev) x => match d.physOf x.tile with
    | some p => { d with wafer := { d.wafer with volts := AMap.set 0 d.wafer.volts p x.mv } }
    | none => d) d

/-- The readings that enter the minimum tree of field `n` (17 R391). -/
def Dev.treeVolts (d : Dev) (n : Nat) (xs : List VoltRead) : List Nat :=
  (xs.filter fun x => fieldOf x.tile == n && d.sensed x.tile).map (·.mv)

/-- An update of a field's minimum tree from its tiles' voltage sensors (17 R391): the setpoint moves toward the value that brings the minimum to `VMIN_TARGET`, by at most 2.5 mV, within 0.65 to 0.90 V. -/
def effVoltageUpdate (n : Nat) (tiles : List VoltRead) (amps : Nat) (d0 : Dev) : Dev :=
  if 36 ≤ n || d0.rd Reg.stage < 3 || !d0.fieldOn n || 2 ≤ d0.rd Reg.pstate then d0
  else if (d0.treeVolts n tiles).isEmpty then d0.readVolts tiles
  else
    let d := d0.readVolts tiles
    let vmin := minOf (d0.treeVolts n tiles)
    let old : Int := (AMap.get 0 d.pwr.vlHalf n : Nat)
    let want : Int := 2 * ((d.rd (Reg.vminTarget n) : Int) - vmin)
    let new := (max 1300 (min 1800 (old + max (-5) (min 5 want)))).toNat
    let d1 := { d with pwr := { d.pwr with vlHalf := AMap.insert n new d.pwr.vlHalf } }
    ((d1.wr (Reg.vlSet n) (rounded 4 new 2).toNat).wr (Reg.vmin n) vmin).wr (Reg.vlAmps n) amps

/-- VOLTAGE_UPDATE (17 R391). -/
def execVoltageUpdate (field : Nat) (tiles : List VoltRead) (amps : Nat) (s : State) : Host.Outcome State Fault Refusal :=
  s.next (effVoltageUpdate field tiles amps s.dev)

/-- A tile is flagged at the end of a 10 ms droop window (17 R394): a data fault, and quarantine. -/
def effSuspectedBondCrack (t excess : Nat) (d : Dev) : Dev :=
  if d.rd Reg.stage < 7 || 2 ≤ d.rd Reg.pstate || !d.sensed t then d
  else
    let n := fieldOf t
    let o := d.atTile { code := Rc.suspectedBondCrack, detail := excess, cls := 1, unitKind := 1, unit := d.ptileOf t, outcome := 2 } t
    ((d.raise o).setW1c (Reg.errCrack n) (2 + n)).quarantine t Rc.suspectedBondCrack

/-- SUSPECTED_BOND_CRACK (17 R394). -/
def execSuspectedBondCrack (t excess : Nat) (s : State) : Host.Outcome State Fault Refusal :=
  s.next (effSuspectedBondCrack t excess s.dev)

/-- The neighbouring fields of a field (18 R405, R407). -/
def fieldNeighbours (n : Nat) : List Nat :=
  (if 6 ≤ n then [n - 6] else []) ++ (if n % 6 < 5 then [n + 1] else []) ++ (if n < 30 then [n + 6] else []) ++ (if 0 < n % 6 then [n - 1] else [])

/-- A field becomes UNLOCKED and is lost; its regulators stay on (18 R407). -/
def Dev.unlockField (d : Dev) (n : Nat) : Dev :=
  let d1 := ((d.wr (Reg.lockState n) 0).raise (fieldOcc n Rc.oscUnlock n 1)).setW1c (Reg.oscErrUnlock n) (2 + n)
  if d1.wafer.lostFields.contains n then d1.cutField n else d1.loseTiles n Rc.oscUnlock false

/-- The field is locked (18 R406). -/
def Dev.locked (d : Dev) (n : Nat) : Bool := d.rd (Reg.lockState n) == 1 || d.rd (Reg.lockState n) == 2

/-- OSC_UNLOCK: a locked field loses lock (18 R407). -/
def effOscUnlock (n : Nat) (d : Dev) : Dev := if 36 ≤ n || !d.locked n then d else d.unlockField n

/-- OSC_UNLOCK (18 R407). -/
def execOscUnlock (field : Nat) (s : State) : Host.Outcome State Fault Refusal := s.next (effOscUnlock field s.dev)

/-- A field's injection point fails (18 R407): COUPLED while a neighbouring field is INJECTED; without one nothing locks the field (DEDUCED, log entry 49). -/
def effOscInjectLost (n : Nat) (d : Dev) : Dev :=
  if 36 ≤ n || d.rd (Reg.lockState n) != 1 then d
  else if (fieldNeighbours n).any fun m => d.rd (Reg.lockState m) == 1 then
    ((d.wr (Reg.lockState n) 2).raise (fieldOcc n Rc.oscInjectLost n 0)).setW1c (Reg.oscErrUnlock n) (2 + n) true
  else d.unlockField n

/-- OSC_INJECT_LOST (18 R407). -/
def execOscInjectLost (field : Nat) (s : State) : Host.Outcome State Fault Refusal := s.next (effOscInjectLost field s.dev)

/-- A retry of injection into an unlocked field (18 R407): where it locks, its routers return at the next boundary, at once where no beat runs; its tiles stay lost. -/
def effOscRelock (n : Nat) (ok : Bool) (d : Dev) : Dev :=
  if 36 ≤ n || !ok || d.rd Reg.stage < 7 || d.rd (Reg.lockState n) != 0 || !d.fieldOn n then d
  else
    let d1 := (d.wr (Reg.lockState n) 1).raise (fieldOcc n Rc.oscRelock n 0)
    let d2 := { d1 with wafer := { d1.wafer with relink := d1.wafer.relink ++ [n] } }
    if d2.noBeats then d2.applyRelink else d2

/-- OSC_RELOCK (18 R407). -/
def execOscRelock (field : Nat) (ok : Bool) (s : State) : Host.Outcome State Fault Refusal := s.next (effOscRelock field ok s.dev)

/-- The end of a frequency change (18 R408): the step is in force, on a fall the voltage targets follow, fields that have not relocked are lost (R407), issue resumes. -/
def effFreqChanged (failed : List Nat) (d : Dev) : Dev :=
  match d.serve.freqTo with
  | none => d
  | some step =>
    let fall := step < d.rd Reg.freqNow
    let d1 := { d with serve := { d.serve with freqTo := none } }
    let d2 := d1.wr Reg.freqNow step
    let d3 := if fall then d2.setVmin step else d2
    let d4 := failed.foldl (fun (d : Dev) n => effOscUnlock n d) d3
    let d5 := (d4.release 8).raise { code := Rc.freqChanged, detail := step, source := 75 }
    if d5.imgActive then d5.boundary d5.nextBoundary else d5

/-- FREQ_CHANGED (18 R408). -/
def execFreqChanged (failed : List Nat) (s : State) : Host.Outcome State Fault Refusal := s.next (effFreqChanged failed s.dev)

/-- Sets a field's duty; an episode below 64 raises THERMAL_THROTTLE once (18 R415). -/
def Dev.setDuty (d : Dev) (n duty : Nat) : Dev :=
  let d1 := d.wr (Reg.duty n) duty
  if duty < 64 ∧ d.rd (Reg.duty n) = 64 then
    (d1.raise (fieldOcc n Rc.thermalThrottle (n + 64 * duty) 0)).setW1c (Reg.errThrottle n) (2 + n) true
  else d1

/-- The inlet, or the flow, lies outside the full-figure range (18 R410). -/
def inletOut (v : Nat) : Bool := v < 150 || 450 < v

/-- As `inletOut`, the flow. -/
def flowOut (v : Nat) : Bool := v < 240 || 400 < v

/-- The coolant readings: COOLANT_RANGE for each that leaves its full-figure range (18 R410). -/
def Dev.readCoolant (d : Dev) (inlet outlet flow dp : Nat) : Dev :=
  let was := d.bit Reg.coolRange
  let newIn := inletOut inlet && !(was && inletOut (d.rd Reg.inletT))
  let newFlow := flowOut flow && !(was && flowOut (d.rd Reg.coolFlow))
  let d1 := (((d.wr Reg.inletT inlet).wr Reg.outletT outlet).wr Reg.coolFlow flow).wr Reg.dpMbar dp
  let d2 := d1.wr Reg.coolRange (b2n (inletOut inlet || flowOut flow))
  let d3 := if newIn then (d2.raise { code := Rc.coolantRange, detail := 0, source := 73 }).setW1c Reg.errCoolant 73 true else d2
  if newFlow then (d3.raise { code := Rc.coolantRange, detail := 1, source := 73 }).setW1c Reg.errCoolant 73 true else d3

/-- The readings of temperature sensors of tiles that stand on a site are held (01 R23). -/
def Dev.readTemps (d : Dev) (xs : List TempRead) : Dev :=
  xs.foldl (fun (d : Dev) x => match d.physOf x.tile with
    | some p => { d with wafer := { d.wafer with temps := AMap.set 0 d.wafer.temps p x.t } }
    | none => d) d

/-- The sensors of a field are read (18 R412): the hottest reading without excluded sensors; a tile at 95 °C or more sets the field's duty to 8 at once (R415). -/
def effTempSample (x : TempSample) (d : Dev) : Dev :=
  if d.rd Reg.stage < 3 || 4 ≤ d.rd Reg.pstate then d
  else
    let d1 := (d.readCoolant x.inlet x.outlet x.flow x.dp).readTemps x.tiles
    let ts := (x.tiles.filter fun r => fieldOf r.tile == x.field && d1.sensed r.tile).map (·.t)
    if 36 ≤ x.field || ts.isEmpty then d1
    else
      let hot := maxOf ts
      let d2 := d1.wr (Reg.hotT x.field) (min hot 1023)
      if 950 ≤ hot then d2.setDuty x.field 8 else d2

/-- TEMP_SAMPLE (18 R412). -/
def execTempSample (x : TempSample) (s : State) : Host.Outcome State Fault Refusal := s.next (effTempSample x s.dev)

/-- A sensor has read far from its neighbours for 10 ms (18 R412): it is excluded, its tile is quarantined. -/
def effSensorFault (t : Nat) (d : Dev) : Dev :=
  if d.rd Reg.stage < 7 || !d.sensed t then d
  else
    let d1 := { d with wafer := { d.wafer with sensorOut := d.wafer.sensorOut ++ [d.ptileOf t] } }
    (d1.raise (d1.atTile { code := Rc.sensorFault, detail := 0, source := 73, unitKind := 1, unit := d1.ptileOf t } t)).quarantine t
      Rc.sensorFault

/-- SENSOR_FAULT (18 R412). -/
def execSensorFault (t : Nat) (s : State) : Host.Outcome State Fault Refusal := s.next (effSensorFault t s.dev)

/-- 1 − exp(−5 ms / τ) × 2^48, τ in 100 µs: the alternating series to its 20th term (18 R413; τ is at least 5 ms). -/
def decay (tau : Nat) : Int :=
  let x : Nat := 50 * 2 ^ 48 / max tau 50
  let terms := (List.range 20).foldl (fun (acc : Int × Nat) (k : Nat) =>
    let t : Nat := acc.2 * x / (2 ^ 48 * (k + 1))
    (acc.1 + (if k % 2 = 0 then (t : Int) else -t), t)) (0, 2 ^ 48)
  terms.1

/-- 12 times the local coolant temperature of a field, 0.1 °C (18 R410). -/
def Dev.coolant12 (d : Dev) (n : Nat) : Int :=
  12 * (d.rd Reg.inletT : Int) + ((d.rd Reg.outletT : Int) - d.rd Reg.inletT) * (2 * (n % 6) + 1)

/-- The forecast of a field at a power of `num / den` W (18 R413), in units of 1 / (120,000 × 2^48 × `den`) °C. -/
def Dev.forecastAt (d : Dev) (n : Nat) (num : Int) (den tau : Nat) : Int :=
  -- both temperatures in 1 / (120,000 × den) °C
  let tss := d.coolant12 n * 10000 * den + 12 * (d.rd (Reg.rth n) : Int) * num
  let now := (d.rd (Reg.hotT n) : Int) * 120000 * den
  now * 2 ^ 48 + (tss - now) * decay tau

/-- The largest duty that keeps power, forecast and module input within their limits (18 R415); 8 where none does. Power at a duty is the part that does not scale and the rest in proportion; the module's limits scale every field's duty alike. -/
def Dev.dutyFor (d : Dev) (x : DutySample) : Nat :=
  let d0 := d.rd (Reg.duty x.field)
  let fits (k : Nat) : Bool :=
    let p : Int := (x.staticWatts : Int) * d0 + ((x.watts : Int) - x.staticWatts) * k
    p ≤ (d.rd (Reg.capW x.field) : Int) * d0 && d.forecastAt x.field p d0 x.tau < 900 * 120000 * 2 ^ 48 * (d0 : Int) &&
      k * x.module1s ≤ d0 * 18000 && k * x.module10ms ≤ d0 * 22000
  (((List.range 57).map fun i => 64 - i).find? fits).getD 8

/-- The forecast and the duty of a field (18 R413, R415), and the module's input power (17 R398 P). -/
def effThrottleUpdate (x : DutySample) (d : Dev) : Dev :=
  if 36 ≤ x.field || d.rd Reg.stage < 7 || 2 ≤ d.rd Reg.pstate || !d.fieldOn x.field then d
  else
    let n := x.field
    let d1 := ((d.wr (Reg.fieldW n) x.watts).wr (Reg.tau n) x.tau).wr Reg.inputW x.module10ms
    let f := rounded 0 (d1.forecastAt n x.watts 1 x.tau) (120000 * 2 ^ 48)
    let d2 := d1.wr (Reg.forecastT n) (min f.toNat 1023)
    let hot := 950 ≤ d2.rd (Reg.hotT n)
    (d2.setDuty n (if hot then 8 else d2.dutyFor x)).updateRide

/-- THROTTLE_UPDATE (18 R415). -/
def execThrottleUpdate (x : DutySample) (s : State) : Host.Outcome State Fault Refusal := s.next (effThrottleUpdate x s.dev)

/-- The cap of a field from its thermal resistance (18 R414): clamp((88 °C − Tc) / Rth, 120 W, 800 W). With a resistance of 0 the quotient has no value: it is free, within the clamp (log entry 50). -/
def Dev.capOf (d : Dev) (n : Nat) : Nat :=
  let room := 12 * 880 - d.coolant12 n
  let r : Int := d.rd (Reg.rth n)
  let q : Int := if r = 0 then (Config.freeReading 2 room : Nat) else rounded 2 (room * 10000) (12 * r)
  (max 120 (min 800 q)).toNat

/-- The thermal resistance of a field after an update (18 R414): Rth + (R − Rth) / 64 with R = (Th − Tc) / P, in units of 10 µK/W; free where the register cannot hold it (log entry 50). -/
def Dev.rthOf (d : Dev) (n : Nat) : Nat :=
  let p : Int := d.rd (Reg.fieldW n)
  let r : Int := d.rd (Reg.rth n)
  let v := rounded 1 (63 * r * (12 * p) + (12 * (d.rd (Reg.hotT n) : Int) - d.coolant12 n) * 10000) (64 * 12 * p)
  if 0 ≤ v ∧ v < 2 ^ 16 then v.toNat else Config.freeReading 1 v

/-- The thermal resistance and the cap of a field, every 100 ms (18 R414). -/
def effRthUpdate (n : Nat) (d : Dev) : Dev :=
  if 36 ≤ n || d.rd Reg.stage < 7 || 2 ≤ d.rd Reg.pstate || !d.fieldOn n then d
  else
    let f := d.rd (Reg.forecastT n)
    let last := AMap.get f d.pwr.lastForecast n
    let steady := f < last + 5 && last < f + 5
    let d1 := if 100 ≤ d.rd (Reg.fieldW n) && steady then d.wr (Reg.rth n) (d.rthOf n) else d
    let d2 := { d1 with pwr := { d1.pwr with lastForecast := AMap.insert n f d1.pwr.lastForecast } }
    d2.wr (Reg.capW n) (d2.capFor n (d2.capOf n))

/-- RTH_UPDATE (18 R414). -/
def execRthUpdate (field : Nat) (s : State) : Host.Outcome State Fault Refusal := s.next (effRthUpdate field s.dev)

/-- A tile at 100 °C for 1 ms trips its field (18 R415). -/
def effFieldOvertemp (t : Nat) (d : Dev) : Dev :=
  if !d.sensed t then d
  else d.tripField (fieldOf t) { d.atTile (fieldOcc (fieldOf t) Rc.fieldOvertemp (fieldOf t) 1) t with unitKind := 3 }

/-- FIELD_OVERTEMP (18 R415). -/
def execFieldOvertemp (t : Nat) (s : State) : Host.Outcome State Fault Refusal := s.next (effFieldOvertemp t s.dev)

end Sys2Proof.Machine
end

