-- ==== Sys2Proof/Machine/Hbm.lean ====
section
/-! DEFINITION. External memory and the parts beside it: patrol scrub and the outer code (14 R339-R342), the loss of a stack (14 R345-R347), the journal flash (17 R399, 20 R440), rim cores (20 R439, R447). -/
namespace Sys2Proof.Machine

/-- Product in GF(2^8) with the polynomial x^8 + x^4 + x^3 + x^2 + 1 (14 R339). -/
def gfMul (a b : Nat) : Nat :=
  ((List.range 8).foldl (fun (acc : Nat × Nat) i =>
    let s := if bitOf b i then acc.1 ^^^ acc.2 else acc.1
    let t := 2 * acc.2
    (s, if 256 ≤ t then t ^^^ 0x11D else t)) (0, a)).1

/-- α^j (14 R339). -/
def gfPow (j : Nat) : Nat := (List.range j).foldl (fun x _ => gfMul x 2) 1

/-- The value of a codeword's polynomial at α^j, byte 0 the coefficient of x^71 (14 R339). -/
def syndrome (w : List Byte) (j : Nat) : Nat := w.foldl (fun s b => gfMul s (gfPow j) ^^^ b.toNat) 0

/-- A pattern of 72 bytes is a codeword (14 R339). -/
def isCodeword (w : List Byte) : Bool := (List.range 8).all fun j => syndrome w j == 0

/-- Bytes that are not 0. -/
def weightOf (w : List Byte) : Nat := (w.filter (· != 0)).length

/-- Sum of two patterns. -/
def xorBytes (a b : List Byte) : List Byte := List.zipWith (· ^^^ ·) a b

/-- What the outer decoder makes of an error pattern (14 R339). -/
inductive Decoded where
  | clean
  | corrected
  /-- taken as error-free, or corrected into another codeword: the line reads with this difference -/
  | wrong (diff : List Byte) (counted : Bool)
  | uncorrectable
  deriving DecidableEq, Repr

/-- The outer decoder (14 R339). `other` is the codeword within 4 bytes of which the pattern lies, where it lies so: an operand of the command, checked here. -/
def decodeLine (mode : Nat) (raw : List Byte) (other : Option (List Byte)) : Decoded :=
  let n := weightOf raw
  if n = 0 then .clean
  else if isCodeword raw then .wrong (raw.take 64) false
  else if mode ≠ 0 then .uncorrectable
  else if n ≤ 4 then .corrected
  else match other with
    | some c => if c.length = 72 ∧ isCodeword c ∧ weightOf (xorBytes raw c) ≤ 4 then .wrong (c.take 64) true else .uncorrectable
    | none => .uncorrectable

/-- The device address of a line of a stack: its unit, or, where that lies beyond the end of DRAM after a loss, the unit that is stored there (14 R337, R346). -/
def Dev.lineAddr (d : Dev) (s o : Nat) : Nat :=
  let v := o / 256 * 12 + s
  let l := d.rd Reg.lostStack
  let n := Config.dramEndLost / 256
  let u := if l < 12 ∧ n ≤ v then
      let offs := (List.range 12).filter fun i => (n + i) % 12 != l
      l + 12 * (11 * ((v - n) / 12) + (offs.filter (· < (v - n) % 12)).length)
    else v
  u * 256 + o % 256

/-- Bytes of a stack (14 R335: 32 GiB). -/
def stackBytes : Nat := 32 * gib

/-- A line that reads with a difference: what is stored is what reads (14 R339). The shadow copy serves no read. -/
def Dev.spoilLine (d : Dev) (line : Nat) (diff : List Byte) : Dev :=
  if inRange line d.mirrorBytes d.mirrorBytes then d
  else { d with mem := { d.mem with dram := memWrite d.mem.dram line (xorBytes (d.dramBytes line 64) diff) } }

/-- The other copy of a mirrored line stands on the lost stack and has not been rewritten yet (14 R343, R347). -/
def Dev.otherGone (d : Dev) (line : Nat) : Bool :=
  let m := d.mirrorBytes
  let twin := if line < m then line + m else line - m
  d.rd Reg.remapState == 1 && line < 2 * m && twin / 256 % 12 == d.rd Reg.lostStack

/-- One line of the patrol scrub of a stack (14 R342, 19 R427): `raw` is the error pattern of its 72 bytes. Poisoned lines are skipped; the offset moves on by a line and wraps at the end of the stack. -/
def effHbmPatrolScrub (s : Nat) (raw : List Byte) (other : Option (List Byte)) (d : Dev) : Dev :=
  if 12 ≤ s || d.rd Reg.stage < 7 || 3 ≤ d.rd Reg.pstate || d.rd (Reg.stackState s) == 2 then d
  else
    let o := d.rd (Reg.scrubOffset s)
    let line := d.lineAddr s o
    let d1 := d.wr (Reg.scrubOffset s) (if stackBytes ≤ o + 64 then 0 else o + 64)
    if d1.lineBadAt (d1.dramKey line) then d1
    else
    let d1 := d1.corrBy s 1 false
    match decodeLine (d1.rd Reg.eccMode) ((raw ++ List.replicate 72 0).take 72) other with
    | .clean => d1
    | .corrected => d1.bump (Reg.outerCorr s)
    | .wrong diff counted =>
      let d2 := d1.spoilLine line diff
      if counted then d2.bump (Reg.outerCorr s) else d2
    | .uncorrectable =>
      let d2 := (d1.bump (Reg.uncorr s)).setW1c (Reg.errUncorr s) (38 + s) true
      if d2.otherGone line then d2.lineLost line true
      else (d2.raise { code := Rc.hbmUncorrectable, detail := s, source := 38 + s, addr := line, unitKind := 4, unit := s }).lineLost
        line false

/-- HBM_PATROL_SCRUB (14 R342). -/
def execHbmPatrolScrub (stack : Nat) (raw : List Byte) (miscorrected : Option (List Byte)) (s : State) : Host.Outcome State Fault Refusal :=
  s.next (effHbmPatrolScrub stack raw miscorrected s.dev)

/-- A range holds a line that is poisoned with the lost stack. -/
def Dev.anyGone (d : Dev) (a n : Nat) : Bool := n != 0 && (linesOf a n).any d.lineGone

/-- Lines of a range that are gone are written again (14 R341, R347). -/
def Dev.restoreLines (d : Dev) (a n : Nat) : Dev := if n = 0 then d else d.clearPoisonIn (a / 64 * 64) (n + a % 64)

/-- Page tables are built anew and residual rows zeroed after a stack loss (14 R347). -/
def Dev.rebuildTables (d : Dev) : Dev :=
  (d.mem.allocs.filter fun x => x.kind == 0 || x.kind == 1).foldl (fun (d : Dev) x =>
    let d1 := d.restoreLines x.base x.size
    if x.kind = 1 then { d1 with mem := { d1.mem with dram := memSplice d1.mem.dram x.base x.size [] } } else d1) d

/-- Queue pairs with a ring line that is gone set `ERR_BASE` (14 R347). -/
def Dev.stopPairs (d : Dev) : Dev :=
  d.pairsOn.foldl (fun (d : Dev) q =>
    if d.anyGone (d.rd (Reg.sqBase q)) (64 * d.sqEntries q) || d.anyGone (d.rd (Reg.cqBase q)) (32 * d.cqEntries q) then
      d.setW1c (Reg.errBase q) 80
    else d) d

/-- Event rings count the unread records that are gone in `LOST` (14 R347, 13 R322). -/
def Dev.countGone (d : Dev) : Dev :=
  d.ringsOn.foldl (fun (d : Dev) r =>
    let n := d.ringEntries r
    let head := d.rd (Reg.ringHead r)
    let unread := (d.rd (Reg.ringTail r) + n - head % n) % n
    let lost := ((List.range unread).filter fun i => d.anyGone (d.rd (Reg.ringBase r) + 32 * ((head + i) % n)) 32).length
    if lost = 0 then d
    else
      let d1 := d.bump (Reg.ringLost r) lost
      { d1 with io := { d1.io with ringLost := AMap.modify 0 d1.io.ringLost r (· + lost) } }) d

/-- A loaded image that is not active is discarded; an ACTIVATE_IMAGE that has not written it to the tiles completes NO_IMAGE (14 R347). -/
def Dev.loseLoaded (d : Dev) : Dev :=
  if d.img.loaded.isNone then d
  else
    let d1 := (d.patchOff (bad St.noImage)).dropLoaded
    if d1.img.placed then d1 else
    let d2 := { d1 with img := { d1.img with activating := false } }.release 0
    (d2.jobs 0x12).foldl (fun d j => d.finishJob j (bad St.noImage)) d2

/-- Rebuilds that go through a buffer in DRAM restart from the first chunk (14 R347). -/
def Dev.loseBuffers (d : Dev) : Dev :=
  let again (s : Stripe) : Stripe := if s.target = 2 then { s with nextChunk := 0, complete := false, buffer := [] } else s
  { d with img := { d.img with stripes := d.img.stripes.map fun (e : Nat × Stripe) => (e.1, again e.2) } }

/-- Every page is dropped: pages of streams and prefixes, those on other devices with the table entries that name them, those kept for other devices (14 R347). -/
def Dev.dropEveryPage (d : Dev) : Dev :=
  let d1 := d.dropPages fun _ => true
  let away (p : Pte) : Pte := if p.state = 6 then { p with state := 3, frame := 0 } else p
  { d1 with serve := { d1.serve with ptes := d1.serve.ptes.map away, missing := d1.serve.streams.map (·.1) }, fab := { d1.fab with remote := [], transfers := [] } }

/-- The registers of a stack loss (14 R346, R348). -/
def Dev.remap (d : Dev) (s : Nat) : Dev :=
  let d1 := (((d.wr (Reg.stackState s) 2).wr Reg.lostStack s).wr Reg.remapState 1).wr Reg.dramTop Config.dramEndLost
  let d2 := if 288 < d1.rd Reg.bar4BaseGib then d1.wr Reg.bar4BaseGib 288 else d1
  { d2 with mem := { d2.mem with lostLines := some [] } }

/-- The first loss of a stack (14 R345-R347). -/
def Dev.loseStack (d : Dev) (s : Nat) : Dev :=
  let d1 := (d.remap s).interrupt
  ((((d1.dropEveryPage.loseLoaded).loseStaged).loseBuffers).rebuildTables).stopPairs.countGone

/-- The loss of a second stack is a double fault: the image stops, every stream is HELD, for good (14 R347, 20 R447). -/
def Dev.secondStack (d : Dev) (s cause : Nat) : Dev :=
  let d1 := (d.wr (Reg.stackState s) 2).wr Reg.remapState 3
  let d2 := d1.raise { code := Rc.hbmSecondLoss, detail := s + 16 * cause, cls := 2, unitKind := 4, unit := s, outcome := 3 }
  let d3 := (d2.doubleFaulted Rc.hbmSecondLoss).hold 9
  if d3.imgActive then d3.wantStop Rc.hbmSecondLoss 0xFFFF 0xFFFF else d3.mapStreams holdStream

/-- A stack is lost (14 R345): the first is remapped, a second stops the image. -/
def effHbmStackLost (s cause : Nat) (d : Dev) : Dev :=
  if 12 ≤ s || d.rd (Reg.stackState s) != 1 then d
  else
  -- cause 1: a command or address failure that a retrain did not clear
  let d := if cause = 1 then d.setW1c (Reg.errTrain s) (38 + s) else d
  if d.rd Reg.lostStack = 15 then
    (d.raise { code := Rc.hbmStackLost, detail := s + 16 * cause, cls := 1, unitKind := 4, unit := s, outcome := 4 }).loseStack s
  else d.secondStack s cause

/-- HBM_STACK_LOST (14 R345). -/
def execHbmStackLost (stack cause : Nat) (s : State) : Host.Outcome State Fault Refusal := s.next (effHbmStackLost stack cause s.dev)

/-- The background work after a stack loss is done (14 R347, R349): the lost share of the weight copy stands again. -/
def effHbmRemapDone (d : Dev) : Dev :=
  if d.rd Reg.remapState ≠ 1 then d
  else
    let s := d.rd Reg.lostStack
    let d1 := d.wr Reg.remapState 2
    let d2 := match d1.image.regions.find? fun r => r.kind == 0 with
      | some r => d1.restoreLines r.base r.size
      | none => d1
    d2.raise { code := Rc.hbmRemapDone, detail := s, source := 38 + s, unitKind := 4, unit := s }

/-- HBM_REMAP_DONE (14 R349). -/
def execHbmRemapDone (s : State) : Host.Outcome State Fault Refusal := s.next (effHbmRemapDone s.dev)

/-- An append to the journal flash (17 R399): the oldest unjournaled data is written; once none is left the journal holds the serving state (DESIGN CHOICE, log entry 43). -/
def effJournalAppend (bytes : Nat) (d : Dev) : Dev :=
  if d.rd Reg.stage < 7 || d.pwr.packages.isEmpty then d
  else
    let left := d.pwr.unjournaled - bytes
    { d with pwr := { d.pwr with unjournaled := left, journal := if left = 0 then d.servingState else d.pwr.journal } }

/-- JOURNAL_APPEND (17 R399). -/
def execJournalAppend (bytes : Nat) (s : State) : Host.Outcome State Fault Refusal := s.next (effJournalAppend bytes s.dev)

/-- A journal flash package is lost (20 R440); with both, journaling stops and nothing is left to restore (20 R447). -/
def effJournalPackageLost (pkg : Nat) (d : Dev) : Dev :=
  if !d.pwr.packages.contains pkg then d
  else
    let left := d.pwr.packages.filter (· != pkg)
    let d1 := ({ d with pwr := { d.pwr with packages := left } }).raise
      { code := Rc.journalPackageLost, detail := pkg, source := 74, unitKind := 7, unit := pkg }
    if left.isEmpty then
      { d1.doubleFaulted Rc.journalPackageLost with pwr := { (d1.doubleFaulted Rc.journalPackageLost).pwr with
        journal := Kept.empty, sealed := none, unjournaled := 0 } }
    else d1

/-- JOURNAL_PACKAGE_LOST (20 R440). -/
def execJournalPackageLost (pkg : Nat) (s : State) : Host.Outcome State Fault Refusal := s.next (effJournalPackageLost pkg s.dev)

/-- Both cores of a standby pair are lost (20 R447): issue held, the image stops, P3 until reset. -/
def Dev.dutiesLost (d : Dev) (code : Nat) : Dev :=
  let d1 := (d.doubleFaulted code).hold 4
  let d2 := if d1.imgActive then d1.stopImage (code, 0xFFFF, 0xFFFF) else d1
  d2.fallToP3

/-- A rim core misses its watchdog (20 R439): the standby takes its duties over, with issue held at the next boundary until it has. -/
def effRimCoreLost (core : Nat) (d : Dev) : Dev :=
  if 16 ≤ core || d.rd Reg.stage < 1 || !bitOf (d.rd Reg.rimCoresUp) core then d
  else
    let standby := (core + 8) % 16
    let d1 := (d.wr Reg.rimCoresUp (d.rd Reg.rimCoresUp - 2 ^ core)).raise
      { code := Rc.rimCoreLost, detail := core, source := 1, unitKind := 6, unit := core }
    if !bitOf (d1.rd Reg.rimCoresUp) standby then d1.dutiesLost Rc.rimCoreLost
    else
      let d2 := { d1 with pwr := { d1.pwr with duties := AMap.insert core standby d1.pwr.duties } }
      if d2.imgActive then d2.hold 4 else d2

/-- RIM_CORE_LOST (20 R439). -/
def execRimCoreLost (core : Nat) (s : State) : Host.Outcome State Fault Refusal := s.next (effRimCoreLost core s.dev)

end Sys2Proof.Machine
end

