-- ==== Sys2Proof/Machine/Reference.lean ====
section
/-! DEFINITION. The loupe reference (05 R129-R131): normal mode runs the column once more on a copy of the device that is dropped at the end, and beside each element it forms stands the value of the reference. Which elements a layer puts out, and what the spec's two blocks leave to a program, is log entry 51. -/
namespace Sys2Proof.Machine

/-- A value of the reference. -/
inductive Lv where
  /-- an exact sum, or an F32 value: rounded once, when it is read -/
  | exact (v : FV)
  /-- a part of the sum Σ p·v of an attention row, which is rounded once, when all its parts are in it -/
  | part (v : FV)
  /-- the reciprocal of a value, not rounded yet: an attention row divides by it -/
  | recip (v : FV)
  deriving DecidableEq, Repr

/-- The value as F32 (05 R131). -/
def Lv.f32 : Lv → FV
  | .exact v => round32 v
  | .part v => round32 v
  | .recip v => fn32 true 0x09 v

/-- The value with nothing rounded that need not be. -/
def Lv.raw : Lv → FV
  | .exact v => v
  | .part v => v
  | x => x.f32

/-- The value is a part of the sum of an attention row. -/
def Lv.isPart : Lv → Bool
  | .part _ => true
  | _ => false

/-- An exact sum (05 R131). -/
def Lv.sum (xs : List Lv) : Lv :=
  let v := match xs.map (·.raw) with
    | [] => .fin false 0 0
    | y :: ys => ys.foldl FV.add y
  if !xs.isEmpty && xs.all (·.isPart) then .part v else .exact v

/-- The extremum of a maximum or minimum tree (04 R112). -/
def Lv.best (maximum : Bool) : List Lv → Lv
  | [] => .exact .nan
  | x :: xs => xs.foldl (fun w v => if beats maximum v.f32 1 w.f32 0 then v else w) x

/-- An addition: exact between two parts of one sum, else correctly rounded (05 R131). -/
def Lv.add : Lv → Lv → Lv
  | .part a, .part b => .part (a.add b)
  | a, b => .exact (add32 a.f32 b.f32)

/-- A multiplication, correctly rounded; that of the sum of an attention row by the reciprocal of its denominator is the division of R131. -/
def Lv.mul : Lv → Lv → Lv
  | .part s, .recip den => .exact (div32 (round32 s) den)
  | .recip den, .part s => .exact (div32 (round32 s) den)
  | a, b => .exact (mul32 a.f32 b.f32)
where
  /-- a quotient of two F32 values, rounded once -/
  div32 : FV → FV → FV
    | .fin s m e, .fin t n f =>
      if n = 0 then mul32 (.fin s m e) (fn32 true 0x09 (.fin t n f))
      else round32 (sticky (s != t) (m * 2 ^ 200 / n) (e - f - 200) (m * 2 ^ 200 % n == 0))
    | a, b => mul32 a (fn32 true 0x09 b)

/-- FACET_OP in the reference: one operation at a time, each correctly rounded; a copy passes its values on (05 R131). ARGMAX and ARGMIN are the caller's. -/
def loupeFacet (func : Nat) (scalar : Bool) (a b d : List Lv) : List Lv :=
  let bAt (i : Nat) : Lv := b.getD (if scalar then 0 else i) (.exact (.fin false 0 0))
  let zip (f : Lv → Lv → Lv) : List Lv := (List.range a.length).map fun i => f (a.getD i (.exact .nan)) (bAt i)
  if func = 0x00 ∨ func = 0x12 then a
  else if func = 0x01 then zip Lv.add
  else if func = 0x03 then zip Lv.mul
  else if func = 0x09 then a.map fun x => .recip x.f32
  else (facetFn true func scalar (a.map (·.f32)) (b.map (·.f32)) (d.map (·.f32))).map .exact

/-- An element: the value that normal mode produced, and that of the reference (05 R129). -/
structure Both where
  norm : FV
  ref : Lv
  deriving DecidableEq, Repr

/-- The reference at work. A place is an element's first bit in the working SRAM of a tile, or in DRAM, which counts as tile 0xFFFF. -/
structure Ref where
  /-- the copy in which normal mode runs -/
  dev : Dev
  /-- elements by place -/
  vals : List (Nat × Both) := []
  /-- accumulator entries by tile × 8,192 + entry -/
  sums : List (Nat × Lv) := []
  /-- what SENDs have carried and no RECV has taken, by channel -/
  sent : List (Nat × List (List (Nat × Both))) := []
  /-- the RECV that waits on a channel: tile, local address, bytes -/
  posted : List (Nat × (Nat × Nat × Nat)) := []
  /-- the REDUCE that has issued at a tree node, with its local values, by tree × 65,536 + node -/
  issued : List (Nat × (Nat × List Lv)) := []
  /-- results of tree nodes on their way to the parent -/
  results : List (Nat × List Lv) := []
  /-- the elements that the layer puts out, by tile of the image × 65,536 + descriptor -/
  outs : List (Nat × List Both) := []
  deriving DecidableEq, Repr

/-- A place. -/
def placeOf (tile bit : Nat) : Nat := tile * 2 ^ 64 + bit

/-- The elements that lie in a byte range, by their bit in it. -/
def Ref.slice (r : Ref) (tile lo n : Nat) : List (Nat × Both) :=
  (r.vals.filter fun e => inRange e.1 (placeOf tile (8 * lo)) (8 * n)).map fun e => (e.1 - placeOf tile (8 * lo), e.2)

/-- A byte range is written: the elements in it are those of a slice. -/
def Ref.fill (r : Ref) (tile lo n : Nat) (s : List (Nat × Both)) : Ref :=
  let rest := r.vals.filter fun e => !inRange e.1 (placeOf tile (8 * lo)) (8 * n)
  { r with vals := s.foldl (fun m e => AMap.insert (placeOf tile (8 * lo) + e.1) e.2 m) rest }

/-- Element `i` of a packed vector of `n` elements in a tile's working SRAM: that of the reference, else the stored one, exact (05 R130). -/
def Ref.elem (r : Ref) (t base fmt n i : Nat) : Lv :=
  match AMap.find r.vals (placeOf t (8 * base + i * fmtBits fmt)) with
  | some b => b.ref
  | none => .exact (elemAt (r.dev.tile t).sram base fmt n i)

/-- The reference holds element `i` of a packed vector. -/
def Ref.holds (r : Ref) (t base fmt i : Nat) : Bool := (AMap.find r.vals (placeOf t (8 * base + i * fmtBits fmt))).isSome

/-- Writes a packed vector that the copy has just written: for each index, the value of the reference; none where it has none. -/
def Ref.putVec (r : Ref) (t base fmt n : Nat) (f : Nat → Option Lv) : Ref :=
  r.fill t base (vecSize fmt n) ((List.range n).filterMap fun i => (f i).map fun v =>
    (i * fmtBits fmt, { norm := elemAt (r.dev.tile t).sram base fmt n i, ref := v }))

/-- An entry of the reference, else the copy's. -/
def Ref.entry (r : Ref) (x : Site) (t i : Nat) : Lv :=
  (AMap.find r.sums (t * 8192 + i)).getD (.exact ((x.entry? i).getD {}).partial_.value)

/-- A weight of the memory tier as an integer, scaled by its planes: from the data member, or decoded by the girdle code where the member is lost (05 R130). -/
def Dev.loupeWeight (d : Dev) (t i : Nat) (p : ProdDesc) : Nat → Nat → Int :=
  match d.standIn t i with
  | some f => f
  | none =>
    match (if d.recoveryProduct t i then (d.girdleOf t).bind fun g => d.recovering g.1.stripe else none) with
    | some (s, k) => d.decodeWeight s k
    | none =>
      let w := d.weightsOf t
      fun r k => p.weight w r k * 3 ^ p.planeBase

/-- Row `i` of the trit operand at K index `k` (05 R130, R131). -/
def Ref.operand (r : Ref) (t : Nat) (p : ProdDesc) (stride : Nat) (w : Nat → Nat → Int) (i k : Nat) : FV :=
  let scale : FV := FV.ofInt (3 ^ p.planeBase) 0
  if !p.wSram then FV.ofInt (w i k) 0
  else if p.wFmt = Fmt.t1 ∨ p.wFmt = Fmt.b1 then
    (FV.ofInt ((trits (memGet (r.dev.tile t).sram (p.wBase + i * stride + k / 5)).toNat).getD (k % 5) 0) 0).mul scale
  else (r.elem t (p.wBase + i * stride) p.wFmt p.k k).f32.mul scale

/-- The product of one row and column, exact (05 R131). -/
def Ref.dot (r : Ref) (t : Nat) (p : ProdDesc) (stride : Nat) (w : Nat → Nat → Int) (i c : Nat) : FV :=
  (List.range p.k).foldl (fun acc k =>
    acc.add ((r.operand t p stride w i k).mul (r.elem t (p.xBase + c * colBytes p.xFmt p.k) p.xFmt p.k k).f32)) (.fin false 0 0)

/-- A product (05 R131): `x` and `stride` as at issue; `d` is the copy after it. Masked pairs take −∞ (10 R254). -/
def Ref.product (r : Ref) (t : Nat) (p : ProdDesc) (d : Dev) : Ref :=
  let x := r.dev.tile t
  let stride := r.dev.prodStride t p
  let (skipped, masked) := if p.causal then r.dev.causalMask t p.wBase p.rows p.cols else ([], [])
  let w := r.dev.loupeWeight t x.seqIndex p
  let at_ (i c : Nat) : Nat := if p.fresh then i % p.bandRows * p.cols + c else p.accBase + i * p.cols + c
  let value (i c : Nat) : Lv :=
    if skipped.contains i || masked.contains (i, c) then .exact (.inf true)
    else
      let v := r.dot t p stride w i c
      if p.accOpen ∨ p.fresh then .exact v else Lv.sum [r.entry x t (at_ i c), .exact v]
  let cells := (List.range p.rows).flatMap fun i => ((List.range p.cols).filter fun c => (x.col c).valid).map fun c => (i, c, value i c)
  let r1 := { r with dev := d, sums := cells.foldl (fun m e => AMap.insert (t * 8192 + at_ e.1 e.2.1) e.2.2 m) r.sums }
  if p.fresh then
    let lo := 64 * p.accBase
    r1.fill t lo (8 * p.rows * p.cols) (cells.map fun e =>
      let o := 8 * (e.1 * p.cols + e.2.1)
      (8 * o, { norm := (partialOf (memNat (d.tile t).sram (lo + o) 8)).value, ref := e.2.2 }))
  else r1

/-- A LOG_PRODUCT (05 R131): the products of its operands' values, summed exactly in each group. -/
def Ref.logProduct (r : Ref) (t : Nat) (p : LogDesc) (d : Dev) : Ref :=
  let x := r.dev.tile t
  let n := 512 / 2 ^ p.groups
  let operand (base : Nat) (l8 : Bool) (bcast cyc lane : Nat) : FV :=
    (r.elem t base (if l8 then Fmt.l8 else Fmt.l16) 0 (cyc * (512 / 2 ^ bcast) + lane / 2 ^ bcast)).f32
  let value (g : Nat) : FV := (List.range p.nCycles).foldl (fun acc cyc => (List.range n).foldl (fun acc i =>
    acc.add ((operand p.xBase p.xL8 p.xBcast cyc (g * n + i)).mul (operand p.yBase p.yL8 p.yBcast cyc (g * n + i)))) acc) (.fin false 0 0)
  let sum (g : Nat) : Lv :=
    let v : Lv := if p.antilog then .part (value g) else .exact (value g)
    if p.accOpen then v else Lv.sum [r.entry x t (p.accBase + g), v]
  { r with dev := d, sums := (List.range (2 ^ p.groups)).foldl (fun m g => AMap.insert (t * 8192 + p.accBase + g) (sum g) m) r.sums }

/-- The local values of a REDUCE (06 R155). -/
def Ref.partials (r : Ref) (t : Nat) (tr : TreeRec) (p : RedDesc) : List Lv :=
  let x := r.dev.tile t
  let size := if p.srcSel = 1 && tr.best then 16 else 8
  let stored (i : Nat) : FV := ((redLocal x tr p).getD i { sig := 0, exp := 0, tag := 0, kind := 0 }).value
  (List.range p.count).map fun i =>
    if p.srcSel = 0 then r.entry x t (p.src % 8192 + i)
    else match AMap.find r.vals (placeOf t (8 * (p.src + size * i))) with
      | some b => b.ref
      | none => .exact (stored i)

/-- A root writes its result: entries hold it exact, words of working SRAM beside the normal value; a wide F32 result and a pair are rounded (04 R109, 06 R155). -/
def Ref.redWrite (r : Ref) (t : Nat) (tr : TreeRec) (p : RedDesc) (vs : List Lv) : Ref :=
  let idx := (List.range vs.length).zip vs
  if p.dstSram || tr.wide then
    let size := redOutSize tr p
    let short := size = 4 ∨ (tr.best ∧ size = 8)
    let norm (i : Nat) : FV :=
      let m := (r.dev.tile t).sram
      if short then of32 (memNat m (p.dst + size * i) 4)
      else if size = 16 then (partialPairOf (memNat m (p.dst + 16 * i) 8) (memNat m (p.dst + 16 * i + 8) 8)).value
      else (partialOf (memNat m (p.dst + 8 * i) 8)).value
    r.fill t p.dst (p.count * size) (idx.map fun e => (8 * size * e.1, { norm := norm e.1, ref := if short then .exact e.2.f32 else e.2 }))
  else { r with sums := idx.foldl (fun m e => AMap.insert (t * 8192 + p.dst % 8192 + e.1) e.2 m) r.sums }

/-- A node whose own values and inputs are there gives its result to its parent, and so on; the root writes it (04 R104). -/
def Ref.foldUp (r : Ref) (tr : TreeRec) (i : Nat) : Nat → Ref
  | 0 => r
  | fuel + 1 =>
    let key (j : Nat) : Nat := tr.id * 65536 + j
    let kids := (tr.inputsOf i).map (·.2)
    match AMap.find r.issued (key i), tr.nodes[i]? with
    | some (n, loc), some nd =>
      if !(kids.all fun j => (AMap.find r.results (key j)).isSome) then r
      else
        let ins := kids.map fun j => (AMap.find r.results (key j)).getD []
        let vs := (List.range loc.length).map fun e =>
          let xs := loc[e]?.toList ++ ins.filterMap fun l => l[e]?
          if tr.best then Lv.best (tr.cls == 3) xs else Lv.sum xs
        let r1 := { r with issued := AMap.erase (key i) r.issued, results := kids.foldl (fun m j => AMap.erase (key j) m) r.results }
        if nd.isRoot then r1.redWrite (r.dev.hostOf nd.tile) tr (redDesc n) vs
        else ({ r1 with results := AMap.insert (key i) vs r1.results }).foldUp tr nd.parent fuel
    | _, _ => r

/-- REDUCE: the values enter the node. In a recovery tree the root's product has already been formed of the decoded weights, and stands for the result (09 R220). -/
def Ref.reduce (r : Ref) (t n : Nat) (d : Dev) : Ref :=
  let p := redDesc n
  let r1 := { r with dev := d }
  match r.dev.treeRec p.tree with
  | none => r1
  | some tr => match r.dev.nodeAt tr t with
    | none => r1
    | some (i, nd) =>
      let loc := r.partials t tr p
      if r.dev.recoveryTree p.tree then (if nd.isRoot then r1.redWrite t tr p loc else r1)
      else ({ r1 with issued := AMap.insert (tr.id * 65536 + i) (n, loc) r1.issued }).foldUp tr i (tr.nodes.length + 1)

/-- REQUANT: the values pass on unchanged, those of sums rounded to F32 (05 R131); those of valid columns. -/
def Ref.requant (r : Ref) (t : Nat) (p : ReqDesc) (d : Dev) : Ref :=
  let x := r.dev.tile t
  let source (c j : Nat) : Lv :=
    if p.srcSel = 0 then r.entry x t (p.src % 8192 + j * p.cols + c)
    else if p.srcSel = 1 then match AMap.find r.vals (placeOf t (8 * (p.src + 8 * (j * p.cols + c)))) with
      | some b => b.ref
      | none => .exact (partialOf (memNat x.sram (p.src + 8 * (j * p.cols + c)) 8)).value
    else r.elem t (p.src + c * colBytes Fmt.f32 p.count) Fmt.f32 p.count j
  let pass (v : Lv) : Lv := match v with
    | .exact w => .exact (round32 w)
    | w => w
  (List.range p.cols).foldl (fun (q : Ref) c => q.putVec t (p.dst + c * colBytes p.fmt p.count) p.fmt p.count fun j =>
    if (x.col c).valid then some (pass (source c j)) else none) { r with dev := d }

/-- FACET_OP. It knows no columns: an element has a value of the reference where one that it reads has, or where none of the operands' elements has. -/
def Ref.facet (r : Ref) (t : Nat) (p : FacetDesc) (d : Dev) : Ref :=
  let a := (List.range p.count).map (r.elem t p.aBase p.aFmt p.count)
  let b := (List.range p.bCount).map (r.elem t p.bBase p.bFmt p.bCount)
  let e := if p.func = 0x04 then (List.range p.count).map (r.elem t p.dBase p.dFmt p.count) else []
  let has (i : Nat) : Bool := r.holds t p.aBase p.aFmt i ||
    (p.bCount != 0 && r.holds t p.bBase p.bFmt (if p.scalar then 0 else i)) || (p.func == 0x04 && r.holds t p.dBase p.dFmt i)
  let some_ := (List.range p.count).any has
  let r1 := { r with dev := d }
  if p.arg then
    r1.fill t p.dBase 8 [(0, { norm := of32 (memNat (d.tile t).sram p.dBase 4), ref := .exact (Lv.best (p.func == 0x0F) a).f32 })]
  else
    let vs := loupeFacet p.func p.scalar a b e
    r1.putVec t p.dBase p.dFmt p.dCount fun i => if has i || !some_ || p.dCount == 1 then vs[i]? else none

/-- A byte range moves as it is. -/
def Ref.copy (r : Ref) (src lo dst a n : Nat) : Ref := r.fill dst a n (r.slice src lo n)

/-- The elements that a layer puts out: what its sections send on data and rim channels, and the candidates of its SAMPLE (log entry 51). -/
def Ref.emit (r : Ref) (t i : Nat) (bs : List Both) : Ref :=
  let k := r.dev.guestOf t * 65536 + i
  { r with outs := AMap.insert k ((AMap.find r.outs k).getD [] ++ bs) r.outs }

/-- SEND (06 R159): the elements go to the RECV that waits, or wait for one. -/
def Ref.send (r : Ref) (t i c lo n : Nat) : Ref :=
  let s := r.slice t lo n
  let r1 := r.emit t i (s.map (·.2))
  match AMap.find r1.posted c with
  | some (u, a, m) => ({ r1 with posted := AMap.erase c r1.posted }).fill u a m (s.filter fun e => e.1 < 8 * m)
  | none => { r1 with sent := AMap.insert c ((AMap.find r1.sent c).getD [] ++ [s]) r1.sent }

/-- RECV (06 R159). -/
def Ref.recv (r : Ref) (t c lo n : Nat) : Ref :=
  match (AMap.find r.sent c).getD [] with
  | s :: rest => ({ r with sent := AMap.insert c rest r.sent }).fill t lo n (s.filter fun e => e.1 < 8 * n)
  | [] => { r with posted := AMap.insert c (t, lo, n) r.posted }

/-- What a descriptor that has run does in the reference; `d` is the copy after it. -/
def Ref.after (r : Ref) (t n : Nat) (d : Dev) : Ref :=
  let i := (r.dev.tile t).seqIndex
  let r1 := { r with dev := d }
  match n % 64 with
  | 0x01 => r.product t (prodDesc false n) d
  | 0x02 => r.product t (prodDesc true n) d
  | 0x03 => r.logProduct t (logDesc n) d
  | 0x08 => r.reduce t n d
  | 0x09 => r.requant t (reqDesc n) d
  | 0x0A => r.facet t (facetDesc n) d
  | 0x0B =>
    let p := sampleDesc n
    let at_ (k : Nat) : Nat := p.src + k * (if p.pairs then 8 else 4)
    if ((r.dev.tile t).col p.column).valid then
      r1.emit t i ((List.range p.count).map fun k => { norm := of32 (memNat (r.dev.tile t).sram (at_ k) 4), ref := r.elem t (at_ k) Fmt.f32 1 0 })
    else r1
  | 0x10 =>
    let (c, lo, bytes, _) := chanDesc n
    r1.send t i c lo bytes
  | 0x11 =>
    let (c, lo, bytes, _) := chanDesc n
    r1.recv t c lo bytes
  | 0x12 =>
    let (_, _, lo, bytes, a) := dramDesc n
    r1.copy 0xFFFF a t lo bytes
  | 0x13 =>
    let (_, _, lo, bytes, a) := dramDesc n
    r1.copy t lo 0xFFFF a bytes
  | 0x14 => r1.fill t (bitsOf n 14 19) (kvDesc n).2.2.2.2 []
  | 0x3F => { r1 with sums := r1.sums.filter fun e => e.1 / 8192 != t }
  | _ => r1

/-- One descriptor on the copy, by its opcode (06 R148). -/
def Dev.runDesc (d : Dev) (t n : Nat) : Dev :=
  let desc := BitVec.ofNat 128 n
  match n % 64 with
  | 0x01 => effMatmulTable t desc {} d
  | 0x02 => effMatmulDirect t desc {} d
  | 0x03 => effLogProduct t desc {} d
  | 0x08 => effReduce t desc {} d
  | 0x09 => effRequant t desc {} d
  | 0x0A => effFacetOp t desc {} d
  | 0x0B => effSample t desc {} d
  | 0x10 => effSend t desc {} d
  | 0x11 => effRecv t desc {} d
  | 0x12 => effDramRead t desc {} d
  | 0x13 => effDramWrite t desc {} d
  | 0x14 => effKvFetch t desc {} d
  | 0x15 => effKvStore t desc {} d
  | 0x16 => effResidLoad t desc {} d
  | 0x17 => effResidStore t desc {} d
  | 0x20 => effWaitToken t desc {} d
  | 0x21 => effFenceFormat t desc {} d
  | 0x3F => effEndSection t desc {} d
  | _ => effOpcodeInvalid t desc {} d

/-- What is in flight on the copy arrives: channel flits, then the transfers of tokens, in issue order. The order in which things arrive changes no value (04 R114). -/
def Dev.settleAll (d : Dev) : Dev :=
  let d1 := d.mesh.chans.foldl (fun (d : Dev) e => match d.chanRec e.1 with
    | some r => (d.chan e.1).flight.foldl (fun (d : Dev) f => d.arrive e.1 r f) (d.setChan e.1 { d.chan e.1 with flight := [] })
    | none => d) d
  d1.workTiles.foldl (fun (d : Dev) t =>
    (sortBy (fun (a b : Nat × Tok) => decide (a.2.seq < b.2.seq)) (d.tile t).tokens).foldl (fun (d : Dev) k => effTokenDone t k.1 none d) d) d1

/-- One descriptor of a tile, on the copy and in the reference: nothing of the latter where it waits for room or has faulted. -/
def Ref.step (r : Ref) (t : Nat) : Ref :=
  let x := r.dev.tile t
  let n := memNat x.sram (x.progBase + 64 + 16 * x.seqIndex) 16
  let d := r.dev.runDesc t n
  let y := d.tile t
  let d1 := d.settleAll
  if y.seqState = 3 ∨ (y.seqState = 2 ∧ y.ready) then { r with dev := d1 } else r.after t n d1

/-- A tile runs as far as it can; `fuel` bounds its descriptors. -/
def Ref.runTile (r : Ref) (t : Nat) : Nat → Ref
  | 0 => r
  | fuel + 1 => if (r.dev.tile t).ready then (r.step t).runTile t fuel else r

/-- The tiles run in turn until none can go on; `fuel` bounds the rounds. -/
def Ref.runTiles (r : Ref) : Nat → Ref
  | 0 => r
  | fuel + 1 => (r.dev.workTiles.foldl (fun (r : Ref) t => r.runTile t (r.dev.tile t).progBytes) r).runTiles fuel

/-- Rounds after which every descriptor of an image has run. -/
def Image.rounds (im : Image) : Nat := (im.tiles.map fun r => r.progBytes / 16).foldl (· + ·) 1

/-- Every element takes the value that normal mode gave it (05 R130). -/
def Ref.asNormal (r : Ref) : Ref := { r with vals := r.vals.map fun e => (e.1, { e.2 with ref := .exact e.2.norm }) }

/-- One layer for the column: a beat of the copy. The first layer is fed by the rim. `anew`: the layer takes its normal-mode input (05 R130). -/
def Ref.layer (r : Ref) (w : Wave) (l : Nat) (anew : Bool) : Ref :=
  let wl := { w with stage := l }
  let d := { r.dev with serve := { r.dev.serve with waves := [wl], between := false } }
  let d1 := (if l = 0 then d.feedRim wl else d).startSections
  let r1 := ({ (if anew then r.asNormal else r) with dev := d1, outs := [] }).runTiles d1.image.rounds
  let d2 := r1.dev.emptyMesh
  { r1 with sums := [], sent := [], posted := [], issued := [], results := [],
            dev := { d2 with wafer := { d2.wafer with sites := d2.wafer.sites.map fun e =>
              (e.1, { e.2 with seqState := 0, todo := [], table := none, tokens := [], entries := [] }) } } }

/-- The elements of layers [first, first + n) for a column, and of each only those; the layers below are run for the first one's input (05 R129, R130). -/
def Ref.layers (r : Ref) (w : Wave) (first : Nat) (chain : Bool) : Nat → Nat → List Both
  | _, 0 => []
  | l, n + 1 =>
    let r1 := r.layer w l (l ≤ first || !chain)
    (if first ≤ l then r1.outs.flatMap (·.2) else []) ++ r1.layers w first chain (l + 1) n

/-- The wave of one committed position of a stream, alone (05 R129). -/
def Dev.loupeWave (d : Dev) (i pos : Nat) : Wave :=
  { draft := false, stage := 0, entry := d.beat, version := d.rd Reg.activeVersion, modes := d.rd Reg.modeSplit, reserve := [],
    cols := [{ stream := i, position := pos, token := ((d.stream? i).map fun s => s.token pos).getD 0, rank := 0, kind := 0, slot := 0 }] }

/-- The pairs of a LOUPE_RUN (05 R129-R131): for layers `first` to `last`, each element put out, by layer, tile, descriptor and address. -/
def Dev.loupePairs (d : Dev) (i pos first last : Nat) (chain : Bool) : List Both :=
  Ref.layers { dev := d.emptyMesh } (d.loupeWave i pos) first chain 0 (last + 1)

/-- A pair as the result buffer holds it: the normal value converted under R55, then the loupe value (05 R129). -/
def Both.bytes (b : Both) : List Byte := leBytes 4 (encodeFmt Fmt.f32 b.norm).code ++ leBytes 4 (code32 b.ref.f32)

end Sys2Proof.Machine
end

