-- ==== Sys2Proof/Machine/Loupe.lean ====
section
/-! DEFINITION. Loupe mode (05 R129-R132): what LOUPE_RUN names and holds, and its end with the pairs of the reference. -/
namespace Sys2Proof.Machine

/-- The row of LOUPE_RUN (12 R313). -/
def rowLoupeRun : Row :=
  { op := 0x70, classes := 4, params := [(8, 2), (10, 1), (12, 2), (14, 2), (16, 8), (24, 8), (32, 4)] }

/-- Starts a LOUPE_RUN (05 R129, R131, 10 R256, R260): the position is committed, the layers are the image's and none of them holds a reduction of more than 2^24 terms; DROPPED and REMOTE blocks are awaited; then the pages are held and new waves wait. -/
def startLoupeRun (r : Rhoic) (d : Dev) : Start :=
  let i := arg r 8 2
  let first := arg r 12 2
  let last := arg r 14 2
  let pos := arg r 16 8
  match d.named r i false true with
  | .inl p => .done p d
  | .inr s =>
    if 1 < arg r 10 1 then .done (bad St.paramRange 10) d
    else if last < first then .done (bad St.paramRange 12) d
    else if d.image.stagesM1 < last then .done (bad St.paramRange 14) d
    else if s.committed ≤ pos then .done (bad St.paramRange 16) d
    else match d.image.loupeOut.find? fun l => first ≤ l && l ≤ last with
    | some l => .done (bad St.loupeRange l) d
    | none =>
      let n := pos / 256 + 1
      (d.outBeyond r (arg r 24 8) (arg r 32 4)).getD <|
      if [0x11, 0x12, 0x14, 0x70].any (fun op => !(d.jobs op).isEmpty) || d.awayBelow i n || d.holdsFull i n then .wait d
      else .run { op := 0x70, req := r, arg := i, arg2 := n } ((d.pinBlocks i n true).hold 6)

/-- LOUPE_RUN (05 R129). -/
def execLoupeRun (r : Rhoic) (s : State) : Host.Outcome State Fault Refusal :=
  s.next (s.dev.rhoic rowLoupeRun [.stream (arg r 8 2)] r (startLoupeRun r))

/-- The bytes that the reference leaves in the result buffer (05 R129-R131): as many of the pairs as it holds (DESIGN CHOICE, log entry 51). -/
def Dev.loupeBytes (d : Dev) (r : Rhoic) : List Byte :=
  ((d.loupePairs (arg r 8 2) (arg r 16 8) (arg r 12 2) (arg r 14 2) (arg r 10 1 == 1)).flatMap (·.bytes)).take (arg r 32 4)

/-- The end of one LOUPE_RUN: its buffer is written, its hold given up, issue released, its command complete. -/
def Dev.closeLoupe (d : Dev) (j : Job) : Dev :=
  let bs := d.loupeBytes j.req
  let d1 := d.endLoupe j
  match d1.bufOut j.req (arg j.req 24 8) bs {} with
  | .done p d2 => d2.finishJob j p
  | _ => d1

/-- A page that a LOUPE_RUN holds has been dropped: it gives up its hold and issue, waits until the block stands again, and then starts anew (10 R256, R260). -/
def Dev.waitLoupe (d : Dev) (j : Job) : Dev :=
  let d1 := d.endLoupe j
  ({ d1 with io := { d1.io with running := d1.io.running.erase j } }).defer { j with arg := 0, arg2 := 0 }

/-- The reference of a LOUPE_RUN ends, once no wave is in flight (05 R129). -/
def effLoupeReferenceDone (d : Dev) : Dev :=
  if !d.drained then d
  else (d.jobs 0x70).foldl (fun d j => if d.awayBelow j.arg j.arg2 then d.waitLoupe j else d.closeLoupe j) d

/-- LOUPE_REFERENCE_DONE (05 R129). -/
def execLoupeReferenceDone (s : State) : Host.Outcome State Fault Refusal := s.next (effLoupeReferenceDone s.dev)

end Sys2Proof.Machine
end

