-- ==== Sys2Proof/Machine/Pins.lean ====
section
/-! DEFINITION. Pins and ports: STEP_SYNC (11 R294-R296, 23 R485), PPS and PTP (15 R359, 23 R483), ALERT_N (23 R484), the service LEDs (23 R486), Ethernet ports and their cable modules (15 R350-R352, R373, 23 R493). -/
namespace Sys2Proof.Machine

/-- The cycles between two pulses that a leader at σ = 0 would send (11 R295). -/
def Dev.pulseCycles (d : Dev) : Nat := (d.rd Reg.syncDiv + 1) * d.image.beatCycles

/-- The stretch that a measured interval gives: clamped to 0 to 0.25, in units of 2^−16 (11 R295 step 3). -/
def Dev.stretchFor (d : Dev) (interval : Nat) : Nat := 
  min 16384 (rounded 5 (((interval : Int) - d.pulseCycles) * 65536) d.pulseCycles).toNat

/-- The interval asks for more than a stretch of 25 % (11 R295 step 3). -/
def Dev.stretchOver (d : Dev) (interval : Nat) : Bool := decide (5 * d.pulseCycles < 4 * interval)

/-- A pulse delays the next boundary and is counted for `LOCKED` (11 R295 steps 1 and 2). -/
def Dev.takePhase (d : Dev) (cycle : Nat) : Dev :=
  let b := d.period
  let e := (((cycle : Int) + (d.rd Reg.syncOffset : Nat) - (d.nextBoundary : Nat)) % (b : Int)).toNat
  let good := e ≤ 64 || b ≤ e + 64
  let n := if good then min 16 (d.serve.syncGood + 1) else 0
  let d1 := d.wr Reg.syncPhaseErr (e % 2 ^ 24)
  let d2 := { d1 with serve := { d1.serve with beatDelay := d1.serve.beatDelay + min e (rounded 7 b 4).toNat, syncGood := n } }
  if !good then d2.wr Reg.syncLocked 0 else if n = 16 then d2.wr Reg.syncLocked 1 else d2

/-- The stretch from the interval since the last pulse; beyond 25 % `RANGE` is set and STEP_SYNC_RANGE raised with the stretch needed (11 R295 step 3, R296). -/
def Dev.takeInterval (d : Dev) (interval : Nat) : Dev :=
  let d1 := d.wr Reg.syncStretch (d.stretchFor interval)
  if d.stretchOver interval then
    (d1.raise { code := Rc.stepSyncRange, detail := min 0xFFFF (rounded 6 (((interval : Int) - d.pulseCycles) * 1024) d.pulseCycles).toNat, source := 71 }).setW1c
      Reg.syncRange 71 true
  else d1

/-- A pulse on STEP_SYNC_IN at an array cycle (11 R294, R295, 13 R331): it is latched; a follower obeys it while beats run. -/
def effStepSyncPulse (cycle : Nat) (d : Dev) : Dev :=
  let obeys := d.serve.syncMode == 2 && d.imgActive && !d.serve.between && d.rd Reg.pstate == 0
  let interval := if obeys then d.serve.syncLast.map (fun l => cycle - l) else none
  let tooLong := match interval with
    | some i => d.stretchOver i
    | none => false
  let d1 := d.latchEdge 0 tooLong
  if !obeys then d1
  else
    let d2 := d1.takePhase cycle
    let d3 := { d2 with serve := { d2.serve with syncLast := some cycle } }
    match interval with
    | some i => d3.takeInterval i
    | none => d3

/-- STEP_SYNC_PULSE (11 R295). -/
def execStepSyncPulse (cycle : Nat) (s : State) : Host.Outcome State Fault Refusal := s.next (effStepSyncPulse cycle s.dev)

/-- No pulse for four expected intervals: a follower keeps σ, `LOST` is set, STEP_SYNC_LOST (11 R295, R296). -/
def effStepSyncLost (d : Dev) : Dev :=
  if d.serve.syncMode ≠ 2 then d
  else (d.raise { code := Rc.stepSyncLost, detail := 0, source := 71 }).setW1c Reg.syncLost 71 true

/-- STEP_SYNC_LOST (11 R295). -/
def execStepSyncLost (s : State) : Host.Outcome State Fault Refusal := s.next (effStepSyncLost s.dev)

/-- Nanoseconds in a second. -/
def nsPerSecond : Nat := 1000000000

/-- A pulse on PPS_IN that stays high for a time (13 R331, 15 R359, 23 R483): latched from 5 ns; from 100 ns to 900 ms it marks the second where `TIME_SRC` is 1: `DEVICE_TIME` goes to the nearest one (DEDUCED, log entry 53). -/
def effPpsIn (highNs : Nat) (d : Dev) : Dev :=
  if highNs < 5 then d
  else
    let d1 := d.latchEdge 1 false
    if d1.rd Reg.timeSrc = 1 ∧ 100 ≤ highNs ∧ highNs ≤ 900000000 ∧ d1.pwr.aonOn ∧ 7 ≤ d1.rd Reg.stage then
      d1.wr Reg.deviceTime ((d1.rd Reg.deviceTime + nsPerSecond / 2) / nsPerSecond * nsPerSecond)
    else d1

/-- PPS_IN (23 R483). -/
def execPpsIn (highNs : Nat) (s : State) : Host.Outcome State Fault Refusal := s.next (effPpsIn highNs s.dev)

/-- ALERT_N is pulled low from outside for at least 1 µs while the W36 releases it: management attention (13 R331, 23 R484). -/
def effAlertNAttention (lowNs : Nat) (d : Dev) : Dev :=
  if lowNs < 1000 || d.alertDrives then d else d.latchEdge 5 false

/-- ALERT_N_ATTENTION (23 R484). -/
def execAlertNAttention (lowNs : Nat) (s : State) : Host.Outcome State Fault Refusal := s.next (effAlertNAttention lowNs s.dev)

/-- A PTP message (15 R359): the offset, the lock within ±100 ns for 16 s and its loss, and `DEVICE_TIME` where `TIME_SRC` is 0. -/
def effPtpMessage (x : PtpSample) (d : Dev) : Dev :=
  if 16 ≤ x.port || !d.portLive x.port then d
  else
    let d1 := d.wr Reg.ptpOffset (BitVec.ofInt 32 x.offset).toNat
    let d2 := if d1.rd Reg.timeSrc = 0 then d1.wr Reg.deviceTime (x.time % 2 ^ 64) else d1
    if x.offset.natAbs ≤ 100 then
      let since := d2.fab.lockSince.getD x.time
      let d3 := { d2 with fab := { d2.fab with lockSince := some since } }
      if 16 * nsPerSecond ≤ x.time - since then d3.wr Reg.ptpLocked 1 else d3
    else
      let d3 := { d2 with fab := { d2.fab with lockSince := none } }
      if d3.bit Reg.ptpLocked then
        ((d3.wr Reg.ptpLocked 0).raise { code := Rc.ptpUnlocked, detail := x.port, source := 70, unitKind := 5, unit := x.port }).setW1c
          Reg.ptpErrUnlock 70 true
      else d3

/-- PTP_MESSAGE (15 R359). -/
def execPtpMessage (x : PtpSample) (s : State) : Host.Outcome State Fault Refusal := s.next (effPtpMessage x s.dev)

/-- The record of a port. -/
def portOcc (code p : Nat) : Occ := { code := code, detail := p, source := 50 + p, unitKind := 5, unit := p }

/-- A port is lost (15 R351): down beyond 100 ms, or its uncorrected codewords, whose number is free, above 1 in 10^6 (log entry 54). Its paths go down. -/
def effPortDown (port : Nat) (fec : Bool) (d : Dev) : Dev :=
  let p := port % 16
  if d.rd Reg.stage < 6 || !d.bit (Reg.linkUp p) then d
  else
    let d1 := d.raise (portOcc Rc.portDown p)
    let d2 :=
      if fec then
        ({ d1 with freeCtr := d1.freeCtr + 1 }).wr (Reg.fecUncorr p)
          ((d1.rd (Reg.fecUncorr p) + (Config.freeWord d1.freeCtr).toNat) % 2 ^ 32)
      else (d1.wr (Reg.linkUp p) 0).setW1c (Reg.errDown p) (50 + p) true
    let d3 := d2.wr (Reg.portLost p) 1
    { d3 with fab := { d3.fab with upSince := AMap.erase p d3.fab.upSince } }.planeDown p

/-- PORT_DOWN (15 R351). -/
def execPortDown (port : Nat) (fec : Bool) (s : State) : Host.Outcome State Fault Refusal := s.next (effPortDown port fec s.dev)

/-- The module in a port's cage lets the port come up: CR8 or DR8, and at most 15 W (15 R350, 23 R493). -/
def moduleFits (m : Nat × Nat) : Bool := m.1 ≤ 1 && m.2 ≤ 15

/-- The module of a port, where one has been detected, fits. -/
def Dev.cageFits (d : Dev) (p : Nat) : Bool := match AMap.find d.fab.modules p with
  | some m => moduleFits m
  | none => true

/-- A port comes up (15 R350, R373, 20 R445): PORT_UP. A port that was lost stays degraded for 1 s; its paths are probed before they carry traffic again. -/
def effPortUp (port : Nat) (d : Dev) : Dev :=
  let p := port % 16
  if d.rd Reg.stage < 6 || 4 ≤ d.rd Reg.pstate || !d.cageFits p || d.portLive p then d
  else
    let d1 := if d.bit (Reg.portLost p) then { d with fab := { d.fab with upSince := AMap.insert p d.tick d.fab.upSince } } else d
    let d2 := ((d1.wr (Reg.linkUp p) 1).wr (Reg.portLost p) 0).raise (portOcc Rc.portUp p)
    (d2.fab.assocs.map (·.1)).foldl (fun (d : Dev) peer => (d.pump peer).showPaths peer) d2

/-- PORT_UP (15 R373). -/
def execPortUp (port : Nat) (s : State) : Host.Outcome State Fault Refusal := s.next (effPortUp port s.dev)

/-- A cable module is inserted in a cage, or removed from it (`kind` 3) (15 R350, 23 R493): the PHY follows it; a module that does not fit leaves the port down with `ERR_DOWN`, one that needs more than 15 W unpowered. -/
def effCableModuleDetected (port kind watts : Nat) (d : Dev) : Dev :=
  let p := port % 16
  let d0 := { d with fab := { d.fab with modules := AMap.insert p (kind, watts) d.fab.modules } }
  if d0.rd Reg.stage < 6 || 4 ≤ d0.rd Reg.pstate then d0
  else
    let d1 := if d0.bit (Reg.linkUp p) then (d0.wr (Reg.linkUp p) 0).planeDown p else d0
    let d2 := d1.emit (.portPower p (kind != 3 && watts ≤ 15))
    if moduleFits (kind, watts) then d2.wr (Reg.portPhy p) kind
    else if kind = 3 then (if d0.bit (Reg.linkUp p) then d2.setW1c (Reg.errDown p) (50 + p) else d2)
    else d2.setW1c (Reg.errDown p) (50 + p)

/-- CABLE_MODULE_DETECTED (15 R350). -/
def execCableModuleDetected (port kind watts : Nat) (s : State) : Host.Outcome State Fault Refusal :=
  s.next (effCableModuleDetected port kind watts s.dev)

/-- What a service LED shows (23 R486): off, on, or its blink rate in quarter Hz. -/
inductive Led where
  | off
  | on
  | blink (quarterHz : Nat)
  deriving DecidableEq, Repr

/-- SVC_LED_RUN (23 R486). -/
def Dev.ledRun (d : Dev) : Led :=
  if d.bit Reg.stalled then .blink 16
  else if 4 ≤ d.rd Reg.pstate || !d.pwr.aonOn then .off
  else if d.rd Reg.stage < 7 then .blink 4
  else if d.rd Reg.pstate = 0 then .on
  else .blink 1

/-- SVC_LED_TRAY (23 R486). -/
def Dev.ledTray (d : Dev) : Led := if bitOf (d.rd Reg.svcRequest) 0 then .on else .off

/-- SVC_LED_HUM (23 R486). -/
def Dev.ledHum (d : Dev) : Led :=
  if bitOf (d.rd Reg.svcRequest) 1 then .on else if d.pwr.humAlarm then .blink 16 else .off

end Sys2Proof.Machine
end

