-- ==== Sys2Proof/Machine/Fabric.lean ====
section
/-! DEFINITION. What a device receives from the fabric and how it answers: DATA, ACK, NACK and PROBE packets, timers, keys (15 R354-R358, 21 R461-R463), system control (15 R360-R369, 16 R383, 19 R425), and the commands of membership (15 R362, R365, R367). -/
namespace Sys2Proof.Machine

/-- A device whose packets are taken: a member, one that joins or leaves; a device that joins itself and has no table yet takes every one (15 R354). -/
def Dev.knows (d : Dev) (src : Nat) : Bool :=
  (match AMap.find d.fab.table src with
    | some m => m.state == 1 || m.state == 2 || m.state == 3
    | none => false) || (d.fab.table.isEmpty && !(d.jobs 0x60).isEmpty)

/-- The sender that a header names. -/
def srcOf (p : NPkt) : Nat := bitsOf p.hdr.toNat 16 10

/-- A packet that is discarded and counted (15 R354, 21 R461-R463): an unknown version or type, a reserved bit, an unknown sender, a tag that verifies neither under the key it selects nor, for 100 ms, under the key before it, a key that is not in place. -/
def Dev.rxBad (d : Dev) (type : Nat) (stranger : Bool) (p : NPkt) : Bool :=
  let h := p.hdr.toNat
  let a := d.assoc (srcOf p)
  bitsOf h 0 4 != 1 || bitsOf h 4 4 != type || bitsOf h 14 2 != 0 || bitsOf h 179 13 != 0 || bitsOf h 240 16 != 0 ||
    !(d.knows (srcOf p) || stranger) || !(p.tagOk || (p.prevOk && a.prevKey)) || (type == 0 && !a.keyed) ||
    (bitOf h 12 && !a.tenantKeys.contains (bitsOf h 36 12))

/-- A packet of a type that reaches this device: discarded and counted in `AUTH_DROP`, or taken (15 R354). -/
def Dev.receive (d : Dev) (type : Nat) (stranger : Bool) (p : NPkt) (f : Dev → Dev) : Dev :=
  if d.rd Reg.stage < 6 || 4 ≤ d.rd Reg.pstate || !d.bit (Reg.linkUp (p.port % 16)) then d
  else if d.rxBad type stranger p then d.bump Reg.authDrop
  else f d

/-- The psn values up to `n` that have not come (15 R356). -/
def Assoc.missing (a : Assoc) (n : Nat) : List Nat :=
  ((List.range ((n - a.rxNext) % 2 ^ 32)).map fun i => (a.rxNext + i) % 2 ^ 32).filter fun x => !a.rxSeen.contains x

/-- Advances past what has come in a row. -/
def Assoc.settleRx (a : Assoc) : Nat → Assoc
  | 0 => a
  | fuel + 1 =>
    if a.rxSeen.contains a.rxNext then
      ({ a with rxNext := (a.rxNext + 1) % 2 ^ 32, rxSeen := a.rxSeen.erase a.rxNext }).settleRx fuel
    else a

/-- A packet has been received already (15 R355): below the cumulative psn, or noted above it. -/
def Assoc.seen (a : Assoc) (psn : Nat) : Bool := 2 ^ 31 ≤ (psn + 2 ^ 32 - a.rxNext) % 2 ^ 32 || a.rxSeen.contains psn

/-- The payload of an ACK (15 R356; layout: log entry 9): the next psn expected, the bitmap of the 256 that follow it, an echo of a congestion mark. -/
def Assoc.ackBytes (a : Assoc) : List Byte :=
  leBytes 4 a.rxNext ++
    leBytes 32 ((List.range 256).foldl (fun n i => if a.rxSeen.contains ((a.rxNext + 1 + i) % 2 ^ 32) then n + 2 ^ i else n) 0) ++
    leBytes 1 (b2n a.ceMark)

/-- Sends an ACK on a path (15 R356). -/
def Dev.sendAck (d : Dev) (peer k : Nat) : Dev :=
  let a := d.assoc peer
  (d.setAssoc peer { a with unacked := 0, ceMark := false }).sendBare 1 peer k a.ackBytes

/-- Bytes of a message that have come. -/
def RxMsg.held (m : RxMsg) : Nat := (m.parts.map fun x => x.2.length).foldl (· + ·) 0

/-- The bytes of a message by ascending offset. -/
def RxMsg.bytes (m : RxMsg) : List Byte := (sortBy (fun (a b : Nat × List Byte) => decide (a.1 < b.1)) m.parts).flatMap (·.2)

/-- Places a payload in its message; one that would reach beyond 64 MiB has no place (15 R355). -/
def Assoc.place (a : Assoc) (flow num cls : Nat) (tenant : Option Nat) (off : Nat) (last : Bool) (bs : List Byte) : Assoc :=
  if 2 ^ 26 < off + bs.length then a
  else
    let old := (a.msgs.find? fun (m : RxMsg) => m.flow == flow && m.num == num).getD
      { flow := flow, num := num, cls := cls, tenant := tenant, total := none, parts := [] }
    let m : RxMsg := { old with total := if last then some (off + bs.length) else old.total, parts := old.parts ++ [(off, bs)] }
    { a with msgs := m :: a.msgs.filter fun (x : RxMsg) => !(x.flow == flow && x.num == num) }

/-- The wave record and the rim data of a class-1 message between segments (15 R364; layout: log entry 9). -/
def handoffOf (b : List Byte) : Handoff :=
  let n := numAt b 5 1
  { src := numAt b 1 2, chan := numAt b 3 2,
    cols := (List.range n).map (fun j =>
      (numAt b (6 + 12 * j) 2, numAt b (8 + 12 * j) 1, numAt b (9 + 12 * j) 5, numAt b (14 + 12 * j) 4)),
    data := b.drop (6 + 12 * n) }

/-- A complete handoff message waits for the next boundary at which its wave enters (15 R364). -/
def Dev.takeHandoff (d : Dev) (h : Handoff) : Dev :=
  if d.rd Reg.segment = 0 then d else { d with fab := { d.fab with handoffs := d.fab.handoffs ++ [h] } }

/-- Partials of a peer reach the node under which its boundary stands (04 R107, 15 R358). -/
def Dev.peerPartials (d : Dev) (src tree slot : Nat) (bs : List Byte) : Dev :=
  match d.treeRec tree with
  | none => d
  | some tr =>
    match tr.nodes.find? fun (n : NodeRec) => n.kind == 1 && n.device == src && n.slot == slot with
    | none => d
    | some n => match tr.nodes[n.parent]? with
      | none => d
      | some q =>
        let ws := (List.range (bs.length / 8)).map fun j => numAt bs (8 * j) 8
        d.redInput q.tile tree slot (partsOfWords tr.best ws.length ws)

/-- Rhoic traffic over Narlas (12 R297, R305; layout: log entry 9): a doorbell value, or a packet placed in the submission ring of a pair of the Narlas path whose peer sends it. -/
def Dev.rhoicTraffic (d : Dev) (src : Nat) (b : List Byte) : Dev :=
  let q := numAt b 1 2
  if Config.queuePairs ≤ q then d
  else if numAt b 0 1 = 3 then (if d.rd Reg.stage < 7 then d else d.ringDoorbell 1 q (numAt b 3 8))
  else if numAt b 0 1 = 4 ∧ d.qpOn q ∧ d.rd (Reg.qPath q) = 1 ∧ d.rd (Reg.qPeer q) = src then
    (d.ringStore (d.rd (Reg.sqBase q) + 64 * (numAt b 3 2 % d.sqEntries q)) (cut b 5 64)).getD d
  else d

/-- A complete message goes to its consumer (15 R355, R358). -/
def Dev.consume (d : Dev) (keys : List (List Byte)) (src cls : Nat) (tenant : Option Nat) (b : List Byte) : Dev :=
  match cls with
  | 1 => if numAt b 0 1 = 1 then d.takeHandoff (handoffOf b)
         else if numAt b 0 1 = 2 then d.peerPartials src (numAt b 3 2) (numAt b 5 2) (b.drop 7) else d
  | 2 =>
    if numAt b 0 1 = 1 then
      effJournalRecord { src := numAt b 1 2, stream := numAt b 3 2, num := numAt b 5 8, entry := numAt b 13 128,
                         toks := (List.range ((b.length - 141) / 4)).map fun j => numAt b (141 + 4 * j) 4 } d
    else if numAt b 0 1 = 2 then effJournalAcknowledge (numAt b 1 2) (numAt b 3 2) (numAt b 5 8) d
    else d.rhoicTraffic src b
  | 3 => (if 4 ≤ numAt b 4 1 ∧ numAt b 4 1 ≤ 9 then d.pageMessage b tenant else d.streamMessage b).wakeIfWork
  | 4 => effWeightChunk keys (numAt b 0 2) (numAt b 2 4) (numAt b 6 8) (b.drop 14) d
  | _ => d

/-- Hands on the messages of a flow that are complete, in ascending number (15 R355); the pieces of a longer one are joined first. -/
def Dev.handOn (d : Dev) (keys : List (List Byte)) (src flow : Nat) : Nat → Dev
  | 0 => d
  | fuel + 1 =>
    let a := d.assoc src
    let num := AMap.get 0 a.rxFlows flow
    match a.msgs.find? fun (m : RxMsg) => m.flow == flow && m.num == num with
    | none => d
    | some m =>
      if m.total ≠ some m.held then d
      else
        let all := AMap.get [] a.pieces flow ++ m.bytes.drop 1
        let more := numAt m.bytes 0 1 == 1
        let a1 := { a with msgs := a.msgs.filter (fun (x : RxMsg) => !(x.flow == flow && x.num == num)),
                           rxFlows := AMap.insert flow ((num + 1) % 2 ^ 32) a.rxFlows,
                           pieces := if more then AMap.insert flow all a.pieces else AMap.erase flow a.pieces }
        let d1 := d.setAssoc src a1
        (if more then d1 else d1.consume keys src m.cls m.tenant all).handOn keys src flow fuel

/-- A DATA packet (15 R354-R356): a duplicate is discarded; a gap on its path is told by a NACK at once; the payload takes its place, complete messages are handed on, an ACK follows every eighth packet. A packet of an older epoch is taken from a MEMBER or LEAVING device only (15 R361). -/
def Dev.takeData (d : Dev) (keys : List (List Byte)) (p : NPkt) : Dev :=
  let h := p.hdr.toNat
  let src := srcOf p
  let psn := bitsOf h 64 32
  let k := bitsOf h 173 6
  let state := ((AMap.find d.fab.table src).map (·.state)).getD 0
  if bitsOf h 208 32 < d.rd Reg.fabEpoch ∧ state ≠ 2 ∧ state ≠ 3 then d
  else
    let a := { d.assoc src with ceMark := (d.assoc src).ceMark || p.ce }
    let x := a.path k
    let ahead := (bitsOf h 192 16 + 65536 - x.nextSeq) % 65536
    let gap := 0 < ahead && ahead < 32768
    let a1 := if ahead < 32768 then a.setPath k { x with nextSeq := (bitsOf h 192 16 + 1) % 65536 } else a
    if a1.seen psn then d.setAssoc src a1
    else
      let lost := if gap then a1.missing psn else []
      let a2 := ({ a1 with rxSeen := a1.rxSeen ++ [psn], unacked := a1.unacked + 1 }).settleRx (a1.rxSeen.length + 1)
      let tenant := if bitOf h 12 then some (bitsOf h 36 12) else none
      let a3 := a2.place (bitsOf h 48 16) (bitsOf h 96 32) (bitsOf h 8 4) tenant (bitsOf h 128 32) (bitOf h 13)
        (p.payload.take (bitsOf h 160 13))
      let d1 := d.setAssoc src a3
      let d2 := if lost.isEmpty then d1 else d1.sendBare 2 src k (lost.flatMap fun n => leBytes 4 n)
      let d3 := if 8 ≤ a3.unacked then d2.sendAck src k else d2
      d3.handOn keys src (bitsOf h 48 16) (a3.msgs.length + 1)

/-- NARLAS_DATA (15 R355). -/
def execNarlasData (p : NPkt) (s : State) : Host.Outcome State Fault Refusal :=
  s.next (s.dev.receive 0 false p fun d => d.takeData s.sec.signers p)

/-- 2 µs have passed since the oldest packet not acknowledged: an ACK (15 R356), on the first path that is up. -/
def effAckTimer (peer : Nat) (d : Dev) : Dev :=
  let a := d.assoc peer
  if a.unacked = 0 then d
  else match (List.range 64).find? fun k => d.pathUp a k with
    | some k => d.sendAck peer k
    | none => d

/-- ACK_TIMER (15 R356). -/
def execAckTimer (peer : Nat) (s : State) : Host.Outcome State Fault Refusal := s.next (effAckTimer peer s.dev)

/-- The window of a path after packets of it were acknowledged (15 R357): halved on an echoed mark, at most once per RTT; otherwise it grows, at most to 1,024, by an amount the spec leaves open. -/
def grow (x : Path) (ce : Bool) (tick rtt free : Nat) : Path :=
  if ce then
    match x.halved with
    | some t => if 40 * (tick - t) < rtt then x else { x with window := max 1 (rounded 8 x.window 2).toNat, halved := some tick }
    | none => { x with window := max 1 (rounded 8 x.window 2).toNat, halved := some tick }
  else { x with window := x.window + free % (1025 - min 1024 x.window) }

/-- An ACK releases what it names (15 R356, R357): the windows and timers of the paths follow, `RTT` is measured anew (its smoothing is open: log entry 56), the peer is reached. -/
def Dev.takeAck (d : Dev) (p : NPkt) : Dev :=
  let src := srcOf p
  let a := d.assoc src
  let cum := numAt p.payload 0 4
  let map := numAt p.payload 4 32
  let ce := numAt p.payload 36 1 == 1
  let acked (y : Sent) : Bool :=
    let back := (cum + 2 ^ 32 - y.psn) % 2 ^ 32
    (0 < back && back ≤ 2 ^ 31) || (2 ^ 32 - 256 ≤ back && bitOf map (2 ^ 32 - back - 1))
  let paths := ((a.sent.filter acked).map fun (y : Sent) => y.path).eraseDups
  let rtt := d.rd (Reg.rtt src)
  let a1 := paths.foldl (fun (a : Assoc) k =>
    a.setPath k { grow (a.path k) ce d.tick rtt (Config.freeWord (d.freeCtr + 1 + k)).toNat with expiries := 0 }) a
  let d1 := { d with freeCtr := d.freeCtr + 65 }.setAssoc src
    { a1 with sent := a1.sent.filter (fun y => !acked y), reachable := true }
  (d1.wr (Reg.rtt src) ((Config.freeWord d.freeCtr).toNat % 2 ^ 32)).pump src

/-- ACK (15 R356). -/
def execAck (p : NPkt) (s : State) : Host.Outcome State Fault Refusal := s.next (s.dev.receive 1 false p fun d => d.takeAck p)

/-- A NACK names packets to send again (15 R356). -/
def Dev.takeNack (d : Dev) (p : NPkt) : Dev :=
  (List.range (p.payload.length / 4)).foldl (fun (d : Dev) i => d.retransmit (srcOf p) (numAt p.payload (4 * i) 4)) d

/-- NACK (15 R356). -/
def execNack (p : NPkt) (s : State) : Host.Outcome State Fault Refusal := s.next (s.dev.receive 2 false p fun d => d.takeNack p)

/-- PROBE: a peer probes a path that is down for it; this device replies (15 R357). -/
def execProbe (p : NPkt) (s : State) : Host.Outcome State Fault Refusal :=
  s.next (s.dev.receive 3 false p fun d => d.emit (.probeReply (srcOf p) (bitsOf p.hdr.toNat 173 6)))

/-- A reply to a PROBE; after three in a row the path is up (15 R357). -/
def effProbeReply (peer path : Nat) (d : Dev) : Dev :=
  let k := path % 64
  let a := d.assoc peer
  let x := a.path k
  if x.up || !x.probed || !d.portLive (planeOf k) then d
  else if x.replies + 1 < 3 then d.setAssoc peer (a.setPath k { x with replies := x.replies + 1, probed := false })
  else ((d.setAssoc peer (a.setPath k { x with up := true, replies := 0, probed := false, expiries := 0 })).pump peer).showPaths peer

/-- PROBE_REPLY (15 R357). -/
def execProbeReply (peer path : Nat) (s : State) : Host.Outcome State Fault Refusal := s.next (effProbeReply peer path s.dev)

/-- A path's retransmit timer runs out (15 R356, R357): what it carries is sent again elsewhere; the third time in a row the path is down. -/
def effPathRetransmit (peer path : Nat) (d : Dev) : Dev :=
  let k := path % 64
  let a := d.assoc peer
  let x := a.path k
  if !x.up || !(a.sent.any fun (y : Sent) => y.path == k) then d
  else if x.expiries + 1 < 3 then (d.setAssoc peer (a.setPath k { x with expiries := x.expiries + 1 })).retransmitPath peer k
  else d.pathDown peer k

/-- PATH_RETRANSMIT (15 R357). -/
def execPathRetransmit (peer path : Nat) (s : State) : Host.Outcome State Fault Refusal := s.next (effPathRetransmit peer path s.dev)

/-- The device that acts as coordinator: the lowest MEMBER that this one reaches (15 R360, R361). -/
def Dev.acting (d : Dev) : Option Nat :=
  match (membersOf d.members).filter fun i => i == d.me || !d.peerGone i with
  | [] => none
  | x :: xs => some (xs.foldl min x)

/-- A coordinator that waits for a peer's acknowledgement waits no more; it probes the peer for 2 ms (15 R361, R369). -/
def Dev.probePeer (d : Dev) (peer : Nat) : Dev :=
  let d1 := if d.fab.proposal.isSome then d.tryCommit else d
  ((List.range 64).filter fun k => d1.pathUp (d1.assoc peer) k).foldl (fun (d : Dev) k => d.sendBare 3 peer k []) d1

/-- A peer cannot be reached (15 R357, R369): commands that need it complete PEER_UNREACHABLE, a weight chain through it ends, the coordinator is told; outside the majority the device stops serving. -/
def Dev.peerLostContact (d : Dev) (peer : Nat) : Dev :=
  let d1 := d.setAssoc peer { d.assoc peer with reachable := false }
  let d2 := (d1.chainLost peer).movesLost peer (bad St.peerUnreachable peer)
  let joins := (d2.jobs 0x60).any fun j => 1 ≤ j.phase
  let d3 := if joins && d2.coord == some peer then d2.joinFails (bad St.peerUnreachable peer) else d2
  if d3.rd Reg.memberState ≠ 2 then d3
  else
    let d4 := match d3.acting with
      | some c => if c = d3.me then d3.probePeer peer else d3.emit (.ctl c (.unreachable peer d3.me))
      | none => d3
    if d4.majority then d4 else d4.stopServing

/-- PEER_UNREACHABLE: no ACK on any path for 10 ms (15 R357). -/
def execPeerUnreachable (peer : Nat) (s : State) : Host.Outcome State Fault Refusal := s.next (s.dev.peerLostContact peer).applyIfIdle

/-- The acting coordinator marks a peer LOST that it still cannot reach (15 R361, R369): PEER_LOST, and an epoch. -/
def Dev.declareLost (d : Dev) (peer : Nat) : Dev :=
  let m := entryOf d.latestTable peer
  if d.rd Reg.memberState ≠ 2 || d.acting ≠ some d.me || !d.peerGone peer || m.state = 0 || m.state = 4 || !d.majority then d
  else (d.raise { code := Rc.peerLost, detail := peer, source := 1 }).proposeEntry { m with state := 4 }

/-- PEER_LOST: a peer is still unreachable after 2 ms of probing (15 R369). -/
def execPeerLost (peer : Nat) (s : State) : Host.Outcome State Fault Refusal := s.next (s.dev.declareLost peer).applyIfIdle

/-- The coordinator has been unreachable for 10 ms (15 R361): it is reported to the next-lowest MEMBER, which acts in its place once it holds the majority. -/
def effCoordinatorUnreachable (d : Dev) : Dev :=
  match d.coord with
  | none => d
  | some c =>
    if c = d.me then d
    else
      let d1 := if d.peerGone c then d else d.peerLostContact c
      if d1.rd Reg.memberState ≠ 2 then d1
      else match d1.acting with
        | some a => if a = d1.me then d1.declareLost c else if d.peerGone c then d1.emit (.ctl a (.unreachable c d1.me)) else d1
        | none => d1

/-- COORDINATOR_UNREACHABLE (15 R361). -/
def execCoordinatorUnreachable (s : State) : Host.Outcome State Fault Refusal := s.next (effCoordinatorUnreachable s.dev).applyIfIdle

/-- A key exchange fails (21 R461): ASSOC_AUTH_FAILED, `ERR_ASSOC`, the peer is unreachable. -/
def Dev.assocFails (d : Dev) (peer : Nat) : Dev :=
  ((d.raise { code := Rc.assocAuthFailed, detail := peer, source := 81 }).setW1c Reg.errAssoc 81 true).peerLostContact peer

/-- An association key is in place: the first, or a replacement, after which the previous one is tried for 100 ms (21 R461, R463). What waited is sent; session keys that are needed are set up (R462). -/
def Dev.assocKeyed (d : Dev) (peer : Nat) : Dev :=
  let a := d.assoc peer
  let d1 := d.setAssoc peer { a with keyed := true, prevKey := a.keyed, packets := 0, reachable := true }
  let d2 := if a.keyed then d1.bump Reg.assocRekeys else d1
  let need := ((a.waiting.filterMap fun (b : NBody) => b.tenant).eraseDups).filter fun t => !a.tenantKeys.contains t
  ((need.foldl (fun (d : Dev) t => d.openExchange peer (some t)) d2).pump peer).showPaths peer

/-- A session key of a tenant is in place (21 R462). -/
def Dev.tenantKeyed (d : Dev) (peer t : Nat) : Dev :=
  let a := d.assoc peer
  (d.setAssoc peer { a with tenantKeys := if a.tenantKeys.contains t then a.tenantKeys else a.tenantKeys ++ [t] }).pump peer

/-- A step of a key exchange arrives (21 R461, R462): step 1 is answered by step 2, which ends it. An association's exchange is opened by the lower index; a session key's runs inside a keyed association. -/
def effAssocKeyExchange (m : AssocMsg) (d : Dev) : Dev :=
  if d.rd Reg.stage < 6 || m.peer = d.me || m.step = 0 || 3 ≤ m.step then d
  else match m.tenant with
  | none =>
    if (m.step = 1) ≠ (m.peer < d.me) then d
    else if !m.ok then d.assocFails m.peer
    else if m.step = 1 then (d.sendExchange m.peer 2 none).assocKeyed m.peer
    else d.assocKeyed m.peer
  | some t =>
    if !(d.assoc m.peer).keyed then d
    else if !m.ok then d.assocFails m.peer
    else if m.step = 1 then (d.sendExchange m.peer 2 (some t)).tenantKeyed m.peer t
    else d.tenantKeyed m.peer t

/-- ASSOC_KEY_EXCHANGE (21 R461). -/
def execAssocKeyExchange (m : AssocMsg) (s : State) : Host.Outcome State Fault Refusal := s.next (effAssocKeyExchange m s.dev)

/-- A key has served 2^31 packets or 24 h: the lower index opens a fresh exchange, whose end replaces it (21 R463). -/
def effRekey (peer : Nat) (d : Dev) : Dev := if (d.assoc peer).keyed then d.openExchange peer none else d

/-- REKEY (21 R463). -/
def execRekey (peer : Nat) (s : State) : Host.Outcome State Fault Refusal := s.next (effRekey peer s.dev)

/-- The 100 ms after a replacement are over: the previous key is tried no more (21 R463). -/
def effPreviousKeyExpiry (peer : Nat) (d : Dev) : Dev :=
  if (d.assoc peer).prevKey then d.setAssoc peer { d.assoc peer with prevKey := false } else d

/-- PREVIOUS_KEY_EXPIRY (21 R463). -/
def execPreviousKeyExpiry (peer : Nat) (s : State) : Host.Outcome State Fault Refusal := s.next (effPreviousKeyExpiry peer s.dev)

/-- WAVE_HANDOFF: a complete segment handoff message (15 R364). -/
def execWaveHandoff (h : Handoff) (s : State) : Host.Outcome State Fault Refusal := s.next (s.dev.takeHandoff h)

/-- The coordinator takes a join request (15 R365 steps 3 and 4): an index that is neither ABSENT nor LOST is rejected, any other is listed as JOINING. -/
def Dev.letIn (d : Dev) (dev version : Nat) : Dev :=
  let m := entryOf d.latestTable dev
  if m.state = 0 ∨ m.state = 4 then d.proposeEntry { dev := dev, state := 1, version := version }
  else d.emit (.ctl dev .joinRefused)

/-- A device asks to leave, or has nothing left (15 R367): a MEMBER becomes LEAVING, any other ABSENT. -/
def Dev.takeLeave (d : Dev) (dev : Nat) : Dev :=
  let m := entryOf d.latestTable dev
  if m.state = 2 then d.proposeEntry { m with state := 3 }
  else if m.state = 1 ∨ m.state = 3 then d.proposeEntry { m with state := 0 }
  else d

/-- An order of segment 0 in a swap (16 R383): 0 asks whether the version is staged, 1 the barrier, 3 copy, 4 release, 5 the swap is off. -/
def Dev.takeSwapOrder (d : Dev) (src step v : Nat) : Dev :=
  if step = 0 then
    let ready := d.rd Reg.stageState == 4 && d.rd Reg.stagedVersion == v
    d.emit (.ctl src (.swapReport d.me (if ready then 0 else 255)))
  else if step = 5 then
    ({ d with wts := { d.wts with order := 0, copied := false } }.wr Reg.swapState 0).release 2
  else if d.rd Reg.stageState ≠ 4 ∨ d.rd Reg.stagedVersion ≠ v then d
  else
    let d1 := { d with wts := { d.wts with order := step } }
    if step = 1 ∧ d1.rd Reg.swapState = 0 then d1.wr Reg.swapState 1 else d1

/-- A report of a segment in a swap (16 R383): one that has not staged the version ends it. -/
def Dev.takeSwapReport (d : Dev) (dev step : Nat) : Dev :=
  if step = 255 then d.swapOff (bad St.notStaged)
  else { d with fab := { d.fab with swapReports := if d.fab.swapReports.contains dev then d.fab.swapReports else d.fab.swapReports ++ [dev] } }

/-- A segment short of frames asks for a drop: the first unit that pressure may drop for the stream, on every segment (10 R258, 15 R364). -/
def Dev.takeAskDrop (d : Dev) (stream : Nat) : Dev :=
  let prio := (d.tenant (d.ownerKey stream).1).priority
  match (if d.rd Reg.segment = 0 ∧ !d.hostMode 6 then (d.dropOrder prio [stream]).head? else none) with
  | some u => (d.dropUnit u.1 u.2).raise { code := Rc.kvDropped, detail := 1, source := 78 }
  | none => d.raise { code := Rc.kvPressure, detail := prio, source := 78, stream := some stream }

/-- A system control message (15 R360-R369, 16 R383, 19 R425). -/
def Dev.control (d : Dev) (src : Nat) (m : Ctl) : Dev :=
  let member := d.rd Reg.memberState == 2
  let leads := member && d.acting == some d.me
  match m with
  | .joinRequest dev version =>
    if leads then d.letIn dev version
    else if member then match d.acting with
      | some c => d.emit (.ctl c (.joinForward dev version))
      | none => d
    else d
  | .joinForward dev version => if leads then d.letIn dev version else d
  | .joinRefused => d.joinFails (bad St.paramRange 16)
  | .joinReady e => if leads && (entryOf d.latestTable e.dev).state == 1 then d.proposeEntry { e with state := 2 } else d
  | .proposal e t =>
    if e ≤ d.rd Reg.fabEpoch && !(d.fab.table.isEmpty && !(d.jobs 0x60).isEmpty) then d
    else
      let d1 := if (d.jobs 0x60).any fun j => j.phase == 0 then d.joinPhase 1 else d
      ({ d1 with fab := { d1.fab with proposal := some (e, t) } }).emit (.ctl src (.proposalAck e d.me))
  | .proposalAck e dev => match d.fab.proposal with
    | some (n, _) => if n = e ∧ leads then { d with fab := { d.fab with acks := d.fab.acks ++ [dev] } }.tryCommit else d
    | none => d
  | .commit e => match d.fab.proposal with
    | some (n, t) => if n = e then { d with fab := { d.fab with commitPending := some (e, t), proposal := none } } else d
    | none => d
  | .leaveRequest dev => if leads then d.takeLeave dev else d
  | .roleRequest dev role => if leads then d.proposeEntry { entryOf d.latestTable dev with role := role } else d
  | .unreachable dev _ => if d.peerGone dev then d.declareLost dev else if leads then d.probePeer dev else d
  | .swapOrder step v => if d.rd Reg.segment = 0 then d else d.takeSwapOrder src step v
  | .swapReport dev step => if d.rd Reg.segment = 0 then d.takeSwapReport dev step else d
  | .powerOrder t => if d.rd Reg.segment = 0 then d else d.takePowerOrder t
  | .dropUnit owner block => if d.rd Reg.segment = 0 then d else d.dropUnit owner block
  | .askDrop stream => d.takeAskDrop stream
  | .tokensBack toks => if d.rd Reg.segment = 0 then { d with fab := { d.fab with tokensBack := d.fab.tokensBack ++ [toks] } } else d

/-- A message with which a device that is in no table yet may come (15 R365). -/
def strangers (m : Ctl) : Bool := match m with
  | .joinRequest _ _ => true
  | _ => false

/-- CONTROL (15 R361). -/
def execControl (p : NPkt) (m : Ctl) (s : State) : Host.Outcome State Fault Refusal :=
  s.next (s.dev.receive 4 (strangers m) p fun d => (d.control (srcOf p) m).applyIfIdle)

/-- The row of JOIN (12 R313). -/
def rowJoin : Row := { op := 0x60, classes := 7, params := [(8, 8), (16, 2)] }

/-- Joins a system (15 R365 steps 1 and 2): the request goes to every index. -/
def startJoin (r : Rhoic) (d : Dev) : Start :=
  let dev := arg r 16 2
  if d.rd Reg.memberState ≠ 0 then .done (bad St.paramRange 8) d
  else if d.img.loaded.isNone && d.img.active.isNone then .done (bad St.noImage) d
  else if 1023 < dev then .done (bad St.paramRange 16) d
  else if !(d.jobs 0x60).isEmpty then .wait d
  else
    let j : Job := { op := 0x60, req := r, arg := d.rd Reg.systemId, arg2 := d.rd Reg.fabDevice }
    let d1 := (d.wr Reg.systemId (arg r 8 8)).wr Reg.fabDevice dev
    .run j (((List.range 1024).filter (· != dev)).foldl (fun (d : Dev) i => d.emit (.ctl i (.joinRequest dev d1.joinVersion))) d1)

/-- JOIN (15 R365). -/
def execJoin (r : Rhoic) (s : State) : Host.Outcome State Fault Refusal := s.next (s.dev.rhoic rowJoin [] r (startJoin r))

/-- 20 ms without an answer: the device founds the system, epoch 1, itself the only member and coordinator (15 R365 step 2). -/
def effFoundSystem (d : Dev) : Dev :=
  if (d.jobs 0x60).any fun j => j.phase == 0 then d.enterEpoch 1 [{ d.selfEntry 2 with version := d.joinVersion }] else d

/-- FOUND_SYSTEM (15 R365). -/
def execFoundSystem (s : State) : Host.Outcome State Fault Refusal := s.next (effFoundSystem s.dev)

/-- The row of LEAVE (12 R313). -/
def rowLeave : Row := { op := 0x61, classes := 7, params := [(8, 1)] }

/-- Leaves the system (15 R367): LEAVING at the next epoch. A device that is in no system has nothing to leave (DEDUCED, log entry 57). -/
def startLeave (r : Rhoic) (d : Dev) : Start :=
  if arg r 8 1 ≠ 0 then .done (bad St.paramRange 8) d
  else if d.rd Reg.memberState = 0 ∨ d.rd Reg.memberState = 4 then .done {} d
  else if !(d.jobs 0x61).isEmpty then .wait d
  else
    let d1 := match d.acting with
      | some c => if c = d.me then d.takeLeave d.me else d.emit (.ctl c (.leaveRequest d.me))
      | none => d
    .run { op := 0x61, req := r } d1

/-- LEAVE (15 R367): a LEAVING epoch that waits applies at once where no beat runs. -/
def execLeave (r : Rhoic) (s : State) : Host.Outcome State Fault Refusal :=
  s.next ((s.dev.rhoic rowLeave [] r (startLeave r)).applyIfIdle)

/-- The row of SET_ROLE (12 R313). -/
def rowSetRole : Row := { op := 0x62, classes := 5, params := [(8, 1)] }

/-- Sets the role (15 R362): at the next epoch for a member, at the next beat boundary otherwise, at once where no beat runs. The result is the previous role. -/
def startSetRole (r : Rhoic) (d : Dev) : Start :=
  let role := arg r 8 1
  let was := d.rd Reg.fabRole
  if 3 < role then .done (bad St.paramRange 8) d
  else if !(d.jobs 0x62).isEmpty then .wait d
  else if d.rd Reg.memberState = 2 then
    .run { op := 0x62, req := r, arg := was } (match d.acting with
      | some c => if c = d.me then d.proposeEntry { entryOf d.latestTable d.me with role := role }
                  else d.emit (.ctl c (.roleRequest d.me role))
      | none => d)
  else if d.noBeats then .done { result := was } (d.takeRole role)
  else .run { op := 0x62, req := r, arg := was } { d with fab := { d.fab with rolePending := some role } }

/-- SET_ROLE (15 R362). -/
def execSetRole (r : Rhoic) (s : State) : Host.Outcome State Fault Refusal :=
  s.next ((s.dev.rhoic rowSetRole [] r (startSetRole r)).applyIfIdle)

end Sys2Proof.Machine
end

