-- ==== Sys2Proof/Machine/Security.lean ====
section
/-! DEFINITION. Identity and attestation: keys (21 R455-R457), the HUM challenge (R464), the SPDM responder (R458-R460), firmware update and management over MCTP (R453, R454, R465). What DSP0274, DSP0240, DSP0248 and DSP0267 lay down and this spec does not is free: log entry 8. -/
namespace Sys2Proof.Machine

/-- The registers of the key state (21 R467). -/
def Dev.showKeys (d : Dev) (sec : Sec) : Dev :=
  (d.wr Reg.keySlots ((List.range 8).foldl (fun n i => if (AMap.find sec.keys i).isSome then n + 2 ^ i else n) 0)).wr Reg.minSvn sec.minSvn

/-- Bytes of a ROTATE_KEY request's payload (21 R456). -/
def rotatePayload (op : Nat) : Nat := if op = 0 then 2592 else if op = 2 then 4 else 0

/-- The key of the named slot signs the request (21 R456). -/
def rotateSigned (sec : Sec) (op slot : Nat) (b : List Byte) : Bool :=
  let n := 16 + rotatePayload op
  match AMap.find sec.keys (numAt b 8 1) with
  | some k => Config.mldsaVerify k (signerId sec.deviceKey ++ leBytes 1 op ++ leBytes 1 slot ++ b.take n) (b.drop n)
  | none => false

/-- The status of a ROTATE_KEY, if it is not accepted (21 R457). -/
def Dev.rotateRefusal (d : Dev) (sec : Sec) (op slot : Nat) (b : List Byte) : Option Reply :=
  let svn (i : Nat) : Nat := ((AMap.find sec.fw i).map (·.svn)).getD 0
  if numAt b 0 8 ≠ d.pwr.chain.length ∨ !rotateSigned sec op slot b then some (bad St.authFailed)
  else if op = 0 ∧ (AMap.find sec.keys slot).isSome then some (bad St.paramRange 9)
  else if op = 1 ∧ ((AMap.find sec.keys slot).isNone ∨ sec.keys.length = 1) then some (bad St.paramRange 9)
  else if op = 2 ∧ (numAt b 16 4 < sec.minSvn ∨ max (svn 0) (svn 1) < numAt b 16 4) then some (bad St.paramRange 16)
  else none

/-- The key state after an accepted change (21 R456). -/
def rotated (sec : Sec) (op slot : Nat) (b : List Byte) : Sec :=
  if op = 0 then { sec with keys := AMap.insert slot (cut b 16 2592) sec.keys }
  else if op = 1 then { sec with keys := AMap.erase slot sec.keys }
  else { sec with minSvn := numAt b 16 4 }

/-- A staged package under a revoked key is discarded, unless its swap has passed the barrier (21 R457). -/
def Dev.revokeStaged (d : Dev) (key : List Byte) : Dev :=
  match d.wts.staged with
  | some p => if memRead p.data 72 32 = signerId key ∧ d.rd Reg.swapState < 2 then d.loseStaged else d
  | none => d

/-- An accepted change is appended to the chain and takes effect: KEY_ENROLLED, KEY_REVOKED or MIN_SVN_RAISED (21 R457, R468). -/
def Dev.takeRotation (d : Dev) (sec : Sec) (op slot : Nat) (b : List Byte) : Sec × Dev :=
  let sec1 := rotated sec op slot b
  let d1 := (d.appendRecord 4 (keyBody sec1)).showKeys sec1
  let o : Occ :=
    if op = 0 then { code := Rc.keyEnrolled, detail := slot, source := 81 }
    else if op = 1 then { code := Rc.keyRevoked, detail := slot, source := 81 }
    else { code := Rc.minSvnRaised, detail := sec1.minSvn, source := 81 }
  let d2 := d1.raise o
  (sec1, if op = 1 then d2.revokeStaged ((AMap.find sec.keys slot).getD []) else d2)

/-- What a ROTATE_KEY comes to (21 R456, R457): the key state after it, and its start. -/
def rotateKey (r : Rhoic) (sec : Sec) (d : Dev) : Sec × Start :=
  let op := arg r 8 1
  let slot := arg r 9 1
  let n := arg r 24 4
  let first := sec.keys.isEmpty && op == 0 && r.qp == 0
  let want := 16 + rotatePayload op + (if first then 0 else 4627)
  if 2 < op then (sec, .done (bad St.paramRange 8) d)
  else if 7 < slot then (sec, .done (bad St.paramRange 9) d)
  else if n ≠ want then (sec, .done (bad St.paramRange 24) d)
  else
    let (st, det, b, d1) := d.bufIn r (arg r 16 8) n
    if st ≠ St.success then (sec, .done { st := st, detail := if st = St.uncorrectable then 0 else det, result := if st = St.uncorrectable then det else 0 } d1)
    else match (if first then none else d1.rotateRefusal sec op slot b) with
    | some p => (sec, .done p (if p.st = St.authFailed then d1.setW1c Reg.errAuth 81 else d1))
    | none =>
      if d1.pwr.packages = [] then (sec, .run { op := 0x81, req := r } d1)
      else
        let (sec1, d2) := d1.takeRotation sec op slot b
        (sec1, .done {} d2)

/-- The row of ROTATE_KEY (12 R313). -/
def rowRotateKey : Row := { op := 0x81, classes := 1, params := [(8, 1), (9, 1), (16, 8), (24, 4)] }

/-- The key state that a ROTATE_KEY leaves: changed only where the command starts and is accepted. -/
def Dev.rotatedSec (d : Dev) (r : Rhoic) (sec : Sec) : Sec :=
  if !d.mayTake r then sec
  else
    let (h, d1) := d.fetched r
    if (d1.refusal rowRotateKey r).isSome || d1.mustWait 0x81 h.2 [] r then sec else (rotateKey r sec d1).1

/-- ROTATE_KEY (21 R457). -/
def execRotateKey (r : Rhoic) (s : State) : Host.Outcome State Fault Refusal :=
  s.nextSec (s.dev.rotatedSec r s.sec) (s.dev.rhoic rowRotateKey [] r fun d => (rotateKey r s.sec d).2)

/-- The row of HUM_AUTH (12 R313). -/
def rowHumAuth : Row := { op := 0x82, classes := 5, params := [(16, 8)] }

/-- The 64-byte block of HUM_AUTH (21 R464); what the spec does not state for a HUM that fails or is absent is free. -/
def humBlock (result : Nat) (h : Option Hum) (free : List Byte) : List Byte :=
  match h with
  | some h =>
    leBytes 1 result ++ List.replicate 15 0 ++ (h.serial ++ List.replicate 16 0).take 16 ++ Sha.shake256 h.cert 16 ++
      (if result = 0 then leBytes 8 h.cycles ++ leBytes 8 h.hours else free.take 16)
  | none => leBytes 1 result ++ List.replicate 15 0 ++ free.take 48

/-- Challenges the HUM and writes the block (21 R464, R466). -/
def startHumAuth (r : Rhoic) (d : Dev) : Start :=
  (d.outBeyond r (arg r 16 8) 64).getD <|
  let d1 := d.challengeHum.updateRide
  let (free, d2) := d1.fresh 6
  let result := match d2.pwr.hum with
    | some h => if h.genuine then 0 else 1
    | none => 2
  d2.bufOut r (arg r 16 8) (humBlock result d2.pwr.hum free) (if result = 0 then {} else bad St.authFailed)

/-- HUM_AUTH (21 R464). -/
def execHumAuth (r : Rhoic) (s : State) : Host.Outcome State Fault Refusal :=
  s.next (s.dev.rhoic rowHumAuth [] r (startHumAuth r))

/-- An SPDM response: version 1.3, its code, what the spec says it carries, and what DSP0274 adds (21 R458, log entry 8). -/
def Dev.answer (d : Dev) (code : Nat) (content : List Byte) : List Byte × Dev :=
  (leBytes 1 0x13 ++ leBytes 1 code ++ content ++ Config.standardBytes d.freeCtr content, { d with freeCtr := d.freeCtr + 1 })

/-- An ERROR response (21 R458, R459). -/
def spdmError (code : Nat) : List Byte := leBytes 1 0x13 ++ leBytes 1 0x7F ++ leBytes 1 code ++ leBytes 1 0

/-- The signature of a response over the SHAKE256 hash of the transcript (21 R459). -/
def Dev.signed (d : Dev) (key msg body : List Byte) : List Byte :=
  body ++ Config.mldsaSign key (Sha.shake256 (Config.standardBytes d.freeCtr (msg ++ body)) 64)

/-- GET_VERSION is answered with version 1.3 (21 R458). -/
def Dev.spdmVersion (d : Dev) (_msg : List Byte) : List Byte × Dev :=
  d.answer 0x04 (leBytes 2 0x1300)

/-- GET_CAPABILITIES: CERT_CAP, CHAL_CAP and MEAS_CAP with signature, no other (21 R458). -/
def Dev.spdmCapabilities (d : Dev) (_msg : List Byte) : List Byte × Dev := d.answer 0x61 (leBytes 4 0x16)

/-- NEGOTIATE_ALGORITHMS: no base algorithm, the two extended entries; a requester that selects neither receives InvalidRequest (21 R459). -/
def Dev.spdmAlgorithms (d : Dev) (msg : List Byte) : List Byte × Dev :=
  if Config.spdmSelects msg then
    d.answer 0x63 (leBytes 4 0 ++ leBytes 4 0 ++ leBytes 2 1 ++ leBytes 2 2)
  else (spdmError 0x01, d)

/-- GET_DIGESTS: the digest of the chain of slot 0 (21 R458, R459). -/
def Dev.spdmDigests (d : Dev) (_msg : List Byte) : List Byte × Dev := d.answer 0x01 (leBytes 1 1 ++ Sha.shake256 d.certChain 64)

/-- GET_CERTIFICATE: a portion of the chain of slot 0; another slot is an InvalidRequest (21 R458). -/
def Dev.spdmCertificate (d : Dev) (msg : List Byte) : List Byte × Dev :=
  if numAt msg 2 1 % 16 ≠ 0 then (spdmError 0x01, d)
  else
    let part := cut d.certChain (numAt msg 4 2) (numAt msg 6 2)
    d.answer 0x02 (leBytes 2 part.length ++ leBytes 2 (d.certChain.length - numAt msg 4 2 - part.length) ++ part)

/-- CHALLENGE_AUTH: the digest of the chain, a 32-byte nonce, signed (21 R458, R459). -/
def Dev.spdmChallenge (d : Dev) (sec : Sec) (msg : List Byte) : List Byte × Dev :=
  let (nonce, d1) := d.fresh 4
  let (body, d2) := d1.answer 0x03 (Sha.shake256 d1.certChain 64 ++ nonce)
  (d2.signed sec.deviceKey msg body, d2)

/-- The measurement blocks, from one state (21 R460). -/
def Dev.measurement (d : Dev) (sec : Sec) (i : Nat) : List Byte :=
  let zeros : List Byte := List.replicate 64 0
  if i = 1 then Config.bootRomHash
  else if i = 2 then
    let fw := AMap.get {} sec.fw (d.rd Reg.fwSlot)
    if fw.bytes = [] then Config.factoryFirmwareHash else Sha.shake256 (fw.bytes.take (fw.bytes.length - 4627)) 64
  else if i = 3 then (d.pwr.chain.getLast?.map (·.hash)).getD zeros
  else if i = 4 then Sha.shake256 ((List.range 8).flatMap fun k => ((AMap.find sec.keys k).map signerId).getD (List.replicate 32 0)) 64
  else if i = 5 then (match d.img.active with
    | some im => im.hash
    | none => zeros)
  else if i = 6 then (match d.img.active with
    | some im => Sha.shake256 (leBytes 8 im.modelId ++ leBytes 4 (d.rd Reg.activeVersion)) 64
    | none => zeros)
  else match d.pwr.hum with
    | some h => if d.bit Reg.humAuthOk then Sha.shake256 h.cert 64 else zeros
    | none => zeros

/-- GET_MEASUREMENTS: the blocks that the request names, signed where it asks so (21 R458, R460). -/
def Dev.spdmMeasurements (d : Dev) (sec : Sec) (msg : List Byte) : List Byte × Dev :=
  let which := numAt msg 3 1
  let ids := if which = 0 then [] else if which = 0xFF then [1, 2, 3, 4, 5, 6, 7] else [which]
  if 7 < which ∧ which ≠ 0xFF then (spdmError 0x01, d)
  else
    let (body, d1) := d.answer 0x60 (leBytes 1 (if which = 0 then 7 else ids.length) ++ ids.flatMap fun i => leBytes 1 i ++ d.measurement sec i)
    if numAt msg 2 1 % 2 = 1 then (d1.signed sec.deviceKey msg body, d1) else (body, d1)

/-- The SPDM responder by the request's code; any other request is answered ERROR, UnsupportedRequest (21 R458). -/
def Dev.spdm (d : Dev) (sec : Sec) (msg : List Byte) : List Byte × Dev :=
  match numAt msg 1 1 with
  | 0x84 => d.spdmVersion msg
  | 0xE1 => d.spdmCapabilities msg
  | 0xE3 => d.spdmAlgorithms msg
  | 0x81 => d.spdmDigests msg
  | 0x82 => d.spdmCertificate msg
  | 0x83 => d.spdmChallenge sec msg
  | 0xE0 => d.spdmMeasurements sec msg
  | _ => (spdmError 0x07, d)

/-- A response leaves over MCTP type 0x05, once rim firmware serves the management path (19 R419, 21 R458, R465). -/
def Dev.overMctp (d : Dev) (f : Dev → List Byte × Dev) : Dev :=
  if d.rd Reg.stage < 1 || 4 ≤ d.rd Reg.pstate then d
  else
    let (b, d1) := f d
    d1.emit (.mctp 0x05 b)

/-- GET_VERSION (21 R458). -/
def execGetVersion (m : Spdm) (s : State) : Host.Outcome State Fault Refusal := s.next (s.dev.overMctp fun d => d.spdmVersion m.msg)

/-- GET_CAPABILITIES (21 R458). -/
def execGetCapabilities (m : Spdm) (s : State) : Host.Outcome State Fault Refusal :=
  s.next (s.dev.overMctp fun d => d.spdmCapabilities m.msg)

/-- NEGOTIATE_ALGORITHMS (21 R459). -/
def execNegotiateAlgorithms (m : Spdm) (s : State) : Host.Outcome State Fault Refusal :=
  s.next (s.dev.overMctp fun d => d.spdmAlgorithms m.msg)

/-- GET_DIGESTS (21 R458). -/
def execGetDigests (m : Spdm) (s : State) : Host.Outcome State Fault Refusal := s.next (s.dev.overMctp fun d => d.spdmDigests m.msg)

/-- GET_CERTIFICATE (21 R458). -/
def execGetCertificate (m : Spdm) (s : State) : Host.Outcome State Fault Refusal :=
  s.next (s.dev.overMctp fun d => d.spdmCertificate m.msg)

/-- CHALLENGE (21 R458). -/
def execChallenge (m : Spdm) (s : State) : Host.Outcome State Fault Refusal :=
  s.next (s.dev.overMctp fun d => d.spdmChallenge s.sec m.msg)

/-- GET_MEASUREMENTS (21 R460). -/
def execGetMeasurements (m : Spdm) (s : State) : Host.Outcome State Fault Refusal :=
  s.next (s.dev.overMctp fun d => d.spdmMeasurements s.sec m.msg)

/-- SPDM_UNSUPPORTED_REQUEST (21 R458). -/
def execSpdmUnsupportedRequest (_m : Spdm) (s : State) : Host.Outcome State Fault Refusal :=
  s.next (s.dev.overMctp fun d => (spdmError 0x07, d))

/-- The row of ATTEST (12 R313). -/
def rowAttest : Row := { op := 0x80, classes := 13, params := [(16, 8), (24, 4), (32, 8), (40, 4)] }

/-- One SPDM request in `req_buf`, its response in `resp_buf` (21 R458). A buffer that does not hold the response is PARAM_RANGE (DEDUCED, log entry 58). -/
def startAttest (sec : Sec) (r : Rhoic) (d : Dev) : Start :=
  (d.outBeyond r (arg r 32 8) (arg r 40 4)).getD <|
  let (st, det, msg, d1) := d.bufIn r (arg r 16 8) (arg r 24 4)
  if st ≠ St.success then .done { st := st, detail := if st = St.uncorrectable then 0 else det, result := if st = St.uncorrectable then det else 0 } d1
  else
    let (b, d2) := d1.spdm sec msg
    if arg r 40 4 < b.length then .done (bad St.paramRange 40) d2 else d2.bufOut r (arg r 32 8) b {}

/-- ATTEST (21 R458). -/
def execAttest (r : Rhoic) (s : State) : Host.Outcome State Fault Refusal :=
  s.next (s.dev.rhoic rowAttest [] r (startAttest s.sec r))

/-- A firmware image is one that the boot ROM accepts (21 R453): Alahorn's key, and its signature over header and code. -/
def fwGood (b : List Byte) : Bool :=
  let n := 2720 + numAt b 12 8
  numAt b 0 4 == 0x4D575246 && b.length == n + 4627 && signerId (cut b 128 2592) == Config.firmwareKeyHash &&
    Config.mldsaVerify (cut b 128 2592) (b.take n) (b.drop n)

/-- A firmware slot that holds an image. -/
def fwSlotOf (b : List Byte) : FwSlot := { valid := fwGood b, version := numAt b 4 4, svn := numAt b 8 4, bytes := b }

/-- Firmware update is served: rim firmware runs, or bring-up has stalled for want of it (19 R419 B1, 21 R454). -/
def Dev.servesUpdate (d : Dev) : Bool :=
  d.rd Reg.pstate < 4 && (1 ≤ d.rd Reg.stage || (d.bit Reg.stalled && d.rd Reg.stallCause == 2))

/-- The slot that a firmware update leaves: the one that does not run takes the image and is verified; an image below `min_svn` is refused (21 R454). -/
def updatedFw (sec : Sec) (d : Dev) (b : List Byte) : Sec :=
  if !d.servesUpdate || numAt b 8 4 < sec.minSvn then sec
  else { sec with fw := AMap.insert (1 - d.rd Reg.fwSlot) (fwSlotOf b) sec.fw }

/-- What the device shows of a firmware update: a PLDM response; `ERR_AUTH` where the slot does not verify (21 R454, R467). -/
def Dev.firmwareUpdate (d : Dev) (sec : Sec) (b : List Byte) : Dev :=
  if !d.servesUpdate then d
  else
    let d1 := if numAt b 8 4 < sec.minSvn || fwGood b then d else d.setW1c Reg.errAuth 81
    { d1 with freeCtr := d1.freeCtr + 1 }.emit (.mctp 0x01 (Config.standardBytes d1.freeCtr []))

/-- PLDM_FIRMWARE_UPDATE (21 R454). -/
def execPldmFirmwareUpdate (image : List Byte) (s : State) : Host.Outcome State Fault Refusal :=
  s.nextSec (updatedFw s.sec s.dev image) (s.dev.firmwareUpdate s.sec image)

/-- ActivateFirmware: with self-contained activation it is a device reset (19 R423, 21 R465); otherwise it is answered, and the image runs from the next bring-up. -/
def effActivateFirmware (selfContained : Bool) (d : Dev) : Dev :=
  if !d.servesUpdate then d
  else
    let d1 := { d with freeCtr := d.freeCtr + 1 }.emit (.mctp 0x01 (Config.standardBytes d.freeCtr []))
    if selfContained then d1.doDeviceReset else d1

/-- ACTIVATE_FIRMWARE (21 R465). -/
def execActivateFirmware (selfContained : Bool) (s : State) : Host.Outcome State Fault Refusal :=
  s.next (effActivateFirmware selfContained s.dev)

/-- A PLDM monitoring request about a feed, field, coolant or HUM sensor is answered (21 R465). -/
def effPldmMonitoring (sensor : Nat) (d : Dev) : Dev :=
  if d.rd Reg.stage < 1 || 4 ≤ d.rd Reg.pstate then d
  else { d with freeCtr := d.freeCtr + 1 }.emit (.mctp 0x01 (leBytes 2 sensor ++ Config.pldmBytes d.freeCtr))

/-- PLDM_MONITORING (21 R465). -/
def execPldmMonitoring (sensor : Nat) (s : State) : Host.Outcome State Fault Refusal := s.next (effPldmMonitoring sensor s.dev)

/-- An MCTP control message (21 R465): the bus owner assigns the endpoint ID of a binding, or it is read; any other is answered as DSP0236 has it. -/
def effMctpControl (m : MctpCtl) (d : Dev) : Dev :=
  if !d.pwr.aonOn || 4 ≤ d.rd Reg.pstate then d
  else
    let b := m.binding % 2
    let d1 := if m.cmd = 1 then { d with io := { d.io with eids := AMap.insert b (m.eid % 256) d.io.eids } } else d
    { d1 with freeCtr := d1.freeCtr + 1 }.emit
      (.mctp 0x00 (leBytes 1 m.cmd ++ leBytes 1 (AMap.get 0 d1.io.eids b) ++ Config.standardBytes d1.freeCtr []))

/-- MCTP_CONTROL (21 R465). -/
def execMctpControl (m : MctpCtl) (s : State) : Host.Outcome State Fault Refusal := s.next (effMctpControl m s.dev)

end Sys2Proof.Machine
end

