-- ==== Sys2Proof/Machine/Bringup.lean ====
section
/-! DEFINITION. Bring-up: power-on (19 R423), the stages and their stalls (19 R419-R421, 21 R451-R454, 22 R474), and the streams that the journal restores (17 R401). -/
namespace Sys2Proof.Machine

/-- The HUM and the feeds as the always-on domain finds them (17 R388, R402). -/
def Dev.seePower (d : Dev) : Dev :=
  ((d.wr Reg.feedAOk (b2n (AMap.get false d.pwr.feeds 0))).wr Reg.feedBOk (b2n (AMap.get false d.pwr.feeds 1))).wr Reg.humPresent
    (b2n d.pwr.hum.isSome)

/-- A feed rises while the always-on domain is unpowered (19 R423): everything is reset, bring-up starts at B0. -/
def effPowerOn (feed : Nat) (d : Dev) : Dev :=
  if d.pwr.aonOn then d
  else
    let d1 := d.powerOnReset
    { d1 with pwr := { d1.pwr with aonOn := true, feeds := AMap.insert (feed % 2) true d.pwr.feeds, feedOpen := d.pwr.feedOpen.filter (· != feed % 2) } }.seePower

/-- POWER_ON (19 R423). -/
def execPowerOn (feed : Nat) (s : State) : Host.Outcome State Fault Refusal := s.next (effPowerOn feed s.dev)

/-- Causes with which the work of a stage can stall (19 R419, 21 R451, R454). -/
def stallCauses (stage : Nat) : List Nat := [[1], [2], [1, 2, 3], [4], [6], [5], []].getD stage []

/-- A stage stalls (19 R419): `STAGE` keeps its value. -/
def Dev.stallAt (d : Dev) (cause : Nat) : Dev :=
  ((d.wr Reg.stalled 1).wr Reg.stallCause cause).raise { code := Rc.bringupStalled, detail := cause, source := 75 }
    |>.setW1c Reg.errStall 75 true

/-- The 64-bit word i of a list of bytes. -/
def wordAt (bs : List Byte) (i : Nat) : Nat := numAt bs (8 * i) 8

/-- B0 (21 R451, 22 R469, R474): the identity is read, the stepping with its revision; it never changes once the part has one. -/
def bringB0 (i : StageInfo) (sec : Sec) (d : Dev) : Sec × Dev :=
  let sec1 := if sec.deviceKey = [] then
      { sec with deviceKey := i.part.deviceKey, deviceCert := i.part.deviceCert, stepping := i.part.stepping }
    else sec
  let part := { i.part with deviceKey := sec1.deviceKey, deviceCert := sec1.deviceCert, stepping := sec1.stepping }
  (sec1, (({ d with meas := { d.meas with part := part } }.seePower).wr Reg.stepping part.stepping).wr Reg.revisionId
    (if part.stepping = 0 then 0x01 else 0x10))

/-- Slot `k` passes the boot ROM (21 R453): nothing has been found wrong with it. -/
def slotGood (sec : Sec) (failedA : Bool) (k : Nat) : Bool :=
  !(k == 0 && failedA) && (match AMap.find sec.fw k with
    | some f => f.valid
    | none => true)

/-- The slot that the boot ROM runs: A, then B (21 R453). -/
def bootSlot (sec : Sec) (failedA : Bool) : Option Nat :=
  if slotGood sec failedA 0 then some 0 else if slotGood sec failedA 1 then some 1 else none

/-- The records of the always-on latches, which are then cleared (13 R332). -/
def Dev.reportLatches (d : Dev) : Dev :=
  ((List.range 6).foldl (fun (d : Dev) b =>
    if bitOf (d.rd Reg.aonLatch) b then
      d.raise { code := Rc.aonEdge, detail := b, source := latchSource b, edgeTick := some (d.rd (Reg.aonTick b)) }
    else d) d).clearLatch 0x3F

/-- The rim cores that start: those not found lost before (20 R439). -/
def Dev.startCores (d : Dev) : Dev :=
  d.wr Reg.rimCoresUp ((List.range 16).foldl (fun n c => if (AMap.find d.pwr.duties c).isSome then n else n + 2 ^ c) 0)

/-- B1 (21 R453, 13 R332, 21 R464): rim firmware runs from the first slot that verifies; the latched edges are recorded; the HUM is challenged. -/
def bringB1 (i : StageInfo) (slot : Nat) (sec : Sec) (d : Dev) : Sec × Dev :=
  let fw := AMap.get { valid := true, version := i.part.fwVersion, svn := i.part.fwSvn } sec.fw slot
  let sec1 := { sec with fw := AMap.insert slot fw sec.fw }
  let d1 := ((d.startCores.wr Reg.fwSlot slot).wr Reg.fwFallback slot).wr Reg.fwSvn fw.svn
  let d2 := if slot = 1 then d1.raise { code := Rc.fwFallback, detail := 0, source := 81 } else d1
  (sec1, (d2.reportLatches.challengeHum).updateRide)

/-- The identity block (22 R474, 21 R452). -/
def Dev.fillIdentity (d : Dev) (sec : Sec) : Dev :=
  let p := d.meas.part
  let code : List Byte := [0x41, 0x4C, 0x48, 0x2D, 0x57, 0x33, 0x36, 0x2D, 0x33, 0x38, 0x34, 0x4C]
  let kid := signerId p.deviceKey
  let cert := Sha.shake256 p.deviceCert 64
  let h := (Sha.shake256 (p.deviceKey ++ [0x4D, 0x41, 0x43]) 6).map (·.toNat)
  let mac := ((h.getD 0 0 &&& 0xFC) ||| 2) + 256 * h.getD 1 0 + 256 ^ 2 * h.getD 2 0 + 256 ^ 3 * h.getD 3 0 + 256 ^ 4 * h.getD 4 0 +
    256 ^ 5 * (h.getD 5 0 &&& 0xF0)
  let fill (f : Nat → Fld) (n : Nat) (bs : List Byte) (d : Dev) : Dev :=
    (List.range n).foldl (fun (d : Dev) k => d.wr (f k) (wordAt (bs ++ List.replicate 64 0) k)) d
  ((fill Reg.deviceCertHash 8 cert (fill Reg.deviceKeyId 4 kid (fill Reg.serial 2 p.serial (fill Reg.orderCode 4 code d)))).wr
    Reg.macPort0 mac).wr Reg.fwVersion ((AMap.find sec.fw (d.rd Reg.fwSlot)).map (·.version) |>.getD 0)

/-- The chain, as far as it verifies, and the bypass tables that its records give (19 R421, 01 R16, R22). -/
def Dev.readRecords (d : Dev) (damaged : List (Nat × Nat)) : Dev :=
  let chain := d.verifiedChain damaged
  { d with pwr := { d.pwr with chain := chain }, wafer := { d.wafer with bypass := chain.foldl tablesAfter [] } }

/-- The record chain fails (19 R419, 01 R17, R22): its first record verifies in no copy, or is not the repair map of a part as it leaves manufacture. -/
def Dev.chainFails (d : Dev) (damaged : List (Nat × Nat)) : Bool := !chainFits (d.verifiedChain damaged)

/-- The key state that stage B2 finds in the chain (21 R455). -/
def Dev.keysAtB2 (d : Dev) (damaged : List (Nat × Nat)) (sec : Sec) : Sec := sec.takeKeys (d.verifiedChain damaged)

/-- The running firmware is below the rollback floor, that of the newest key enrolment record (21 R454). -/
def Dev.belowFloor (d : Dev) (damaged : List (Nat × Nat)) : Bool := decide (d.rd Reg.fwSvn < (d.keysAtB2 damaged Sec.reset).minSvn)

/-- A slot below the rollback floor counts as failed (21 R454). -/
def failSlot (sec : Sec) (slot : Nat) : Sec :=
  { sec with fw := AMap.insert slot { AMap.get {} sec.fw slot with valid := false } sec.fw }

/-- B2 (19 R421, 22 R474): records, identity block, key state. -/
def bringB2 (i : StageInfo) (sec : Sec) (d : Dev) : Dev := ((d.readRecords i.recordsOut).fillIdentity sec).showKeys sec

/-- A field cannot start (19 R419, 17 R390): found so, or too few phases are left. -/
def Dev.fieldFails (d : Dev) (out : List Nat) (n : Nat) : Bool :=
  out.contains n || decide (d.phasesLeft n 16 0 32 ≤ 13) || decide (d.phasesLeft (64 + n) 4 0 32 ≤ 2)

/-- A field at B3 (19 R419, 17 R393, 18 R406): on and INJECTED, or HELD_OUT and off; retired after two bring-ups in a row. -/
def Dev.startField (d : Dev) (out : List Nat) (n : Nat) : Dev :=
  let d1 := (d.wr (Reg.vlPhases n) (d.phasesLeft n 16 0 32)).wr (Reg.vmPhases n) (d.phasesLeft (64 + n) 4 0 32)
  if d1.wafer.lostFields.contains n then ((d1.wr (Reg.fieldState n) 3).wr (Reg.lockState n) 3).cutField n
  else if d1.fieldFails out n then
    let d2 := (((d1.wr (Reg.fieldState n) 1).wr (Reg.lockState n) 3).noteTrip n).cutField n
    { d2 with wafer := { d2.wafer with lostFields := d2.wafer.lostFields ++ [n] } }
  else (d1.wr (Reg.fieldState n) 0).wr (Reg.lockState n) 1

/-- B3 (19 R419, 18 R405-R408): fields start and lock, sensors are calibrated, the FIFOs of the links are reset (07 R172). -/
def bringB3 (i : StageInfo) (d : Dev) : Dev :=
  let d1 := (List.range 36).foldl (fun (d : Dev) n => d.startField i.fieldsOut n) d
  let f := d1.rd Reg.freqStep
  let d2 := (d1.wr Reg.freqNow f).setVmin f
  { d2 with pwr := { d2.pwr with calibrations := d2.pwr.calibrations + 1 },
            mesh := { d2.mesh with links := d2.mesh.links.filterMap fun e =>
              if { e.2 with fifo := [] } = {} then none else some (e.1, { e.2 with fifo := [] }) } }

/-- Signal bonds of a site that have failed: those that earlier bring-ups replaced, and those found now (01 R10). -/
def Dev.failedBonds (d : Dev) (found : List (Nat × Nat)) : List (Nat × Nat) :=
  (bondsOf d.meas.part d.pwr.chain ++ found.filter fun b => isPhysical b.1 && decide (b.2 < signalBonds)).eraseDups

/-- Sites with more failed signal bonds than their spares can replace (01 R10). -/
def bondSitesOut (bonds : List (Nat × Nat)) : List Nat :=
  (bonds.map (·.1)).eraseDups.filter fun s => decide (spareBonds < (bonds.filter fun b => b.1 == s).length)

/-- Spare signal bonds are assigned (01 R10): new assignments are appended to the repair map; they stand until the next bring-up. -/
def Dev.assignBonds (d : Dev) (found : List (Nat × Nat)) : Dev :=
  let bonds := d.failedBonds found
  let out := bondSitesOut bonds
  let known := bondsOf d.meas.part d.pwr.chain
  let map := bonds.filter fun b => !out.contains b.1
  let d1 := (map.filter fun b => !known.contains b).foldl (fun (d : Dev) b => d.appendRecord 2 (bondBody b)) d
  { d1 with wafer := { d1.wafer with bondMap := map } }

/-- Spare columns are assigned (01 R24, 20 R438): those that the repair map records, and those of the columns that the march test found. -/
def Dev.assignColumns (d : Dev) (found : List (Nat × Nat × Nat)) : Dev :=
  let d1 := { d with wafer := { d.wafer with colMap := columnsOf d.meas.part d.pwr.chain, spareCols := [] } }
  let d2 := (found.filter fun c => isPhysical c.1 && decide (c.2.1 < 16)).foldl (fun (d : Dev) c => d.recordColumn c) d1
  { d2 with wafer := { d2.wafer with colMap := d2.wafer.colMap ++ d2.wafer.spareCols, spareCols := [] } }

/-- A quarantined tile whose site passes its retest works again (20 R435; DEDUCED, log entry 94); one of a field that is off cannot be tested. -/
def Dev.retested (d : Dev) (bad : List Nat) : Dev :=
  { d with wafer := { d.wafer with quarantined := d.wafer.quarantined.filter fun t => bad.contains t || !d.fieldOn (fieldOf t) } }

/-- B4 (19 R419, R420, 01 R10, R20, R21, R24): spare bonds are assigned; failed sites are substituted or retired, spare columns assigned, Rth and the caps set. -/
def bringB4 (i : StageInfo) (d : Dev) : Dev :=
  let noBonds := (bondSitesOut (d.failedBonds i.bondsOut)).filterMap d.logOf
  let bad := (i.tilesOut ++ noBonds).eraseDups.filter fun t => isLogical t && (d.physOf t).isSome
  let d0 := (d.assignBonds i.bondsOut).retested bad
  let d1 := (bad.foldl (fun (d : Dev) t => d.moveOrRetire t) d0).applySubst
  let d2 := d1.assignColumns i.columnsOut
  let d3 := { d2 with wafer := { d2.wafer with droops := i.droops } }
  (List.range 36).foldl (fun (d : Dev) n =>
    let d' := match AMap.find d.meas.part.rth n with
      | some r => d.wr (Reg.rth n) (r % 2 ^ (Reg.rth n).width)
      | none => d
    if d'.fieldOn n then d'.wr (Reg.capW n) (d'.capFor n (d'.capOf n)) else d') d3

/-- The range that a device structure takes: the one its firmware names, where that is free, else the lowest free one (14 R343, R344, R348). -/
def Dev.structAt (d : Dev) (want size lo hi owner : Nat) : Dev :=
  let free (b : Nat) : Bool := b % 4096 == 0 && lo ≤ b && b + size ≤ hi && !(d.mem.allocs.any fun a => a.base < b + size && b < a.base + a.size)
  match (if free want then some want else lowestFree size lo hi d.mem.allocs) with
  | some b => { d with mem := { d.mem with allocs := insertAlloc { base := b, size := size, kind := 6, owner := owner } d.mem.allocs } }
  | none => d

/-- The device's own structures (14 R343, R344, R348, 19 R427): stream table, fault log, stripe array and reserve map in the lowest GiB, telemetry ring and rebuild buffers above the shadow. -/
def Dev.placeStructures (d : Dev) : Dev :=
  let p := d.meas.part
  let m := 2 * d.mirrorBytes
  let d1 := (((d.structAt p.streamTableBase 0x400000 0 gib 1).structAt p.faultLogBase 0x400000 0 gib 2).structAt p.stripeStateBase 0x10000
    4096 gib 3).structAt p.reserveMapBase 0x22000 4096 gib 4
  let d2 := d1.structAt p.telemBase 0x100000 m Config.yieldBase 0
  let d3 := (List.range 32).foldl (fun (d : Dev) k => ((d.allocLow false 0x200000 4 k).map (·.2)).getD d) d2
  ((d3.wr Reg.streamTableBase (d3.structBase 1)).wr Reg.faultLogBase (d3.structBase 2)).wr Reg.telemBase (d3.structBase 0)

/-- The fault log that the journal holds is there again (20 R444). -/
def Dev.showFaultLog (d : Dev) : Dev :=
  match d.mem.faultLog.head? with
  | some r => (d.wr Reg.faultNewest r.index).wr Reg.faultOldest (if 65535 ≤ r.index then r.index - 65535 else 0)
  | none => d

/-- B5 (19 R419, 14 R335, R346): stacks train and lane repair replaces the faulty lanes; one that fails is lost from the start, with the remap and nothing to rebuild; structures are placed. -/
def bringB5 (i : StageInfo) (d : Dev) : Dev :=
  let out := i.stacksOut.find? fun s => decide (s < 12)
  let d1 := (List.range 12).foldl (fun (d : Dev) s => d.wr (Reg.stackState s) 1) d
  let d2 := match out with
    | some s =>
      let d' := (d1.raise { code := Rc.hbmStackLost, detail := s, cls := 1, unitKind := 4, unit := s, outcome := 4 }).remap s
      { d' with mem := { d'.mem with lostLines := none } }.wr Reg.remapState 2
    | none => d1
  let d3 := { d2 with mem := { d2.mem with laneMap := i.lanesOut.filter fun l => decide (l.1 < 12) && !i.stacksOut.contains l.1 } }
  d3.placeStructures.showFaultLog

/-- A port at B6 (15 R350): up with its PHY, or down with `ERR_DOWN`. -/
def Dev.startPort (d : Dev) (up : List (Nat × Nat)) (p : Nat) : Dev :=
  match AMap.find up p with
  | some phy => if d.cageFits p then effPortUp p (d.wr (Reg.portPhy p) (phy % 2)) else d.setW1c (Reg.errDown p) (50 + p)
  | none => d.setW1c (Reg.errDown p) (50 + p)

/-- B6 (19 R419): ports and PCIe. -/
def bringB6 (i : StageInfo) (d : Dev) : Dev :=
  let d1 := (List.range 16).foldl (fun (d : Dev) p => d.startPort i.portsUp p) d
  { d1 with io := { d1.io with pcieUp := i.pcieUp && !d1.io.perst } }

/-- A stream as a bring-up restores it (17 R401): HELD, with no work of the last run in flight. -/
def restored (s : Stream) : Stream :=
  { s with state := .held, prev := if s.state = .held then s.prev else s.state, cancelPending := false, closing := false, drafts := [],
           roundK := 0, sets := [], journalQ := [], journalSent := false, partner := none, migrating := none, migSent := false, origin := none,
           savedSlot := none, savedRows := [] }

/-- What the journal holds is restored (17 R401, 12 R314): a sealed Preserve set, else the continuous journal. -/
def Dev.restoreServing (d : Dev) : Dev :=
  let k := d.pwr.sealed.getD d.pwr.journal
  let d1 := { d with
    serve := { d.serve with
      streams := k.streams.map fun (e : Nat × Stream) => (e.1, restored e.2)
      prefixes := k.prefixes.map fun (e : Nat × Pfx) => (e.1, { e.2 with recomputing := false })
      tenants := k.tenants.map fun (e : Nat × Tenant) => (e.1, { e.2 with reserved := 0 }) }
    img := { d.img with model := k.model, epochs := k.epochs, nextEpoch := k.nextEpoch, everActive := k.model.isSome } }
  let d2 := d1.raise { code := Rc.preserveResumed, detail := b2n d.pwr.sealed.isNone, source := 69, unitKind := 9, unit := 0 }
  let d3 := { d2 with pwr := { d2.pwr with sealed := none, journal := d2.servingState } }
  d3.serve.streams.foldl (fun (d : Dev) e => e.2.unwritten.foldl (fun (d : Dev) g => d.postGroup e.2.queue g) d) d3

/-- B7: fields that came through forget their trips (17 R393), and streams are restored (17 R401). -/
def Dev.enterB7 (d : Dev) : Dev :=
  let trips := d.wafer.bringupTrips.filter fun (e : Nat × Nat) => !d.fieldOn e.1
  ({ d with wafer := { d.wafer with bringupTrips := trips } }.restoreServing).updateRide

/-- The stage that runs is done: its time is noted, the next starts, STAGE_REACHED (19 R419, R430). -/
def Dev.nextStage (d : Dev) (ms : Nat) : Dev :=
  let s := d.rd Reg.stage
  let d1 := ((d.wr (Reg.stageMs s) ms).wr Reg.stage (s + 1)).raise { code := Rc.stageReached, detail := s + 1, source := 75 }
  if s + 1 = 7 then d1.enterB7 else d1

/-- Why the work of the stage that runs stalls, if it does (19 R419): a failure that is found, none with a cause that the stage does not know; both slots, both packages, or two stacks. -/
def Dev.stallOf (d : Dev) (i : StageInfo) (sec : Sec) : Option Nat :=
  let s := d.rd Reg.stage
  if (stallCauses s).contains i.stall then some i.stall
  else if s = 1 ∧ (bootSlot sec i.slotAFailed).isNone then some 2
  else if s = 2 ∧ d.belowFloor i.recordsOut ∧ !slotGood sec false (1 - d.rd Reg.fwSlot) then some 2
  else if s = 2 ∧ !d.belowFloor i.recordsOut ∧ d.chainFails i.recordsOut then some 3
  else if s = 4 ∧ d.pwr.packages = [] then some 6
  else if s = 5 ∧ 2 ≤ (i.stacksOut.eraseDups.filter fun x => decide (x < 12)).length then some 5
  else none

/-- Coolant that lets B3 start (23 R490). -/
def coolEnough (i : StageInfo) : Bool := i.inlet ≤ 550 && 120 ≤ i.flow

/-- The work of the stage that runs, and the step to the next (19 R419). -/
def Dev.runStage (d : Dev) (i : StageInfo) (sec : Sec) : Sec × Dev :=
  match d.rd Reg.stage with
  | 0 =>
    let (sec1, d1) := bringB0 i sec d
    (sec1, d1.nextStage i.ms)
  | 1 =>
    let (sec1, d1) := bringB1 i ((bootSlot sec i.slotAFailed).getD 0) sec d
    (sec1, d1.nextStage i.ms)
  | 2 =>
    let d0 := d.readCoolant i.inlet (d.rd Reg.outletT) i.flow (d.rd Reg.dpMbar)
    let sec2 := d.keysAtB2 i.recordsOut sec
    if d.belowFloor i.recordsOut then (failSlot sec (d.rd Reg.fwSlot), d.wr Reg.stage 1)
    else if coolEnough i then (sec2, (bringB2 i sec2 d0).nextStage i.ms)
    else (sec, d0)
  | 3 => (sec, (bringB3 i d).nextStage i.ms)
  | 4 => (sec, (bringB4 i d).nextStage i.ms)
  | 5 => (sec, (bringB5 i d).nextStage i.ms)
  | _ => (sec, (bringB6 i d).nextStage i.ms)

/-- A bring-up stage completes or stalls (19 R419). Nothing happens in P4, in a part that has stalled, or after B7. -/
def stageReached (i : StageInfo) (sec : Sec) (d : Dev) : Sec × Dev :=
  if !d.pwr.aonOn || d.rd Reg.pstate != 0 || d.bit Reg.stalled || 7 ≤ d.rd Reg.stage then (sec, d)
  else match d.stallOf i sec with
    | some c => (sec, d.stallAt c)
    | none => d.runStage i sec

/-- STAGE_REACHED (19 R419). -/
def execStageReached (i : StageInfo) (s : State) : Host.Outcome State Fault Refusal :=
  s.nextSec (stageReached i s.sec s.dev).1 (stageReached i s.sec s.dev).2

end Sys2Proof.Machine
end

