-- ==== Sys2Proof/Machine/Dispatch.lean ====
section
/-! DEFINITION. The one dispatch of the block: each command to its meaning. -/
namespace Sys2Proof.Machine

def exec (i : Instr) (s : State) : Host.Outcome State Fault Refusal :=
  match i with
  | .identify r => Sys2Proof.Machine.execIdentify r s
  | .status r => Sys2Proof.Machine.execStatus r s
  | .setModeSplit r => Sys2Proof.Machine.execSetModeSplit r s
  | .setPowerState r => Sys2Proof.Machine.execSetPowerState r s
  | .createQueue r => Sys2Proof.Machine.execCreateQueue r s
  | .deleteQueue r => Sys2Proof.Machine.execDeleteQueue r s
  | .loadImage r => Sys2Proof.Machine.execLoadImage r s
  | .patch r => Sys2Proof.Machine.execPatch r s
  | .activateImage r => Sys2Proof.Machine.execActivateImage r s
  | .imageActivated => Sys2Proof.Machine.execImageActivated s
  | .stageWeights r => Sys2Proof.Machine.execStageWeights r s
  | .weightsStaged => Sys2Proof.Machine.execWeightsStaged s
  | .swapWeights r => Sys2Proof.Machine.execSwapWeights r s
  | .swapCopyDone => Sys2Proof.Machine.execSwapCopyDone s
  | .weightCopyDone => Sys2Proof.Machine.execWeightCopyDone s
  | .registerSeed r => Sys2Proof.Machine.execRegisterSeed r s
  | .openStream r => Sys2Proof.Machine.execOpenStream r s
  | .appendTokens r => Sys2Proof.Machine.execAppendTokens r s
  | .appendText r => Sys2Proof.Machine.execAppendText r s
  | .generate r => Sys2Proof.Machine.execGenerate r s
  | .cancel r => Sys2Proof.Machine.execCancel r s
  | .closeStream r => Sys2Proof.Machine.execCloseStream r s
  | .definePrefix r => Sys2Proof.Machine.execDefinePrefix r s
  | .releasePrefix r => Sys2Proof.Machine.execReleasePrefix r s
  | .streamSet r => Sys2Proof.Machine.execStreamSet r s
  | .streamRead r => Sys2Proof.Machine.execStreamRead r s
  | .scheduleWave r => Sys2Proof.Machine.execScheduleWave r s
  | .setBudget r => Sys2Proof.Machine.execSetBudget r s
  | .queryUsage r => Sys2Proof.Machine.execQueryUsage r s
  | .readDram r => Sys2Proof.Machine.execReadDram r s
  | .writeDram r => Sys2Proof.Machine.execWriteDram r s
  | .pageMigrate r => Sys2Proof.Machine.execPageMigrate r s
  | .pageDrop r => Sys2Proof.Machine.execPageDrop r s
  | .join r => Sys2Proof.Machine.execJoin r s
  | .foundSystem => Sys2Proof.Machine.execFoundSystem s
  | .leave r => Sys2Proof.Machine.execLeave r s
  | .setRole r => Sys2Proof.Machine.execSetRole r s
  | .forwardWeights r => Sys2Proof.Machine.execForwardWeights r s
  | .loupeRun r => Sys2Proof.Machine.execLoupeRun r s
  | .inclusionReport r => Sys2Proof.Machine.execInclusionReport r s
  | .faultRead r => Sys2Proof.Machine.execFaultRead r s
  | .attest r => Sys2Proof.Machine.execAttest r s
  | .rotateKey r => Sys2Proof.Machine.execRotateKey r s
  | .humAuth r => Sys2Proof.Machine.execHumAuth r s
  | .opcodeUnknown r => Sys2Proof.Machine.execOpcodeUnknown r s
  | .getVersion m => Sys2Proof.Machine.execGetVersion m s
  | .getCapabilities m => Sys2Proof.Machine.execGetCapabilities m s
  | .negotiateAlgorithms m => Sys2Proof.Machine.execNegotiateAlgorithms m s
  | .getDigests m => Sys2Proof.Machine.execGetDigests m s
  | .getCertificate m => Sys2Proof.Machine.execGetCertificate m s
  | .challenge m => Sys2Proof.Machine.execChallenge m s
  | .getMeasurements m => Sys2Proof.Machine.execGetMeasurements m s
  | .spdmUnsupportedRequest m => Sys2Proof.Machine.execSpdmUnsupportedRequest m s
  | .pldmFirmwareUpdate image => Sys2Proof.Machine.execPldmFirmwareUpdate image s
  | .activateFirmware selfContained => Sys2Proof.Machine.execActivateFirmware selfContained s
  | .pldmMonitoring sensor => Sys2Proof.Machine.execPldmMonitoring sensor s
  | .mctpControl m => Sys2Proof.Machine.execMctpControl m s
  | .matmulTable t d m => Sys2Proof.Machine.execMatmulTable t d m s
  | .matmulDirect t d m => Sys2Proof.Machine.execMatmulDirect t d m s
  | .logProduct t d m => Sys2Proof.Machine.execLogProduct t d m s
  | .reduce t d m => Sys2Proof.Machine.execReduce t d m s
  | .requant t d m => Sys2Proof.Machine.execRequant t d m s
  | .facetOp t d m => Sys2Proof.Machine.execFacetOp t d m s
  | .sample t d m => Sys2Proof.Machine.execSample t d m s
  | .send t d m => Sys2Proof.Machine.execSend t d m s
  | .recv t d m => Sys2Proof.Machine.execRecv t d m s
  | .dramRead t d m => Sys2Proof.Machine.execDramRead t d m s
  | .dramWrite t d m => Sys2Proof.Machine.execDramWrite t d m s
  | .kvFetch t d m => Sys2Proof.Machine.execKvFetch t d m s
  | .kvStore t d m => Sys2Proof.Machine.execKvStore t d m s
  | .residLoad t d m => Sys2Proof.Machine.execResidLoad t d m s
  | .residStore t d m => Sys2Proof.Machine.execResidStore t d m s
  | .waitToken t d m => Sys2Proof.Machine.execWaitToken t d m s
  | .fenceFormat t d m => Sys2Proof.Machine.execFenceFormat t d m s
  | .endSection t d m => Sys2Proof.Machine.execEndSection t d m s
  | .opcodeInvalid t d m => Sys2Proof.Machine.execOpcodeInvalid t d m s
  | .tokenDone t token badLine => Sys2Proof.Machine.execTokenDone t token badLine s
  | .beatWatchdog t => Sys2Proof.Machine.execBeatWatchdog t s
  | .flitReceive f => Sys2Proof.Machine.execFlitReceive f s
  | .linkDown t dir => Sys2Proof.Machine.execLinkDown t dir s
  | .packetAgePromote id => Sys2Proof.Machine.execPacketAgePromote id s
  | .livenessFlit t dir heard => Sys2Proof.Machine.execLivenessFlit t dir heard s
  | .tileDead t linksDown => Sys2Proof.Machine.execTileDead t linksDown s
  | .issueResumed us => Sys2Proof.Machine.execIssueResumed us s
  | .beatBoundary cycle => Sys2Proof.Machine.execBeatBoundary cycle s
  | .freqChanged failed => Sys2Proof.Machine.execFreqChanged failed s
  | .inclusionSample x => Sys2Proof.Machine.execInclusionSample x s
  | .inclusionCheck t x => Sys2Proof.Machine.execInclusionCheck t x s
  | .inclusionSkipped t => Sys2Proof.Machine.execInclusionSkipped t s
  | .rebuildChunk stripe copyBad => Sys2Proof.Machine.execRebuildChunk stripe copyBad s
  | .girdleRebuilt stripe => Sys2Proof.Machine.execGirdleRebuilt stripe s
  | .girdleAudit stripe chunk copyBad => Sys2Proof.Machine.execGirdleAudit stripe chunk copyBad s
  | .memoryTierScrub site found => Sys2Proof.Machine.execMemoryTierScrub site found s
  | .hbmPatrolScrub stack raw miscorrected => Sys2Proof.Machine.execHbmPatrolScrub stack raw miscorrected s
  | .hbmStackLost stack cause => Sys2Proof.Machine.execHbmStackLost stack cause s
  | .hbmRemapDone => Sys2Proof.Machine.execHbmRemapDone s
  | .telemetry => Sys2Proof.Machine.execTelemetry s
  | .oscCalibration field trim => Sys2Proof.Machine.execOscCalibration field trim s
  | .sensorCalibration field => Sys2Proof.Machine.execSensorCalibration field s
  | .journalAppend bytes => Sys2Proof.Machine.execJournalAppend bytes s
  | .journalPackageLost pkg => Sys2Proof.Machine.execJournalPackageLost pkg s
  | .rimCoreLost core => Sys2Proof.Machine.execRimCoreLost core s
  | .doorbell path qp val => Sys2Proof.Machine.execDoorbell path qp val s
  | .queueEnable qp a => Sys2Proof.Machine.execQueueEnable qp a s
  | .completionRecordWrite qp => Sys2Proof.Machine.execCompletionRecordWrite qp s
  | .evtEoi a => Sys2Proof.Machine.execEvtEoi a s
  | .bankEoi core a => Sys2Proof.Machine.execBankEoi core a s
  | .evtRaise a => Sys2Proof.Machine.execEvtRaise a s
  | .eventRingEnable ring a => Sys2Proof.Machine.execEventRingEnable ring a s
  | .eventRingHeadWrite ring a => Sys2Proof.Machine.execEventRingHeadWrite ring a s
  | .routeWrite source a => Sys2Proof.Machine.execRouteWrite source a s
  | .aonEdge bit => Sys2Proof.Machine.execAonEdge bit s
  | .rcRead a => Sys2Proof.Machine.execRcRead a s
  | .registerWrite a => Sys2Proof.Machine.execRegisterWrite a s
  | .deviceReset a => Sys2Proof.Machine.execDeviceReset a s
  | .freqStepWrite a => Sys2Proof.Machine.execFreqStepWrite a s
  | .mirrorGibWrite a => Sys2Proof.Machine.execMirrorGibWrite a s
  | .bar4BaseWrite a => Sys2Proof.Machine.execBar4BaseWrite a s
  | .hostWinBaseWrite a => Sys2Proof.Machine.execHostWinBaseWrite a s
  | .tileWindowAccess a => Sys2Proof.Machine.execTileWindowAccess a s
  | .bar4Access a => Sys2Proof.Machine.execBar4Access a s
  | .diagSlotAccess a => Sys2Proof.Machine.execDiagSlotAccess a s
  | .powerOn feed => Sys2Proof.Machine.execPowerOn feed s
  | .stageReached info => Sys2Proof.Machine.execStageReached info s
  | .pcieReset kind => Sys2Proof.Machine.execPcieReset kind s
  | .pcieLinkTrained => Sys2Proof.Machine.execPcieLinkTrained s
  | .p1Entry => Sys2Proof.Machine.execP1Entry s
  | .pstateChanged => Sys2Proof.Machine.execPstateChanged s
  | .feedLost feed overVolt energyJ watts => Sys2Proof.Machine.execFeedLost feed overVolt energyJ watts s
  | .feedRestored feed => Sys2Proof.Machine.execFeedRestored feed s
  | .preserve => Sys2Proof.Machine.execPreserve s
  | .fieldTrip field cause => Sys2Proof.Machine.execFieldTrip field cause s
  | .fieldUndervolt field => Sys2Proof.Machine.execFieldUndervolt field s
  | .regPhaseLost rail phase => Sys2Proof.Machine.execRegPhaseLost rail phase s
  | .voltageUpdate field tiles amps => Sys2Proof.Machine.execVoltageUpdate field tiles amps s
  | .suspectedBondCrack t excess => Sys2Proof.Machine.execSuspectedBondCrack t excess s
  | .humChanged inserted => Sys2Proof.Machine.execHumChanged inserted s
  | .humAlarm => Sys2Proof.Machine.execHumAlarm s
  | .humHealth mf esrUohm energyJ days => Sys2Proof.Machine.execHumHealth mf esrUohm energyJ days s
  | .humChallenge => Sys2Proof.Machine.execHumChallenge s
  | .oscUnlock field => Sys2Proof.Machine.execOscUnlock field s
  | .oscInjectLost field => Sys2Proof.Machine.execOscInjectLost field s
  | .oscRelock field ok => Sys2Proof.Machine.execOscRelock field ok s
  | .tempSample x => Sys2Proof.Machine.execTempSample x s
  | .sensorFault t => Sys2Proof.Machine.execSensorFault t s
  | .throttleUpdate x => Sys2Proof.Machine.execThrottleUpdate x s
  | .rthUpdate field => Sys2Proof.Machine.execRthUpdate field s
  | .fieldOvertemp t => Sys2Proof.Machine.execFieldOvertemp t s
  | .coolantLost which => Sys2Proof.Machine.execCoolantLost which s
  | .stepSyncPulse cycle => Sys2Proof.Machine.execStepSyncPulse cycle s
  | .stepSyncLost => Sys2Proof.Machine.execStepSyncLost s
  | .ppsIn highNs => Sys2Proof.Machine.execPpsIn highNs s
  | .alertNAttention lowNs => Sys2Proof.Machine.execAlertNAttention lowNs s
  | .ptpMessage x => Sys2Proof.Machine.execPtpMessage x s
  | .portDown port fec => Sys2Proof.Machine.execPortDown port fec s
  | .portUp port => Sys2Proof.Machine.execPortUp port s
  | .narlasData p => Sys2Proof.Machine.execNarlasData p s
  | .ack p => Sys2Proof.Machine.execAck p s
  | .nack p => Sys2Proof.Machine.execNack p s
  | .probe p => Sys2Proof.Machine.execProbe p s
  | .control p m => Sys2Proof.Machine.execControl p m s
  | .ackTimer peer => Sys2Proof.Machine.execAckTimer peer s
  | .pathRetransmit peer path => Sys2Proof.Machine.execPathRetransmit peer path s
  | .peerUnreachable peer => Sys2Proof.Machine.execPeerUnreachable peer s
  | .peerLost peer => Sys2Proof.Machine.execPeerLost peer s
  | .coordinatorUnreachable => Sys2Proof.Machine.execCoordinatorUnreachable s
  | .assocKeyExchange m => Sys2Proof.Machine.execAssocKeyExchange m s
  | .rekey peer => Sys2Proof.Machine.execRekey peer s
  | .waveHandoff h => Sys2Proof.Machine.execWaveHandoff h s
  | .journalRecord j => Sys2Proof.Machine.execJournalRecord j s
  | .journalAcknowledge src stream num => Sys2Proof.Machine.execJournalAcknowledge src stream num s
  | .streamMigrated stream target index => Sys2Proof.Machine.execStreamMigrated stream target index s
  | .weightChunk src version offset data => Sys2Proof.Machine.execWeightChunk src version offset data s
  | .prefixLeaseExpiry index => Sys2Proof.Machine.execPrefixLeaseExpiry index s
  | .probeReply peer path => Sys2Proof.Machine.execProbeReply peer path s
  | .humAlarmReleased => Sys2Proof.Machine.execHumAlarmReleased s
  | .loupeReferenceDone => Sys2Proof.Machine.execLoupeReferenceDone s
  | .patchCopyDone => Sys2Proof.Machine.execPatchCopyDone s
  | .previousKeyExpiry peer => Sys2Proof.Machine.execPreviousKeyExpiry peer s
  | .cableModuleDetected port kind watts => Sys2Proof.Machine.execCableModuleDetected port kind watts s

end Sys2Proof.Machine
end

