-- ==== Sys2Proof/Machine/Tick.lean ====
section
/-! DEFINITION. What the block does when no command waits: the 25 MHz count advances, and rim firmware starts one command that was put off or fetches one from a submission ring (12 R306, R309, R311). DESIGN CHOICE, log entry 16. -/
namespace Sys2Proof.Machine

/-- The command that a packet's opcode names (12 R312, R313). -/
def commandOf (r : Rhoic) : Instr :=
  match bitsOf r.pkt.toNat 0 8 with
  | 0x01 => .identify r
  | 0x02 => .status r
  | 0x03 => .setModeSplit r
  | 0x04 => .setPowerState r
  | 0x06 => .createQueue r
  | 0x07 => .deleteQueue r
  | 0x10 => .loadImage r
  | 0x11 => .patch r
  | 0x12 => .activateImage r
  | 0x13 => .stageWeights r
  | 0x14 => .swapWeights r
  | 0x15 => .registerSeed r
  | 0x20 => .openStream r
  | 0x21 => .appendTokens r
  | 0x22 => .appendText r
  | 0x23 => .generate r
  | 0x24 => .cancel r
  | 0x25 => .closeStream r
  | 0x26 => .definePrefix r
  | 0x27 => .releasePrefix r
  | 0x28 => .streamSet r
  | 0x29 => .streamRead r
  | 0x2A => .scheduleWave r
  | 0x40 => .setBudget r
  | 0x41 => .queryUsage r
  | 0x50 => .readDram r
  | 0x51 => .writeDram r
  | 0x52 => .pageMigrate r
  | 0x53 => .pageDrop r
  | 0x60 => .join r
  | 0x61 => .leave r
  | 0x62 => .setRole r
  | 0x63 => .forwardWeights r
  | 0x70 => .loupeRun r
  | 0x71 => .inclusionReport r
  | 0x72 => .faultRead r
  | 0x80 => .attest r
  | 0x81 => .rotateKey r
  | 0x82 => .humAuth r
  | _ => .opcodeUnknown r

/-- The count of the always-on domain advances by one 40 ns tick, and with it `DEVICE_TIME` and `UPTIME_S`; each millisecond the paths that are down are probed; journal records are sent whose turn it is (13 R322, 15 R357, R359, R368, 19 R429). Without the always-on domain nothing counts (19 R424 P4). -/
def Dev.advance (d : Dev) : Dev :=
  if !d.pwr.aonOn then d
  else
    let d1 := { d with tick := d.tick + 1 }
    let d2 := if 7 ≤ d1.rd Reg.stage then d1.wr Reg.deviceTime (d1.rd Reg.deviceTime + 40) else d1
    let d3 := if d1.tick % Config.ticksPerSecond = 0 then d2.bump Reg.uptimeS else d2
    let d4 := d3.sendHeldJournals
    if d1.tick % 25000 = 0 then d4.probeDown else d4

/-- Rim firmware may fetch from a pair: in use, no ring error, no completion waiting, its ring not empty (12 R304, R311). -/
def Dev.fetchable (d : Dev) (q : Nat) : Bool :=
  q != 0 && d.mayFetch q && d.rd (Reg.sqHead q) != d.rd (Reg.sqTail q)

/-- The pair served next (12 R306): one that has waited 1 ms (25,000 ticks) without a fetch first, then classes in strict order, within a class round-robin from the pair served last. -/
def Dev.nextPair (d : Dev) : Option Nat :=
  let qs := d.pairsOn.filter d.fetchable
  match qs.find? fun q => d.tick - AMap.get d.tick d.io.qpSince q ≥ 25000 with
  | some q => some q
  | none =>
    ((List.range 4).filterMap fun c =>
      let inClass := qs.filter fun q => d.classOf q == c
      let last := AMap.get 0 d.io.qpTurn c
      match inClass.find? fun q => last < q with
      | some q => some q
      | none => inClass.head?).head?

/-- Reads the entry at the head of a pair's submission ring. A fetch that fails sets `ERR_BASE` and leaves the head (12 R311). -/
def Dev.fetchEntry (d : Dev) (q : Nat) : Dev × Option Instr :=
  let a := d.rd (Reg.sqBase q) + 64 * d.rd (Reg.sqHead q)
  match d.ringLoad a 64 with
  | none =>
    let d1 := d.setW1c (Reg.errBase q) 80
    if a + 64 ≤ d.dramTop then (d1, none) else (d1.unmappedBy q false a, none)
  | some bs =>
    let c := d.classOf q
    let more := (d.rd (Reg.sqHead q) + 1) % d.sqEntries q != d.rd (Reg.sqTail q)
    let d1 := { d with io := { d.io with
      qpTurn := AMap.set 0 d.io.qpTurn c q,
      qpSince := if more then AMap.insert q d.tick d.io.qpSince else AMap.erase q d.io.qpSince } }
    (d1, some (commandOf { qp := q, pkt := BitVec.ofNat 512 (leNat bs) }))

/-- The command that a job put off starts as, and the device without it. -/
def Dev.takeOff (d : Dev) (j : Job) : Dev × Instr :=
  ({ d with io := { d.io with deferred := d.io.deferred.erase j } }, commandOf { j.req with fetched := some (j.sqHead, j.ord) })

/-- A command put off would wait again, were it started now (12 R309). -/
def Dev.stillWaits (d : Dev) (j : Job) : Bool :=
  let (d1, c) := d.takeOff j
  match exec c { State.reset with dev := d1 } with
  | .next t => t.dev.io.deferred.any fun k => k.ord == j.ord
  | _ => false

/-- The first of the commands put off, in ring order, that nothing binds any more (12 R309). -/
def Dev.nextDeferred (d : Dev) : Option Job :=
  (sortBy (fun (x y : Job) => decide (x.ord < y.ord)) d.io.deferred).find? fun j => !d.mustWait j.op j.ord j.objs j.req && !d.stillWaits j

/-- One idle tick: a command put off starts where one may; else one is fetched. Answers the device and the command that starts. -/
def Dev.idle (d : Dev) : Dev × Option Instr :=
  let d1 := d.advance
  match d1.nextDeferred with
  | some j =>
    let (d2, c) := d1.takeOff j
    (d2, some c)
  | none =>
    if d1.rd Reg.stage < 7 then (d1, none)
    else match d1.nextPair with
      | some q => d1.fetchEntry q
      | none => (d1, none)

end Sys2Proof.Machine
end

