-- ==== Sys2Proof/Machine/Step.lean ====
section
/-! DEFINITION. One step: the command at the front of the queue, or one idle tick (log entry 16). -/
namespace Sys2Proof.Machine

/-- Takes the command at the front of the queue and runs it on the rest; on an empty queue the block idles for one tick of its 25 MHz clock, in which rim firmware may start one command. -/
def step (s : State) : Host.Outcome State Fault Refusal :=
  match s.pending with
  | c :: rest => exec c { s with pending := rest }
  | [] =>
    match s.dev.idle with
    | (d, some c) => exec c { s with dev := d }
    | (d, none) => s.next d

/-- The state with the command that a table word spells at the front of its queue; unchanged where the word spells none. -/
def State.withFetchWord (s : State) (nbits w : Nat) : State :=
  match decodeTableWord nbits w with
  | some c => { s with pending := c :: s.pending }
  | none => s

end Sys2Proof.Machine
end

