-- ==== Sys2Proof/Safety.lean ====
section
/-! DEFINITION. What counts as a safe run of the block, and what the end of a cycle may leave: the terms that claims use. -/
namespace Sys2Proof
open Machine

/-- A run of `k` steps from a state answers a state. -/
def SafeRun (k : Nat) (s : Machine.State) : Prop := ∃ t, Host.Core.run core k s = .next t

/-- Every occurrence raised so far has been counted and recorded (13 R322): none is left over between cycles. -/
def Settled (s : Machine.State) : Prop := s.dev.occ = []

/-- What the part reports agrees with what it is (13 R322, 20 R445, 23 R484): nothing is left uncounted, `DEGRADED` and what follows from it are up to date, ALERT_N is driven by the bits that drive it. -/
def Reported (s : Machine.State) : Prop :=
  s.dev.occ = [] ∧ s.dev.rd Reg.degraded = s.dev.degradedBits ∧
    s.dev.rd Reg.degradedUnprotected = s.dev.degradedBits % 2 ∧
    s.dev.rd Reg.svcRequest = svcOf s.dev.degradedBits s.dev.pwr.humReplace ∧
    s.dev.io.alertLow = s.dev.alertDrives

/-- The key of a register field that recording an occurrence may change (13 R320-R329, 20 R444, R445): source counts, pending MSI-X bits, the tail, `ACTIVE`, `OVERFLOW` and `LOST` of the event rings, the indices and counts of the fault log, `DEGRADED`, `SVC_REQUEST`, `ERR_SERVICE` and `DEGRADED_UNPROTECTED`. -/
def isRecordKey (k : Nat) : Bool :=
  let off := k / 64
  let lo := k % 64
  (inRange off 0x12000 0x1000 && lo == 32) || inRange off 0x11000 0x100 ||
    (inRange off 0x20000 0x20000 &&
      ((off % 32 == 0 && lo == 55) || (off % 32 == 8 && (lo == 32 || lo == 48)) || off % 32 == 16)) ||
    off == 0x300008 || off == 0x300010 || off == 0x300018 || off == 0x300020 ||
    k == fldKey Reg.errService || k == fldKey Reg.degradedUnprotected

/-- A register field that recording an occurrence leaves as it is. -/
def Plain (f : Fld) : Prop := isRecordKey (fldKey f) = false

/-- The device address of a record slot of an enabled event ring (13 R323): one of the ring's, or the one at its tail. A slot holds 32 bytes. -/
def RecordSlot (d : Dev) (a : Nat) : Prop :=
  ∃ r j, r < 4096 ∧ d.bit (Reg.ringEnable r) = true ∧ (j < d.ringEntries r ∨ j = d.rd (Reg.ringTail r)) ∧
    a = d.rd (Reg.ringBase r) + 32 * j

/-- `e` differs from `d` only in what recording occurrences leaves: record fields, slots of event rings, the fault log, what has left at the pins, and the poison of lines that a ring has rewritten whole (13 R322-R329, 14 R341, 20 R444, R445, 23 R484). -/
structure SameButRecords (d e : Dev) : Prop where
  tick : e.tick = d.tick
  freeCtr : e.freeCtr = d.freeCtr
  wafer : e.wafer = d.wafer
  mesh : e.mesh = d.mesh
  img : e.img = d.img
  serve : e.serve = d.serve
  wts : e.wts = d.wts
  pwr : e.pwr = d.pwr
  fab : e.fab = d.fab
  meas : e.meas = d.meas
  regs : ∀ f : Fld, Plain f → e.rd f = d.rd f
  tails : ∀ r, r < 4096 → e.rd (Reg.ringTail r) = d.rd (Reg.ringTail r) ∨ e.rd (Reg.ringTail r) < d.ringEntries r
  io : { e.io with ringPass := d.io.ringPass, ringLost := d.io.ringLost, alertLow := d.io.alertLow, outbox := d.io.outbox } = d.io
  outbox : d.io.outbox <+: e.io.outbox
  allocs : e.mem.allocs = d.mem.allocs
  frames : e.mem.frames = d.mem.frames
  dram : ∀ k, (∀ a i, RecordSlot d a → i < 32 → d.dramKey a + i ≠ k) → memGet e.mem.dram k = memGet d.mem.dram k
  hostMem : ∀ k, (∀ a i, RecordSlot d a → i < 32 → d.rd Reg.hostWinBase * 4096 + (a - 0x800000000000) + i ≠ k) →
    memGet e.mem.hostMem k = memGet d.mem.hostMem k
  rimSram : ∀ k, (∀ a i, RecordSlot d a → i < 32 → a - 0x200010000000 + i ≠ k) →
    memGet e.mem.rimSram k = memGet d.mem.rimSram k

/-- A Rhoic command is fetched, passes the common checks and starts (12 R298, R299, R303, R307-R312): its pair fetches (or had fetched it before), nothing refuses it, and it need not wait for an earlier command or a wake. `objs` are the objects it names. -/
def Starts (d : Dev) (row : Row) (objs : List Obj) (r : Rhoic) : Prop :=
  d.mayTake r = true ∧ (d.fetched r).2.refusal row r = none ∧
    (d.fetched r).2.mustWait row.op (d.fetched r).1.2 objs r = false

/-- The device once a Rhoic command has been fetched (12 R300, R304). -/
def fetchedDev (s : Machine.State) (r : Rhoic) : Dev := (s.dev.fetched r).2

/-- A command that starts, with the pair of its reply fixed at its fetch (12 R299). -/
def accepted (s : Machine.State) (r : Rhoic) : Rhoic := (fetchedDev s r).accept r

/-- The outcome of a command that completes with reply `p`, having left the device `d` (12 R300). -/
def Completes (s : Machine.State) (r : Rhoic) (p : Reply) (d : Dev) : Host.Outcome Machine.State Fault Refusal :=
  s.next (d.reply (accepted s r) (s.dev.fetched r).1.1 p)

/-- The outcome of a command that has started as job `j` and completes later, having left the device `d` (12 R309). -/
def RunsOn (s : Machine.State) (row : Row) (objs : List Obj) (r : Rhoic) (j : Job) (d : Dev) :
    Host.Outcome Machine.State Fault Refusal :=
  s.next { d with io := { d.io with running := d.io.running ++ [jobOf row.op objs (accepted s r) (s.dev.fetched r).1 j] } }

/-- The outcome of a command that ends with `bytes` in its buffer at `a` and reply `p`: inline on the management path, else at its address; the status of the buffer write where that fails (12 R297, R312). -/
def Delivers (s : Machine.State) (r : Rhoic) (a : Nat) (bytes : List Byte) (p : Reply) (d : Dev) :
    Host.Outcome Machine.State Fault Refusal :=
  if d.isInline r a then Completes s r { p with inl := bytes.take 4096 } d
  else
    let w := d.cmdWrite r.qp a bytes
    if w.1 = St.success then Completes s r p w.2.2 else Completes s r (bad w.1 w.2.1) w.2.2

/-- A descriptor fetched without error issues on a logical tile (06 R139, R142, R165): the tile has a site, its sequencer takes the next descriptor, which lies in the program, and no SRAM word it reads is bad. -/
def Issues (d : Dev) (t : Nat) (m : Met) : Prop :=
  (d.seatOf t).isSome = true ∧ (d.tile t).ready = true ∧ m.descEcc = false ∧ m.sramBad = none ∧
    64 + 16 * ((d.tile t).seqIndex + 1) ≤ (d.tile t).progBytes ∧ m.descCorr = false

/-- A descriptor's bits with the opcode of its row (06 R148). -/
def withOp (op : Nat) (desc : Desc) : Nat := desc.toNat / 64 * 64 + op

/-- The MCTP path is served (19 R419, 21 R465): rim firmware runs and the part is not off. -/
def ServesMctp (d : Dev) : Prop := 1 ≤ d.rd Reg.stage ∧ d.rd Reg.pstate < 4

/-- The device once an answer over MCTP of a message type has left that takes one free value (21 R458, R465, log entry 8). -/
def answeredMctp (d : Dev) (kind : Nat) (bytes : List Byte) : Dev := { d with freeCtr := d.freeCtr + 1 }.emit (.mctp kind bytes)

/-- The access reaches the registers and the named word takes writes (19 R419, R423, 22 R470, R476). -/
def Takes (d : Dev) (a : RegAcc) (off : Nat) : Prop :=
  d.reaches a.who = true ∧ accessOk a = true ∧ (off < 0x2000 ∨ 7 ≤ d.rd Reg.stage)

/-- The access, a write of the word at `off`, covers field `f` whole and gives it `v` (22 R470). -/
def Gives (a : RegAcc) (off : Nat) (f : Fld) (v : Nat) : Prop :=
  (wordOf a off).covers f = true ∧ (wordOf a off).value f = v

/-- The command answers a next state of which `P` holds. -/
def Answers (c : Instr) (s : Machine.State) (P : Machine.State → Prop) : Prop := ∃ t, exec c s = .next t ∧ P t

end Sys2Proof
end

