-- ==== Sys2Proof/Certificates/Slice0/Obligations.lean ====
section
/-! DEFINITION. The statements about the W36 model for the provers: what a step does, what every command of the table completes with and leaves, the rules of the whole machine. -/
open Sys2Proof Sys2Proof.Machine

/-- A step takes the command at the front of the queue and runs it on the rest (log entry 16 says how a command comes there). With an empty queue a step is one tick of the 25 MHz clock, in which rim firmware starts the command that it fetches, if any (the model's choice, log entry 16). -/
def Obligations.StepRunsFront : Prop :=
  (∀ (s : State) (c : Instr) (rest : List Instr), s.pending = c :: rest → step s = exec c { s with pending := rest }) ∧
  (∀ s : State, s.pending = [] →
     step s = match s.dev.idle.2 with
       | some c => exec c { s with dev := s.dev.idle.1 }
       | none => s.next s.dev.idle.1)

/-- After a power-on reset every register reads its reset value: the part stands at stage B0 in P0, with no image, DRAM up to 384 GiB, queue pair 0 alone in use, nothing in any memory, ring, queue or record. The registers that report the state of the part agree with it, no occurrence is left over and ALERT_N is driven as it should be (20 R445, 13 R322, 23 R484). -/
def Obligations.ResetState : Prop :=
  ((∀ f : Fld, State.reset.dev.rd f = f.reset) ∧
   State.reset.dev.rd Reg.stage = 0 ∧ State.reset.dev.rd Reg.pstate = 0 ∧ State.reset.dev.rd Reg.imageState = 0 ∧
   State.reset.dev.dramTop = 0x6000000000 ∧ (∀ q, State.reset.dev.qpOn q = decide (q = 0)) ∧
   (∀ r, State.reset.dev.bit (Reg.ringEnable r) = false) ∧
   State.reset.pending = [] ∧ State.reset.dev.occ = [] ∧ State.reset.dev.mem.faultLog = [] ∧
   State.reset.dev.mem.dram = [] ∧ State.reset.dev.mem.rimSram = [] ∧ State.reset.dev.img.active = none ∧
   State.reset.dev.serve.streams = [] ∧ State.reset.dev.io.outbox = []) ∧
  (Reported State.reset)

/-- Every step of every state keeps the reports true: `DEGRADED` holds the conditions of 20 R445 as they are, `DEGRADED_UNPROTECTED` is its bit 0, `SVC_REQUEST` the request they make, no occurrence is left uncounted, and ALERT_N is low exactly while `ERR_DOUBLE`, `ERR_SERVICE` or `ERR_STALL` stands. That they are evaluated from stage B7 on is the model's reading (log entry 12). -/
def Obligations.StepKeepsReported : Prop := ∀ s t : State, Reported s → step s = .next t → Reported t

/-- Every run of the block, of any length and from any state, answers a state: no command faults or is refused. -/
def Obligations.EveryRunIsSafe : Prop := ∀ (k : Nat) (s : State), SafeRun k s

/-- A command puts nothing into the queue of waiting commands, and only the end of a bring-up stage, ROTATE_KEY and a firmware update change what the part holds for good: firmware slots, key slots, rollback floor, identity. -/
def Obligations.WhatOnlySomeCommandsChange : Prop :=
  ∀ (c : Instr) (s t : State), exec c s = .next t →
    t.pending = s.pending ∧
    (t.sec ≠ s.sec → (∃ i, c = .stageReached i) ∨ (∃ r, c = .rotateKey r) ∨ (∃ b, c = .pldmFirmwareUpdate b))

/-- The commands that answer from what the device holds complete with the bytes their rules name in the buffer, and the result: IDENTIFY (the identity block; result stage and stepping), STATUS (the status block; result stage, power state, DEGRADED_UNPROTECTED, image state), FAULT_READ (`count` records from `index`; result the newest index), INCLUSION_REPORT (the report up to the buffer's length, with an image active). QUERY_USAGE delivers a tenant's or a stream's usage record; STREAM_READ the history tokens asked for, as 4-byte words, with the committed and appended counts as results; a stream that the pair may not name is refused. -/
def Obligations.QueriesDeliver : Prop :=
  (∀ (s : State) (r : Rhoic),
     let d := fetchedDev s r
     (Starts s.dev rowIdentify [] r → exec (.identify r) s =
       Delivers s r (arg r 8 8) (d.block 0) { result := d.rd Reg.stage + 256 * d.rd Reg.stepping } d) ∧
     (Starts s.dev rowStatus [] r → exec (.status r) s = Delivers s r (arg r 8 8) (d.block 0x1000)
       { result := d.rd Reg.stage + 8 * d.rd Reg.pstate + 64 * d.rd Reg.degradedUnprotected + 128 * d.rd Reg.imageState } d) ∧
     (Starts s.dev rowFaultRead [] r → exec (.faultRead r) s = Delivers s r (arg r 16 8)
       ((List.range (arg r 12 4)).flatMap fun i => d.faultBytes ((arg r 8 4 + i) % 2 ^ 32)) { result := d.rd Reg.faultNewest } d) ∧
     (Starts s.dev rowInclusionReport [] r → d.rd Reg.imageState = 1 → exec (.inclusionReport r) s =
       Delivers s r (arg r 16 8) (d.reportOf.take (arg r 24 4)) {} d)) ∧
  (∀ (s : State) (r : Rhoic),
     let d := fetchedDev s r
     let t := d.tenantArg r 8
     (∀ objs, objs = Obj.tenant (s.dev.tenantArg r 8) :: (if arg r 10 1 = 1 then [Obj.stream (arg r 12 2)] else []) →
       Starts s.dev rowQueryUsage objs r → arg r 10 1 = 0 → t < 4096 →
       exec (.queryUsage r) s = Delivers s r (arg r 16 8) (usageBytes (d.tenant t).usedGen (d.tenant t).usedPrefill
         (d.tenant t).usedRecompute (d.tenant t).balance (d.openOf t) (d.tenant t).reserved) {} d) ∧
     (∀ objs x, objs = Obj.tenant (s.dev.tenantArg r 8) :: (if arg r 10 1 = 1 then [Obj.stream (arg r 12 2)] else []) →
       Starts s.dev rowQueryUsage objs r → arg r 10 1 = 1 → t < 4096 → d.stream? (arg r 12 2) = some x →
       exec (.queryUsage r) s =
         if d.classOf r.qp = 3 ∧ x.tenant ≠ t then Completes s r (bad St.streamUnknown) d
         else Delivers s r (arg r 16 8) (usageBytes x.usedGen x.usedPrefill x.usedRecompute 0 0 0) {} d) ∧
     (∀ x, Starts s.dev rowStreamRead [.stream (arg r 8 2)] r → d.named r (arg r 8 2) false false = .inr x →
       1 ≤ arg r 12 4 → arg r 16 8 + arg r 12 4 ≤ x.appended →
       exec (.streamRead r) s = Delivers s r (arg r 24 8)
         (((x.history.drop (arg r 16 8)).take (arg r 12 4)).flatMap fun t => leBytes 4 t)
         { result := x.committed, result2 := x.appended } d))

/-- READ_DRAM and WRITE_DRAM copy 64 bytes to 16 MiB, a multiple of 64, between the buffer and device memory; any other length is PARAM_RANGE at byte 24, and a line that cannot be corrected ends the read, with its address as result and the bytes before it. A DRAM write of a command: plain, unprotected memory below the end of DRAM takes the bytes, at the address and no other, and nothing else of the device changes but the poison of lines rewritten whole. -/
def Obligations.DramCopies : Prop :=
  (∀ (s : State) (r : Rhoic),
     let d := fetchedDev s r
     let n := arg r 24 4
     let ok := 64 ≤ n ∧ n ≤ 0x1000000 ∧ n % 64 = 0
     (Starts s.dev rowReadDram [] r → ¬ ok → exec (.readDram r) s = Completes s r (bad St.paramRange 24) d) ∧
     (Starts s.dev rowWriteDram [] r → ¬ ok → exec (.writeDram r) s = Completes s r (bad St.paramRange 24) d) ∧
     (∀ x bs e, Starts s.dev rowReadDram [] r → ok → d.cmdRead r.qp (arg r 8 8) n = (St.success, x, bs, e) →
       exec (.readDram r) s = Delivers s r (arg r 16 8) bs {} e) ∧
     (∀ x e, Starts s.dev rowReadDram [] r → ok → d.cmdRead r.qp (arg r 8 8) n = (St.uncorrectable, x, [], e) →
       exec (.readDram r) s = Completes s r { st := St.uncorrectable, result := x } e) ∧
     (∀ x bs e, Starts s.dev rowReadDram [] r → ok → d.cmdRead r.qp (arg r 8 8) n = (St.uncorrectable, x, bs, e) → bs ≠ [] →
       exec (.readDram r) s = Delivers s r (arg r 16 8) bs { st := St.uncorrectable, result := x } e) ∧
     (∀ x bs e y e2, Starts s.dev rowWriteDram [] r → ok → d.bufIn r (arg r 16 8) n = (St.success, x, bs, e) →
       e.cmdWrite r.qp (arg r 8 8) bs = (St.success, y, e2) → exec (.writeDram r) s = Completes s r {} e2)) ∧
  (∀ (d : Dev) (q a : Nat) (bs : List Byte),
     d.inWindow q a bs.length = true → a + bs.length ≤ d.dramTop → a < d.dramTop →
     firstIn d.protectedAt a bs.length = none → d.partialPoison a bs.length = false →
     (d.cmdWrite q a bs).1 = St.success ∧
     (∀ k, memGet (d.cmdWrite q a bs).2.2.mem.dram k =
       if d.dramKey a ≤ k ∧ k < d.dramKey a + bs.length then bs.getD (k - d.dramKey a) 0 else memGet d.mem.dram k) ∧
     (∀ f, (d.cmdWrite q a bs).2.2.rd f = d.rd f) ∧ (d.cmdWrite q a bs).2.2.mem.hostMem = d.mem.hostMem ∧
     (d.cmdWrite q a bs).2.2.mem.rimSram = d.mem.rimSram ∧ (d.cmdWrite q a bs).2.2.wafer = d.wafer ∧
     (Mem.wf d.mem.dram = true → Mem.wf (d.cmdWrite q a bs).2.2.mem.dram = true))

/-- CREATE_QUEUE writes a pair's entry and puts it in use; DELETE_QUEUE returns every field of a pair not in use by a stream to its reset value. A pair in use is QUEUE_INVALID for one and, where a stream delivers to it or records wait, QUEUE_IN_USE for the other; pair 0 and numbers beyond 16,383 are PARAM_RANGE. -/
def Obligations.QueueCommands : Prop :=
  ∀ (s : State) (r : Rhoic),
    let d := fetchedDev s r
    let q := arg r 8 2
    (Starts s.dev rowCreateQueue [] r →
      ((q = 0 ∨ 16384 ≤ q) → exec (.createQueue r) s = Completes s r (bad St.paramRange 8) d) ∧
      (0 < q → q < 16384 → entryReserved r = none →
        (d.qpOn q = true → exec (.createQueue r) s = Completes s r (bad St.queueInvalid) d) ∧
        (d.qpOn q = false → (d.fillEntry q r).ringsValid q = true →
          exec (.createQueue r) s = Completes s r {} (((((d.fillEntry q r).wr (Reg.qEnable q) 1).wr (Reg.cmdCount q) 0)).pumpCq q)) ∧
        (d.qpOn q = false → (d.fillEntry q r).ringsValid q = false →
          exec (.createQueue r) s = Completes s r (bad St.queueInvalid) d))) ∧
    (Starts s.dev rowDeleteQueue [] r →
      ((q = 0 ∨ 16384 ≤ q) → exec (.deleteQueue r) s = Completes s r (bad St.paramRange 8) d) ∧
      (0 < q → q < 16384 → d.pairInUse q = true → exec (.deleteQueue r) s = Completes s r (bad St.queueInUse) d) ∧
      (0 < q → q < 16384 → d.pairInUse q = false →
        ∃ e, exec (.deleteQueue r) s = Completes s r {} e ∧ (∀ f ∈ Reg.queueFields q, e.rd f = f.reset) ∧
          (∀ f, ¬ (0x100000 + 64 * q ≤ f.off ∧ f.off < 0x100000 + 64 * q + 64) → f.lo < 64 → e.rd f = d.rd f) ∧
          e.mem = d.mem ∧ e.serve = d.serve))

/-- A doorbell moves `SQ_TAIL` where its SV bit is set and `CQ_HEAD` where its CV bit is, each alone where the other bit is 0 (12 R305); a bad one (a pair not in use, another path, an index outside its ring, a head past the tail) sets `ERR_DOORBELL` and leaves the pair unchanged. -/
def Obligations.Doorbells : Prop :=
  ∀ (s : State) (path q : Nat) (v : Word),
    let d := s.dev
    let tail := bitsOf v.toNat 0 16
    let head := bitsOf v.toNat 16 16
    let sv := bitOf v.toNat 32
    let cv := bitOf v.toNat 33
    let passes := d.cqUnread q < (head + d.cqEntries q - d.rd (Reg.cqHead q) % d.cqEntries q) % d.cqEntries q
    let refused := d.qpOn q = false ∨ d.rd (Reg.qPath q) ≠ path ∨ (sv = true ∧ d.sqEntries q ≤ tail) ∨
      (cv = true ∧ (d.cqEntries q ≤ head ∨ passes))
    7 ≤ d.rd Reg.stage → (path = 0 → d.io.pcieUp = true) → q < 16384 →
    (refused → exec (.doorbell path q v) s = s.next (d.setW1c (Reg.errDoorbell q) 80)) ∧
    (¬ refused → Answers (.doorbell path q v) s fun t =>
      t.dev.rd (Reg.sqTail q) = (if sv = true then tail else d.rd (Reg.sqTail q)) ∧
      t.dev.rd (Reg.cqHead q) = (if cv = true then head else d.rd (Reg.cqHead q)) ∧
      t.dev.rd (Reg.errDoorbell q) = d.rd (Reg.errDoorbell q) ∧ t.dev.serve = d.serve ∧ t.dev.wafer = d.wafer ∧ t.dev.img = d.img) ∧
    (¬ refused → cv = false → Answers (.doorbell path q v) s fun t =>
      ∀ f, Plain f → fldKey f ≠ fldKey (Reg.sqTail q) → t.dev.rd f = d.rd f) ∧
    (¬ refused → cv = true → sv = false → exec (.doorbell path q v) s = s.next ((d.wr (Reg.cqHead q) head).pumpCq q))

/-- ENABLE of a queue pair's entry: written 1 on a pair that is off and whose entry then holds rings that are allowed, it puts the pair in use; written 0 it takes it out of use; pair 0 ignores it. Waiting records of a pair are written as far as its ring has space: with none waiting nothing changes, with no space they stay, and one that has space is written to the ring. -/
def Obligations.PairsInUse : Prop :=
  (∀ (s : State) (q : Nat) (a : RegAcc),
     let off := 0x100000 + 64 * q
     let w := wordOf a off
     let entry := s.dev.storeRw w ((Reg.queueFields q).filter fun f => f != Reg.qEnable q)
     q < 16384 → Takes s.dev a off →
     (0 < q → s.dev.qpOn q = false → Gives a off (Reg.qEnable q) 1 →
       exec (.queueEnable q a) s =
         s.next (if entry.ringsValid q = true then ((entry.wr (Reg.qEnable q) 1).wr (Reg.cmdCount q) 0).pumpCq q else entry)) ∧
     (0 < q → s.dev.qpOn q = true → Gives a off (Reg.qEnable q) 0 →
       exec (.queueEnable q a) s = s.next (s.dev.wr (Reg.qEnable q) 0)) ∧
     (q = 0 → exec (.queueEnable q a) s = s.next s.dev)) ∧
  (∀ (s : State) (q : Nat),
     (s.dev.waitingOn q = [] → Answers (.completionRecordWrite q) s fun t =>
       t.dev.serve = s.dev.serve ∧ t.dev.waitingOn q = [] ∧ ∀ f, Plain f → t.dev.rd f = s.dev.rd f) ∧
     (∀ g gs, s.dev.waitingOn q = g :: gs → q ≠ 0 →
       (s.dev.qpOn q = false ∨ s.dev.bit (Reg.errBase q) = true ∨ s.dev.cqEntries q ≤ s.dev.cqUnread q + g.length) →
       exec (.completionRecordWrite q) s = s.next (s.dev.setWaiting q (g :: gs))) ∧
     (∀ g, s.dev.waitingOn q = [g] → q ≠ 0 → s.dev.qpOn q = true → s.dev.bit (Reg.errBase q) = false →
       s.dev.cqUnread q + g.length < s.dev.cqEntries q → s.dev.rd (Reg.qPath q) ≠ 1 → ∀ e, s.dev.putGroup q g = some e →
       exec (.completionRecordWrite q) s =
         s.next ((((if s.dev.cqUnread q = 0 then e.notifyQueue q else e).noteWritten g).setWaiting q []))))

/-- What a Rhoic command meets before its own checks: on a pair that does not fetch (not in use, with a failed ring access or with a completion that waits) nothing at all happens, unless it had been fetched before; else, before stage B7 all but IDENTIFY and STATUS are NOT_READY; a reserved header bit is PARAM_RESERVED at its byte; a class that may not use the opcode is NOT_PERMITTED; in P2 and P3 all but the commands of 12 R308 are POWER_STATE; a parameter byte the opcode does not use and that is not 0 is PARAM_RESERVED. Refused, it is answered and changes nothing else. The order among them is the model's (log entry 15). A packet whose opcode the table does not list is answered OPCODE_UNKNOWN with the opcode, and does nothing else. -/
def Obligations.CommonRefusals : Prop :=
  (∀ (d : Dev) (row : Row) (objs : List Obj) (r : Rhoic) (start : Dev → Start),
     let e := (d.fetched r).2
     let answered := fun p => d.rhoic row objs r start = e.reply r (d.fetched r).1.1 p
     (d.mayTake r = false → d.rhoic row objs r start = d) ∧
     (d.mayTake r = true →
     (e.rd Reg.stage < 7 → row.op ≠ 1 → row.op ≠ 2 → answered (bad St.notReady (e.rd Reg.stage))) ∧
     (7 ≤ e.rd Reg.stage →
       (bitsOf r.pkt.toNat 10 6 ≠ 0 → answered (bad St.paramReserved 1)) ∧
       (bitsOf r.pkt.toNat 10 6 = 0 → bitsOf r.pkt.toNat 30 2 ≠ 0 → answered (bad St.paramReserved 3)) ∧
       (headerReserved r = none → e.replyPair r = none → answered (bad St.notPermitted 1)) ∧
       (headerReserved r = none → (e.replyPair r).isSome = true →
         (bitOf row.classes (e.classOf r.qp) = false → answered (bad St.notPermitted 0)) ∧
         (bitOf row.classes (e.classOf r.qp) = true → ¬ (0x20 ≤ row.op ∧ row.op ≤ 0x2A ∧ e.rd Reg.segment ≠ 0) →
           ((e.acceptState = 2 ∨ e.acceptState = 3) → acceptedAsleep row.op = false →
             answered (bad St.powerState e.acceptState)) ∧
           (∀ o, e.acceptState < 2 → paramReserved row.params r = some o → answered (bad St.paramReserved o))))))) ∧
  (∀ (s : State) (r : Rhoic), s.dev.mayTake r = true →
     exec (.opcodeUnknown r) s = Completes s r (bad St.opcodeUnknown (bitsOf r.pkt.toNat 0 8)) (fetchedDev s r))

/-- The fetch of a command from its ring moves `SQ_HEAD` on by one, around the ring, where the ring is not empty, counts the command in `CMD_COUNT` and gives it the next place in the order of fetches; in P1 it starts the wake to P0; a packet of pair 0 is placed into that pair's submission ring first, at its tail; nothing else changes. -/
def Obligations.FetchCounts : Prop :=
  ∀ (d : Dev) (r : Rhoic), r.fetched = none → r.qp < 16384 →
    let e := (d.fetched r).2
    let q := r.qp
    (q ≠ 0 → d.rd (Reg.sqHead q) ≠ d.rd (Reg.sqTail q) →
      e.rd (Reg.sqHead q) = (d.rd (Reg.sqHead q) + 1) % d.sqEntries q % 2 ^ 16 ∧ (d.fetched r).1.1 = (d.rd (Reg.sqHead q) + 1) % d.sqEntries q) ∧
    e.rd (Reg.cmdCount q) = (d.rd (Reg.cmdCount q) + 1) % 2 ^ 64 ∧ e.io.cmdSeq = d.io.cmdSeq + 1 ∧
    (d.fetched r).1.2 = d.io.cmdSeq ∧
    (d.rd Reg.pstate = 1 → d.bit Reg.pstateBusy = false → e.rd Reg.pstateBusy = 1 ∧ e.rd Reg.pstateTarget = 0) ∧
    (∀ f, fldKey f ≠ fldKey (Reg.sqHead q) → fldKey f ≠ fldKey (Reg.cmdCount q) → (q = 0 → fldKey f ≠ fldKey (Reg.sqTail 0)) →
      (d.rd Reg.pstate = 1 → fldKey f ≠ fldKey Reg.pstateBusy ∧ fldKey f ≠ fldKey Reg.pstateTarget) → e.rd f = d.rd f) ∧
    (∀ e0, q = 0 → d.rd Reg.stage ≠ 0 → d.ringStore (d.rd (Reg.sqBase 0) + 64 * d.rd (Reg.sqTail 0)) (leBytes 64 r.pkt.toNat) = some e0 →
      e.rd (Reg.sqTail 0) = (d.rd (Reg.sqTail 0) + 1) % d.sqEntries 0 % 2 ^ 16 ∧ e.mem = e0.mem) ∧
    (q ≠ 0 → e.mem = d.mem) ∧ e.wafer = d.wafer ∧ e.mesh = d.mesh ∧ e.img = d.img ∧ e.serve = d.serve ∧ e.wts = d.wts ∧ e.pwr = d.pwr ∧
    e.fab = d.fab ∧ e.meas = d.meas ∧ e.occ = d.occ

/-- SET_MODE_SPLIT: with beats running the modes of `mask` wait for the next boundary and show in `MODE_PENDING`; with none they change at once (the model's reading, log entry 45 for the like); a change of sampling to host-assisted mode with seeds missing is SEED_MISSING. SET_POWER_STATE: a state the part is in completes at once with it as result; P1, P2 and P3 start a transition; a state above 3 is PARAM_RANGE; another segment than the head is NOT_PERMITTED. -/
def Obligations.ModesAndPowerStates : Prop :=
  ∀ (s : State) (r : Rhoic),
    let d := fetchedDev s r
    let mask := arg r 8 1
    let value := arg r 9 1
    let seeds := bitOf mask 5 && bitOf value 5 && !d.hostMode 5 && d.seedsMissing != 0
    let t := arg r 8 1
    (Starts s.dev rowSetModeSplit [] r →
      (seeds = true → exec (.setModeSplit r) s = Completes s r (bad St.seedMissing (min d.seedsMissing 0xFFFF)) d) ∧
      (seeds = false → d.noBeats = true → exec (.setModeSplit r) s =
        Completes s r { result := mergeBits (d.rd Reg.modeSplit) mask value }
          (d.wr Reg.modeSplit (mergeBits (d.rd Reg.modeSplit) mask value)).dropSchedules) ∧
      (seeds = false → d.noBeats = false → exec (.setModeSplit r) s =
        RunsOn s rowSetModeSplit [] r { op := 0x03, req := r }
          ({ d with serve := { d.serve with modePending := d.serve.modePending ++ [(mask, value)] } }.wr Reg.modePending
            (d.rd Reg.modePending ||| mask)))) ∧
    (Starts s.dev rowSetPowerState [] r →
      (3 < t → exec (.setPowerState r) s = Completes s r (bad St.paramRange 8) d) ∧
      (t ≤ 3 → d.rd Reg.segment ≠ 0 → exec (.setPowerState r) s = Completes s r (bad St.notPermitted 0) d) ∧
      (t ≤ 3 → d.rd Reg.segment = 0 → d.bit Reg.pstateBusy = false → d.jobs 0x04 = [] →
        ¬ (t < 2 ∧ d.rd Reg.pstate = 3 ∧ d.coolantFit = false) →
        (t = d.rd Reg.pstate → exec (.setPowerState r) s = Completes s r { result := t } (d.orderPower t)) ∧
        (t = 0 → d.rd Reg.pstate ≠ 0 → exec (.setPowerState r) s =
          RunsOn s rowSetPowerState [] r { op := 0x04, req := r } (((d.orderPower 0).wr Reg.pstateBusy 1).wr Reg.pstateTarget 0)) ∧
        (t ≠ 0 → t ≠ d.rd Reg.pstate → exec (.setPowerState r) s =
          RunsOn s rowSetPowerState [] r { op := 0x04, req := r } ((d.orderPower t).startTransition t))))

/-- LOAD_IMAGE reads the image from DRAM and checks it: one that fails a check is IMAGE_REFUSED with the check's code and location and an IMAGE_LOAD_REFUSED record, and no image is loaded; one that passes is held as the loaded image, with an IMAGE_LOADED record and the model number as result. ACTIVATE_IMAGE holds new waves (hold 0) until the loaded image stands on the tiles; with none loaded it is NO_IMAGE. IMAGE_ACTIVATED (08 R202, 05 R126): with no image loaded and none on the tiles, and while a wave is left or issue stands, it changes nothing. Else it writes the loaded image to the tiles; where the first beat may start it does, and that image is the active one, ACTIVATE_IMAGE having ended; where in host-assisted sampling a seed is missing nothing more happens, and a later IMAGE_ACTIVATED starts the first beat once every consumer has its seed. -/
def Obligations.ImagesLoadAndActivate : Prop :=
  (∀ (s : State) (r : Rhoic),
     let d := fetchedDev s r
     let a := arg r 8 8
     let n := arg r 16 8
     (∀ x bs e, Starts s.dev rowLoadImage [] r → a + n ≤ d.dramTop → d.cmdRead r.qp a n = (St.success, x, bs, e) →
       (∀ f, e.loadSteps s.sec.signers bs n = .inl f →
         exec (.loadImage r) s = Completes s r { st := St.imageRefused, detail := f.code, result := f.result }
           (e.loadRefused f)) ∧
       (∀ im e2, e.loadSteps s.sec.signers bs n = .inr (im, e2) →
         exec (.loadImage r) s = Completes s r { result := im.modelId }
           ({ e2 with img := { e2.img with loaded := some im } }.raise
             { code := Rc.imageLoaded, detail := im.modelId, source := 76 }))) ∧
     (Starts s.dev rowActivateImage [] r → d.img.loaded = none →
       exec (.activateImage r) s = Completes s r (bad St.noImage) d) ∧
     (Starts s.dev rowActivateImage [] r → d.img.loaded ≠ none → d.jobs 0x11 = [] → d.jobs 0x12 = [] → d.jobs 0x14 = [] →
       d.jobs 0x70 = [] → exec (.activateImage r) s =
         RunsOn s rowActivateImage [] r { op := 0x12, req := r } ({ d with img := { d.img with activating := true } }.hold 0))) ∧
  (∀ s : State,
     (s.dev.img.placed = false → s.dev.img.loaded = none ∨ s.dev.activationReady = false →
       exec .imageActivated s = s.next s.dev) ∧
     (∀ im, s.dev.img.loaded = some im → s.dev.activationReady = true →
       let p := s.dev.placeOnTiles im
       (p.firstBeatReady im = false → exec .imageActivated s = s.next p ∧ p.img.active = some im ∧ p.img.placed = true) ∧
       (p.firstBeatReady im = true → Answers .imageActivated s fun t => t.dev.img.loaded = none ∧ t.dev.img.everActive = true ∧
         t.dev.img.activating = false ∧ t.dev.img.placed = false ∧ t.dev.img.model = some (im.modelId, im.weightVersion))) ∧
     (∀ im, s.dev.img.active = some im → s.dev.img.placed = true → s.dev.firstBeatReady im = true →
       Answers .imageActivated s fun t => t.dev.img.everActive = true ∧ t.dev.img.activating = false ∧ t.dev.img.placed = false ∧
         t.dev.img.model = some (im.modelId, im.weightVersion)))

/-- PATCH with an image active, an existing region and a free range lists the range, notes the region and its new base and holds waves (hold 5); no image, a stopped image, an unknown region and a base that does not fit are refused. PATCH_COPY_DONE, with no wave in flight, gives the region that base in the active image and ends the patch. -/
def Obligations.PatchMovesRegion : Prop :=
  (∀ (s : State) (r : Rhoic),
    let d := fetchedDev s r
    let b := arg r 16 8
    Starts s.dev rowPatch [] r →
      (d.rd Reg.imageState = 0 → d.jobs 0x11 = [] → d.jobs 0x12 = [] → exec (.patch r) s = Completes s r (bad St.noImage) d) ∧
      (d.rd Reg.imageState = 2 → d.jobs 0x11 = [] → d.jobs 0x12 = [] → exec (.patch r) s = Completes s r (bad St.imageStopped) d) ∧
      (d.rd Reg.imageState = 1 → d.jobs 0x11 = [] → d.jobs 0x12 = [] →
        (d.image.regions.find? (fun g => g.num == arg r 8 1) = none → exec (.patch r) s = Completes s r (bad St.paramRange 8) d) ∧
        (∀ g, d.image.regions.find? (fun g => g.num == arg r 8 1) = some g →
          (b % 4096 ≠ 0 → exec (.patch r) s = Completes s r (bad St.paramRange 16) d) ∧
          (b % 4096 = 0 → b + g.size ≤ d.dramTop → ¬ ((g.kind = 2 ∨ g.kind = 3) ∧ d.mirrorBytes < b + g.size) →
            d.overlapsTaken (g.kind == 2 || g.kind == 3) b g.size = false → b + g.size ≤ Config.yieldBase →
            exec (.patch r) s = RunsOn s rowPatch [] r { op := 0x11, req := r }
              ({ d with mem := { d.mem with allocs := insertAlloc { base := b, size := g.size, kind := 3, owner := arg r 8 1 } d.mem.allocs },
                        img := { d.img with patching := some (arg r 8 1, b) } }.hold 5))))) ∧
  (∀ (s : State) (num b : Nat) (im : Image) (g : RegionRec),
    s.dev.img.patching = some (num, b) → s.dev.img.active = some im → s.dev.drained = true →
    im.regions.find? (fun h => h.num == num) = some g →
    Answers .patchCopyDone s fun t => t.dev.img.patching = none ∧ t.dev.held 5 = false ∧
      ∃ im2, t.dev.img.active = some im2 ∧ im2.regions = im.regions.map fun h => if h.num = num then { h with base := b } else h)

/-- STAGE_WEIGHTS asks the peer it names for the package (source 0): the stage state is 1 and the version that of the command; no image, a stopped image, a source above 1 and a bad peer are refused; a version that is already staged completes at once. -/
def Obligations.StageWeightsStarts : Prop :=
  ∀ (s : State) (r : Rhoic),
    let d := fetchedDev s r
    let v := arg r 8 4
    let src := arg r 12 1
    let peer := arg r 14 2
    Starts s.dev rowStageWeights [] r →
      (d.rd Reg.imageState = 0 → exec (.stageWeights r) s = Completes s r (bad St.noImage) d) ∧
      (d.rd Reg.imageState = 2 → exec (.stageWeights r) s = Completes s r (bad St.imageStopped) d) ∧
      (d.rd Reg.imageState = 1 → 1 < src → exec (.stageWeights r) s = Completes s r (bad St.paramRange 12) d) ∧
      (d.rd Reg.imageState = 1 → src = 0 → d.hostMode 7 = false → (1024 ≤ peer ∨ peer = d.rd Reg.fabDevice) →
        exec (.stageWeights r) s = Completes s r (bad St.paramRange 14) d) ∧
      (d.rd Reg.imageState = 1 → src ≤ 1 → (src = 0 → d.hostMode 7 = false ∧ peer < 1024 ∧ peer ≠ d.rd Reg.fabDevice) →
        d.jobs 0x13 = [] → d.jobs 0x12 = [] →
        (d.wts.staged ≠ none → d.rd Reg.stagedVersion = v → d.rd Reg.swapState ≠ 4 →
          exec (.stageWeights r) s = Completes s r {} d) ∧
        (d.wts.staged = none → src = 0 → d.peerGone peer = false →
          exec (.stageWeights r) s = RunsOn s rowStageWeights [] r { op := 0x13, req := r }
            ((({ d.clearStage with wts := { d.clearStage.wts with arriving := some (peer, 0) } }.wr Reg.stagedVersion v).wr
              Reg.stageState 1).sendChunk peer v 0 [])))

/-- WEIGHTS_STAGED, once the last byte is there (stage state 3), stages a package whose signature verifies: the state is 4, WEIGHTS_STAGED is recorded and the command completes; one whose signature fails is IMAGE_REFUSED. In another stage state it changes nothing. WEIGHT_CHUNK of the peer and version that are staged, at the next offset, is taken in package order; any other chunk with bytes is discarded. -/
def Obligations.StagingTakesBytes : Prop :=
  (∀ s : State,
    (s.dev.rd Reg.stageState ≠ 3 → exec .weightsStaged s = s.next s.dev) ∧
    (s.dev.rd Reg.stageState = 3 → pkgSigned s.dev.wts.arrived = false →
      exec .weightsStaged s = s.next (s.dev.stageFails { st := St.imageRefused, detail := 0x04 })) ∧
    (s.dev.rd Reg.stageState = 3 → pkgSigned s.dev.wts.arrived = true → s.dev.jobs 0x13 = [] → s.dev.fab.joining = none →
      exec .weightsStaged s = s.next (({ s.dev with wts := { s.dev.wts with
        staged := some (pkgOf s.dev.wts.arrived), arriving := none, arrived := [], arrivedLen := 0 } }.wr Reg.stageState 4).raise
          { code := Rc.weightsStaged, detail := (pkgOf s.dev.wts.arrived).version, source := 76 }))) ∧
  (∀ (s : State) (src version off : Nat) (data : List Byte), data ≠ [] →
    (s.dev.wts.arriving = none → exec (.weightChunk src version off data) s = s.next s.dev) ∧
    (∀ peer total, s.dev.wts.arriving = some (peer, total) →
      ((peer ≠ src ∨ s.dev.rd Reg.stagedVersion ≠ version ∨ off ≠ s.dev.wts.arrivedLen) →
        exec (.weightChunk src version off data) s = s.next s.dev) ∧
      (peer = src → s.dev.rd Reg.stagedVersion = version → off = s.dev.wts.arrivedLen → s.dev.rd Reg.stageState < 3 →
        (total = 0 ∨ off + data.length ≤ total) →
        let e := ({ s.dev with wts := { s.dev.wts with arrived := memWrite s.dev.wts.arrived off data,
                                                       arrivedLen := off + data.length } }.wr Reg.stageBytes (off + data.length)).checkArrived
          s.sec.signers off
        exec (.weightChunk src version off data) s = s.next (if e.wts.arriving.isNone then e
          else (e.sendChunk src version (off + data.length) []).pumpForward maxChunks))))

/-- SWAP_WEIGHTS of the staged version raises the barrier (swap state 1) and orders it of the other segments; it is refused on another segment than the head, with a stopped image, or where no such version is staged (without an image none is). FORWARD_WEIGHTS of a version the device holds starts a forward to the peer. SWAP_COPY_DONE writes the weights of the swapped image into the tiles in the copy step of a swap (swap state 3), once, with no wave in flight, and marks the copy done. WEIGHT_COPY_DONE ends a copy-back: no package is staged or arrives, and the swap and stage states and the staged version are 0; without one it changes nothing. -/
def Obligations.SwapsAndForwards : Prop :=
  (∀ (s : State) (r : Rhoic),
     let d := fetchedDev s r
     (Starts s.dev rowSwapWeights [] r →
       (d.rd Reg.segment ≠ 0 → exec (.swapWeights r) s = Completes s r (bad St.notPermitted 0) d) ∧
       (d.rd Reg.segment = 0 → d.rd Reg.imageState = 0 → exec (.swapWeights r) s = Completes s r (bad St.notStaged) d) ∧
       (d.rd Reg.segment = 0 → d.rd Reg.imageState = 2 → exec (.swapWeights r) s = Completes s r (bad St.imageStopped) d) ∧
       (d.rd Reg.segment = 0 → d.rd Reg.imageState = 1 → d.jobs 0x11 = [] → d.jobs 0x12 = [] → d.jobs 0x14 = [] → d.jobs 0x70 = [] →
         ((d.rd Reg.stageState ≠ 4 ∨ d.rd Reg.stagedVersion ≠ arg r 8 4 ∨ d.rd Reg.swapState ≠ 0) →
           exec (.swapWeights r) s = Completes s r (bad St.notStaged) d) ∧
         (d.rd Reg.stageState = 4 → d.rd Reg.stagedVersion = arg r 8 4 → d.rd Reg.swapState = 0 →
           exec (.swapWeights r) s = RunsOn s rowSwapWeights [] r { op := 0x14, req := r } ((d.wr Reg.swapState 1).orderSwap 0)))) ∧
     (Starts s.dev rowForwardWeights [] r → d.hostMode 7 = false →
       ((1024 ≤ arg r 12 2 ∨ arg r 12 2 = d.rd Reg.fabDevice) → exec (.forwardWeights r) s = Completes s r (bad St.paramRange 12) d) ∧
       (arg r 12 2 < 1024 → arg r 12 2 ≠ d.rd Reg.fabDevice →
         ((arg r 16 4 % 2 ^ 20 ≠ 0 ∨ arg r 16 4 = 0 ∨ 64 * 2 ^ 20 < arg r 16 4) →
           exec (.forwardWeights r) s = Completes s r (bad St.paramRange 16) d) ∧
         (arg r 16 4 % 2 ^ 20 = 0 → 0 < arg r 16 4 → arg r 16 4 ≤ 64 * 2 ^ 20 → d.jobs 0x63 = [] → d.pkgFor (arg r 8 4) ≠ none →
           d.peerGone (arg r 12 2) = false → exec (.forwardWeights r) s = RunsOn s rowForwardWeights [] r { op := 0x63, req := r }
             ({ d with wts := { d.wts with forward := some { peer := arg r 12 2, version := arg r 8 4, chunk := arg r 16 4 } } }.wr
               Reg.fwdActive 1))))) ∧
  (∀ s : State,
     (s.dev.rd Reg.swapState = 3 → s.dev.wts.copied = false → s.dev.drained = true → s.dev.rd Reg.segment = 0 →
       exec .swapCopyDone s = s.next { s.dev.writeAllWeights s.dev.swappedImage with
         wts := { (s.dev.writeAllWeights s.dev.swappedImage).wts with copied := true } }) ∧
     ((s.dev.rd Reg.swapState ≠ 3 ∨ s.dev.wts.copied = true ∨ s.dev.drained = false) → exec .swapCopyDone s = s.next s.dev) ∧
     (s.dev.wts.copyBack = false → exec .weightCopyDone s = s.next s.dev) ∧
     (s.dev.wts.copyBack = true → Answers .weightCopyDone s fun t =>
       t.dev.wts.copyBack = false ∧ t.dev.wts.staged = none ∧ t.dev.wts.arriving = none ∧ t.dev.rd Reg.swapState = 0 ∧
         t.dev.rd Reg.stagedVersion = 0 ∧ t.dev.rd Reg.stageState = 0 ∧ t.dev.serve = s.dev.serve))

/-- The six commands of a weight distribution COMPLETE, under conditions on the state and operands alone. WEIGHTS_STAGED with every byte received and the signature good (16 R376, R378): the package is staged and the jobs that waited complete. WEIGHT_CHUNK that goes on where the bytes received end (R380): its bytes are taken. SWAP_WEIGHTS of the staged version on segment 0 of an active image, with no command in its way (R381): swap state 1. SWAP_COPY_DONE in the copy step with the waves drained (R381 step 3): every tile has the new weights. WEIGHT_COPY_DONE while a copy-back runs (R382): the weight copy's frames are free, swap and stage states 0. FORWARD_WEIGHTS of a version that is held, to another device, in chunks that R380 allows: the forward stands. -/
def Obligations.WeightCommandsComplete : Prop :=
  (∀ s : State, s.dev.rd Reg.stageState = 3 → pkgSigned s.dev.wts.arrived = true →
    let d := ({ s.dev with wts := { s.dev.wts with
      staged := some (pkgOf s.dev.wts.arrived), arriving := none, arrived := [], arrivedLen := 0 } }.wr Reg.stageState 4).raise
        { code := Rc.weightsStaged, detail := (pkgOf s.dev.wts.arrived).version, source := 76 }
    exec .weightsStaged s = s.next (((d.jobs 0x13).foldl (fun d j => d.finishJob j {}) d).joinStaged)) ∧
  (∀ (s : State) (src version off total : Nat) (data : List Byte), data ≠ [] → s.dev.wts.arriving = some (src, total) →
    s.dev.rd Reg.stagedVersion = version → s.dev.wts.arrivedLen = off → s.dev.rd Reg.stageState < 3 →
    (total = 0 ∨ off + data.length ≤ total) → off + data.length < 128 →
    Answers (.weightChunk src version off data) s fun t =>
      t.dev.wts.arrived = memWrite s.dev.wts.arrived off data ∧ t.dev.wts.arrivedLen = off + data.length ∧
      t.dev.wts.arriving = some (src, total) ∧ t.dev.wts.staged = s.dev.wts.staged) ∧
  (∀ (s : State) (r : Rhoic), let d := fetchedDev s r
    Starts s.dev rowSwapWeights [] r → d.rd Reg.segment = 0 → d.rd Reg.imageState = 1 →
    d.jobs 0x11 = [] → d.jobs 0x12 = [] → d.jobs 0x14 = [] → d.jobs 0x70 = [] →
    d.rd Reg.stageState = 4 → d.rd Reg.stagedVersion = arg r 8 4 → d.rd Reg.swapState = 0 →
    Answers (.swapWeights r) s fun t => t.dev.rd Reg.swapState = 1 ∧ t.dev.serve = d.serve ∧ t.dev.wts = d.wts ∧
      ∃ j ∈ t.dev.io.running, j.op = 0x14) ∧
  (∀ s : State, s.dev.rd Reg.swapState = 3 → s.dev.wts.copied = false → s.dev.drained = true →
    Answers .swapCopyDone s fun t => t.dev.wts.copied = true ∧ t.dev.wafer = (s.dev.writeAllWeights s.dev.swappedImage).wafer ∧
      t.dev.rd Reg.swapState = 3) ∧
  (∀ s : State, s.dev.wts.copyBack = true →
    Answers .weightCopyDone s fun t => t.dev.wts.copyBack = false ∧ t.dev.wts.staged = none ∧ t.dev.rd Reg.swapState = 0 ∧
      t.dev.rd Reg.stageState = 0 ∧ ∀ f ∈ t.dev.mem.frames, f.2 ≠ stagingOwner) ∧
  (∀ (s : State) (r : Rhoic), let d := fetchedDev s r
    Starts s.dev rowForwardWeights [] r → d.hostMode 7 = false → arg r 12 2 < 1024 → arg r 12 2 ≠ d.rd Reg.fabDevice →
    arg r 16 4 % 2 ^ 20 = 0 → 0 < arg r 16 4 → arg r 16 4 ≤ 64 * 2 ^ 20 → d.jobs 0x63 = [] → d.pkgFor (arg r 8 4) ≠ none →
    d.peerGone (arg r 12 2) = false →
    Answers (.forwardWeights r) s fun t => t.dev.rd Reg.fwdActive = 1 ∧
      t.dev.wts.forward = some { peer := arg r 12 2, version := arg r 8 4, chunk := arg r 16 4 } ∧
      ∃ j ∈ t.dev.io.running, j.op = 0x63)

/-- REGISTER_SEED in host-assisted sampling registers the seed of a consumer; a seed that another consumer of the tile and generator holds is SEED_ALIAS and the earlier one stays. SET_BUDGET sets a tenant's parameters, starts its counts anew and gives it its burst as balance (in 1/65,536 of a token), carry 0; a tenant or a priority out of range is PARAM_RANGE at its byte, and no other tenant changes. -/
def Obligations.SeedsAndBudgets : Prop :=
  ∀ (s : State) (r : Rhoic),
    let d := fetchedDev s r
    let key := arg r 8 2 * 131072 + arg r 10 1 * 65536
    let seed := BitVec.ofNat 64 (arg r 16 8)
    (Starts s.dev rowRegisterSeed [] r →
      (isLogical (arg r 8 2) = false → exec (.registerSeed r) s = Completes s r (bad St.paramRange 8) d) ∧
      (isLogical (arg r 8 2) = true → 1 < arg r 10 1 → exec (.registerSeed r) s = Completes s r (bad St.paramRange 10) d) ∧
      (isLogical (arg r 8 2) = true → arg r 10 1 ≤ 1 → d.hostMode 5 = false →
        exec (.registerSeed r) s = Completes s r (bad St.modeDevice 5) d) ∧
      (∀ e ∈ d.img.seeds, isLogical (arg r 8 2) = true → arg r 10 1 ≤ 1 → d.hostMode 5 = true →
        key ≤ e.1 → e.1 < key + 65536 → e.1 ≠ key + arg r 12 2 → e.2 = seed →
        Answers (.registerSeed r) s fun t => t.dev.img.seeds = d.img.seeds) ∧
      (isLogical (arg r 8 2) = true → arg r 10 1 ≤ 1 → d.hostMode 5 = true →
        (∀ e ∈ d.img.seeds, key ≤ e.1 → e.1 < key + 65536 → e.1 ≠ key + arg r 12 2 → e.2 ≠ seed) →
        exec (.registerSeed r) s = Completes s r {}
          { d with img := { d.img with seeds := AMap.insert (key + arg r 12 2) seed d.img.seeds } })) ∧
    (Starts s.dev rowSetBudget [.tenant (arg r 8 2)] r →
      (4096 ≤ arg r 8 2 → exec (.setBudget r) s = Completes s r (bad St.paramRange 8) d) ∧
      (arg r 8 2 < 4096 → 7 < arg r 10 1 → exec (.setBudget r) s = Completes s r (bad St.paramRange 10) d) ∧
      (arg r 8 2 < 4096 → arg r 10 1 ≤ 7 → arg r 12 4 < 2 ^ 24 → 1 ≤ arg r 16 4 → arg r 24 2 ≤ 1024 → arg r 26 2 ≤ 32768 →
        ∃ e, exec (.setBudget r) s = Completes s r {} e ∧
          (∃ x, e.tenant (arg r 8 2) = { x with
            priority := arg r 10 1, rate := arg r 12 4, burst := arg r 16 4, debt := arg r 20 4, prefillCost := arg r 24 2,
            maxStreams := arg r 26 2, balance := (arg r 16 4 : Int) * 65536, carry := 0, usedGen := 0, usedPrefill := 0,
            usedRecompute := 0, throttled := false, placed := false } ∧ x = d.tenant (arg r 8 2)) ∧
          (∀ t, t ≠ arg r 8 2 → e.tenant t = d.tenant t) ∧ e.regs = d.regs ∧ e.serve.streams = d.serve.streams ∧ e.mem = d.mem))

/-- OPEN_STREAM refuses in order: no image ever active, a stopped image, a tenant pair in host-assisted scheduling, reserved flags, no free entry, a tenant beyond 4,095, the tenant's limit. Admitted, with room for its structures and no prefix, it opens the lowest free entry with the parameters of the command, empty, and answers its index; the entry is then not FREE and no other entry changes. -/
def Obligations.OpenStream : Prop :=
  ∀ (s : State) (r : Rhoic),
    let d := fetchedDev s r
    let t := d.tenantArg r 8
    let flags := arg r 10 1
    Starts s.dev rowOpenStream
        (.tenant (s.dev.tenantArg r 8) :: (if bitOf (arg r 10 1) 3 then [.handle (arg r 48 2) (arg r 16 8)] else [])) r →
      (d.img.everActive = false → exec (.openStream r) s = Completes s r (bad St.noImage) d) ∧
      (d.img.everActive = true → d.rd Reg.imageState = 2 → exec (.openStream r) s = Completes s r (bad St.imageStopped) d) ∧
      (d.img.everActive = true → d.rd Reg.imageState ≠ 2 → d.hostMode 1 = true → d.classOf r.qp = 3 →
        exec (.openStream r) s = Completes s r (bad St.modeHost 1) d) ∧
      (d.img.everActive = true → d.rd Reg.imageState ≠ 2 → ¬ (d.hostMode 1 = true ∧ d.classOf r.qp = 3) → 32 ≤ flags →
        exec (.openStream r) s = Completes s r (bad St.paramReserved 10) d) ∧
      (d.img.everActive = true → d.rd Reg.imageState ≠ 2 → ¬ (d.hostMode 1 = true ∧ d.classOf r.qp = 3) → flags < 32 →
        d.fab.leaving = false → d.rd Reg.fabRole ≠ 1 → d.rd Reg.fabRole ≠ 2 →
        (lowestIndex d.serve.streams 32768 = none → exec (.openStream r) s = Completes s r (bad St.streamLimit) d) ∧
        (∀ i, lowestIndex d.serve.streams 32768 = some i →
          (4096 ≤ t → exec (.openStream r) s = Completes s r (bad St.paramRange 8) d) ∧
          (t < 4096 → d.hostMode 1 = false → (d.tenant t).maxStreams ≤ d.openOf t →
            exec (.openStream r) s = Completes s r (bad St.tenantLimit) d) ∧
          (t < 4096 → (d.hostMode 1 = true ∨ d.openOf t < (d.tenant t).maxStreams) →
            arg r 11 1 ≤ 3 → (arg r 11 1 = 0 ∨ d.image.hasDraft = true) → 1 ≤ arg r 12 4 → arg r 12 4 ≤ 16776960 →
            tempOk (arg r 32 4) = true → arg r 36 2 ≤ 1024 → bitOf flags 3 = false →
            (d.streamRoom i (ceilDiv (arg r 12 4) 256) = none →
              exec (.openStream r) s = Completes s r (bad St.dramCapacity) d) ∧
            (∀ room, d.streamRoom i (ceilDiv (arg r 12 4) 256) = some room →
              ∃ seed e x, exec (.openStream r) s = Completes s r { result := i, result2 := seed } e ∧
                (bitOf flags 4 = true → seed = arg r 24 8 % 2 ^ 64) ∧
                AMap.find e.serve.streams i = some x ∧ (∀ j, j ≠ i → AMap.find e.serve.streams j = AMap.find d.serve.streams j) ∧
                x.state = .idle ∧ x.tenant = t ∧ x.committed = 0 ∧ x.appended = 0 ∧ x.history = [] ∧ x.kMax = arg r 11 1 ∧
                x.topK = arg r 36 2 ∧ x.topP = arg r 38 2 ∧ x.stop0 = arg r 40 4 ∧ x.stop1 = arg r 44 4 ∧
                x.strict = bitOf flags 0 ∧ x.textOut = bitOf flags 2 ∧ x.sampleSeed.toNat = seed ∧
                e.regs = d.regs ∧ e.wafer = d.wafer ∧ e.img = d.img))))

/-- APPEND_TOKENS and APPEND_TEXT add tokens behind what is appended, and answer the new count: a stream of two or more tokens not yet committed is in prefill; GENERATE starts a generation of the count asked for, or lets it wait for prefill. Each is refused on a stream that generates, on a count out of range, and on a stream that cannot be named. -/
def Obligations.AppendAndGenerate : Prop :=
  ∀ (s : State) (r : Rhoic),
    let d := fetchedDev s r
    let i := arg r 8 2
    let n := arg r 12 4
    (∀ p, Starts s.dev rowAppendTokens [.stream i] r → d.named r i false true = .inl p →
      exec (.appendTokens r) s = Completes s r p d) ∧
    (∀ x, Starts s.dev rowAppendTokens [.stream i] r → d.named r i false true = .inr x →
      ((n = 0 ∨ 16776960 < n) → exec (.appendTokens r) s = Completes s r (bad St.paramRange 12) d) ∧
      (1 ≤ n → n ≤ 16776960 → x.live = .generating → exec (.appendTokens r) s = Completes s r (bad St.busy) d) ∧
      (∀ bs e, 1 ≤ n → n ≤ 16776960 → x.live ≠ .generating → d.payload r n 10 4 = .inr (bs, e) →
        (256 * x.ptBlocks < x.appended + (tokensOf bs n).length → exec (.appendTokens r) s = Completes s r (bad St.contextFull) e) ∧
        (x.appended + (tokensOf bs n).length ≤ 256 * x.ptBlocks → e.image.tok = none →
          exec (.appendTokens r) s = Completes s r { result := x.appended + n }
            ((e.setStream i
              (if x.committed + 2 ≤ x.appended + (tokensOf bs n).length then
                ({ x with appended := x.appended + (tokensOf bs n).length,
                          history := x.history.take x.appended ++ tokensOf bs n } : Stream).enter .prefill
              else { x with appended := x.appended + (tokensOf bs n).length,
                            history := x.history.take x.appended ++ tokensOf bs n })).sendJournal i (tokensOf bs n))))) ∧
    (∀ x k bs e e2, Starts s.dev rowAppendText [.stream i] r → d.hostMode 0 = false → d.named r i false true = .inr x →
      1 ≤ n → n ≤ 1048576 → x.live ≠ .generating → d.image.tok = some k → d.payload r n 40 1 = .inr (bs, e) →
      e.appendTo i x (tokenise k bs) = .inr e2 →
      exec (.appendText r) s = Completes s r
        { result := (tokenise k bs).length, result2 := x.appended + (tokenise k bs).length } e2) ∧
    (Starts s.dev rowAppendText [.stream i] r → d.hostMode 0 = true → exec (.appendText r) s = Completes s r (bad St.modeHost 0) d) ∧
    (∀ p, Starts s.dev rowAppendText [.stream i] r → d.hostMode 0 = false → d.named r i false true = .inl p →
      exec (.appendText r) s = Completes s r p d) ∧
    (∀ x, Starts s.dev rowAppendText [.stream i] r → d.hostMode 0 = false → d.named r i false true = .inr x →
      ((n = 0 ∨ 1048576 < n) → exec (.appendText r) s = Completes s r (bad St.paramRange 12) d) ∧
      (1 ≤ n → n ≤ 1048576 → x.live = .generating → exec (.appendText r) s = Completes s r (bad St.busy) d)) ∧
    (∀ p, Starts s.dev rowGenerate [.stream i] r → d.named r i false true = .inl p → exec (.generate r) s = Completes s r p d) ∧
    (∀ x, Starts s.dev rowGenerate [.stream i] r → d.named r i false true = .inr x →
      (n = 0 → exec (.generate r) s = Completes s r (bad St.paramRange 12) d) ∧
      (1 ≤ n → (x.live = .generating ∨ x.genWaits = true) → exec (.generate r) s = Completes s r (bad St.busy) d) ∧
      (1 ≤ n → x.live = .idle → x.genWaits = false → x.appended = x.committed →
        exec (.generate r) s = Completes s r (bad St.emptyStream) d) ∧
      (1 ≤ n → x.live ≠ .generating → x.genWaits = false → ¬ (x.live = .idle ∧ x.appended = x.committed) →
        let y : Stream := { x with genRemaining := n, genTag := tagOf r % 65536, kCur := x.kMax }
        (x.live = .prefill → exec (.generate r) s =
          RunsOn s rowGenerate [.stream i] r { op := 0x23, req := r, effective := true } (d.setStream i { y with genWaits := true })) ∧
        (x.live ≠ .prefill → x.appended < 256 * x.ptBlocks → exec (.generate r) s =
          RunsOn s rowGenerate [.stream i] r { op := 0x23, req := r, effective := true } (d.setStream i (y.enter .generating))) ∧
        (x.live ≠ .prefill → 256 * x.ptBlocks ≤ x.appended → exec (.generate r) s =
          s.next (((d.setStream i (y.enter .generating)).deliverEnd i 1).generationOver i 1))))

/-- CANCEL marks a stream that runs for its next commit point, acts at once on a HELD one, and is NOT_ACTIVE on an idle or ended one; CLOSE_STREAM ends the stream and frees its entry, at once where no wave of it is in flight; STREAM_SET gives a stream outside a round its new parameters and no other stream changes. -/
def Obligations.CancelCloseSet : Prop :=
  ∀ (s : State) (r : Rhoic),
    let d := fetchedDev s r
    let i := arg r 8 2
    (∀ x, Starts s.dev rowCancel [.stream i] r → d.named r i true false = .inr x →
      (x.state = .ended → exec (.cancel r) s = Completes s r (bad St.notActive (if x.endReason = 1 then 1 else 3)) d) ∧
      (x.state ≠ .ended → x.live = .idle → exec (.cancel r) s = Completes s r (bad St.notActive 2) d) ∧
      (x.state = .held → x.live ≠ .idle → x.migrating = none → exec (.cancel r) s = Completes s r {} (d.applyCancel i)) ∧
      (x.state ≠ .ended → x.state ≠ .held → x.live ≠ .idle → exec (.cancel r) s =
        RunsOn s rowCancel [.stream i] r { op := 0x24, req := r } (d.setStream i { x with cancelPending := true }))) ∧
    (∀ x, Starts s.dev rowCloseStream [.stream i] r → d.named r i true false = .inr x →
      (d.inFlight i = false → exec (.closeStream r) s = Completes s r { result := x.committed } ((d.endStream i 3).freeStream i)) ∧
      (d.inFlight i = true → exec (.closeStream r) s =
        RunsOn s rowCloseStream [.stream i] r { op := 0x25, req := r } (d.setStream i { x with closing := true }))) ∧
    (∀ x, Starts s.dev rowStreamSet [.stream i] r → d.named r i false false = .inr x →
      (64 ≤ arg r 10 1 → exec (.streamSet r) s = Completes s r (bad St.paramReserved 10) d) ∧
      (arg r 10 1 < 16 → d.inRound i x = false → (bitOf (arg r 10 1) 0 = true → tempOk (arg r 32 4) = true) →
        (bitOf (arg r 10 1) 1 = true → arg r 36 2 ≤ 1024) →
        exec (.streamSet r) s = Completes s r {} (d.setStream i { x with
          temperature := if bitOf (arg r 10 1) 0 then BitVec.ofNat 32 (arg r 32 4) else x.temperature
          topK := if bitOf (arg r 10 1) 1 then arg r 36 2 else x.topK
          topP := if bitOf (arg r 10 1) 2 then arg r 38 2 else x.topP
          stop0 := if bitOf (arg r 10 1) 3 then arg r 40 4 else x.stop0
          stop1 := if bitOf (arg r 10 1) 3 then arg r 44 4 else x.stop1 })))

/-- DEFINE_PREFIX of a whole number of committed blocks of a stream makes the lowest free prefix record live under the owner's handle with the lease asked for, with the stream's history up to there, and makes the stream refer to it; a handle that is live is PREFIX_EXISTS, a length, access, list or lease out of range PARAM_RANGE. RELEASE_PREFIX and the expiry of the lease end it: no live prefix then carries that record's handle. -/
def Obligations.PrefixLives : Prop :=
  ∀ (s : State) (r : Rhoic),
    let d := fetchedDev s r
    let i := arg r 8 2
    let n := arg r 12 4
    let handle := arg r 16 8
    (∀ x, Starts s.dev rowDefinePrefix
        [.stream i, .handle (((s.dev.stream? i).map (·.tenant)).getD 0) handle] r → d.named r i false true = .inr x →
      (2 < arg r 10 1 → exec (.definePrefix r) s = Completes s r (bad St.paramRange 10) d) ∧
      (arg r 10 1 ≤ 2 → 8 < arg r 11 1 → exec (.definePrefix r) s = Completes s r (bad St.paramRange 11) d) ∧
      (arg r 10 1 ≤ 2 → arg r 11 1 ≤ 8 → (n = 0 ∨ n % 256 ≠ 0 ∨ x.committed < n) →
        exec (.definePrefix r) s = Completes s r (bad St.paramRange 12) d) ∧
      (arg r 10 1 ≤ 2 → arg r 11 1 ≤ 8 → 0 < n → n % 256 = 0 → n ≤ x.committed →
        ((arg r 24 4 = 0 ∨ 86400 < arg r 24 4) → exec (.definePrefix r) s = Completes s r (bad St.paramRange 24) d) ∧
        (1 ≤ arg r 24 4 → arg r 24 4 ≤ 86400 →
          (d.livePrefix x.tenant handle ≠ none → exec (.definePrefix r) s = Completes s r (bad St.prefixExists) d) ∧
          (∀ p room, d.livePrefix x.tenant handle = none → d.awayBelow i (n / 256) = false →
            lowestIndex d.serve.prefixes 65536 = some p → d.pfxRoom p n = some room →
            ∃ e y, exec (.definePrefix r) s = Completes s r { result := p } e ∧
              AMap.find e.serve.prefixes p = some y ∧ y.live = true ∧ y.owner = x.tenant ∧ y.handle = handle ∧ y.positions = n ∧
              y.tokens = x.history.take n ∧ y.refs = 1 ∧ y.expiry = d.tick + arg r 24 4 * 25000000 ∧
              AMap.find e.serve.streams i = some { x with pfx := some p })))) ∧
    (∀ p, Starts s.dev rowReleasePrefix [.handle (s.dev.tenantArg r 8) handle] r → d.img.everActive = true →
      d.livePrefix (d.tenantArg r 8) handle = some p →
      exec (.releasePrefix r) s = Completes s r {} ((d.onPrefix p.1 fun x => { x with live := false }).reapPrefix p.1)) ∧
    (Starts s.dev rowReleasePrefix [.handle (s.dev.tenantArg r 8) handle] r → d.img.everActive = true →
      d.livePrefix (d.tenantArg r 8) handle = none → exec (.releasePrefix r) s = Completes s r (bad St.prefixUnknown) d) ∧
    (∀ p, Answers (.prefixLeaseExpiry p) s fun t => (AMap.find t.dev.serve.prefixes p).all fun x => !x.live)

/-- Host-assisted scheduling and paging: SCHEDULE_WAVE and PAGE_DROP are MODE_DEVICE in the other mode; in it the first waits for the boundary at which it supplies a wave, the second for the next boundary, or is decided at once where no beat runs. PAGE_MIGRATE sends a stream's blocks to a cache device. -/
def Obligations.HostAssisted : Prop :=
  ∀ (s : State) (r : Rhoic),
    let d := fetchedDev s r
    (∀ objs, objs = (List.range 4).filterMap (fun k => if (schedEntry r k).2.1 = 0 then none else some (Obj.stream (schedEntry r k).1)) →
      Starts s.dev rowScheduleWave objs r → d.img.everActive = true → d.rd Reg.imageState ≠ 2 →
      (d.hostMode 2 = false → exec (.scheduleWave r) s = Completes s r (bad St.modeDevice 2) d) ∧
      (d.hostMode 2 = true → 1 < arg r 8 1 → exec (.scheduleWave r) s = Completes s r (bad St.paramRange 8) d) ∧
      (d.hostMode 2 = true → arg r 8 1 ≤ 1 → (∀ k < 4, arg r (16 + 8 * k) 8 < 2 ^ 21) →
        (∀ k < 4, (schedEntry r k).2.1 ≠ 0 → 1 ≤ (schedEntry r k).2.2 ∧ (schedEntry r k).2.2 ≤ 4) →
        exec (.scheduleWave r) s = RunsOn s rowScheduleWave objs r { op := 0x2A, req := r } d)) ∧
    (∀ objs, objs = (if arg r 10 1 = 0 then [Obj.stream (arg r 8 2)] else []) → Starts s.dev rowPageDrop objs r →
      (d.hostMode 6 = false → exec (.pageDrop r) s = Completes s r (bad St.modeDevice 6) d) ∧
      (d.hostMode 6 = true → 1 < arg r 10 1 → exec (.pageDrop r) s = Completes s r (bad St.paramRange 10) d) ∧
      (d.hostMode 6 = true → arg r 10 1 = 0 → d.stream? (arg r 8 2) = none →
        exec (.pageDrop r) s = Completes s r (bad St.streamUnknown) d) ∧
      (∀ x, d.hostMode 6 = true → arg r 10 1 = 0 → d.stream? (arg r 8 2) = some x → x.state = .ended →
        exec (.pageDrop r) s = Completes s r (bad St.notActive 4) d) ∧
      (∀ x, d.hostMode 6 = true → arg r 10 1 = 0 → d.stream? (arg r 8 2) = some x → x.state ≠ .ended → d.noBeats = false →
        exec (.pageDrop r) s = RunsOn s rowPageDrop objs r { op := 0x53, req := r } d) ∧
      (∀ x, d.hostMode 6 = true → arg r 10 1 = 0 → d.stream? (arg r 8 2) = some x → x.state ≠ .ended → d.noBeats = true →
        d.unitBusy (arg r 8 2) (arg r 16 4) = none →
        exec (.pageDrop r) s = Completes s r {} (d.dropUnit (arg r 8 2) (arg r 16 4)))) ∧
    (Starts s.dev rowPageMigrate [.stream (arg r 8 2)] r →
      (d.classOf r.qp = 2 → d.hostMode 6 = false → exec (.pageMigrate r) s = Completes s r (bad St.modeDevice 6) d) ∧
      (¬ (d.classOf r.qp = 2 ∧ d.hostMode 6 = false) → d.stream? (arg r 8 2) = none →
        exec (.pageMigrate r) s = Completes s r (bad St.streamUnknown) d) ∧
      (∀ x, ¬ (d.classOf r.qp = 2 ∧ d.hostMode 6 = false) → d.stream? (arg r 8 2) = some x → x.state = .ended →
        exec (.pageMigrate r) s = Completes s r (bad St.notActive 4) d) ∧
      (∀ x, ¬ (d.classOf r.qp = 2 ∧ d.hostMode 6 = false) → d.stream? (arg r 8 2) = some x → x.state ≠ .ended → arg r 10 1 ≤ 1 →
        arg r 12 2 < 1024 → d.isCache (arg r 12 2) = true → arg r 16 4 < x.ptBlocks → arg r 16 4 + arg r 20 4 ≤ x.ptBlocks →
        (d.peerGone (arg r 12 2) = true → exec (.pageMigrate r) s = Completes s r (bad St.peerUnreachable (arg r 12 2)) d) ∧
        (d.peerGone (arg r 12 2) = false → d.fab.moving = [] → d.movesOf r = [] → exec (.pageMigrate r) s = Completes s r {} d) ∧
        (d.peerGone (arg r 12 2) = false → d.fab.moving = [] → d.movesOf r ≠ [] →
          (∀ m ∈ d.movesOf r, (d.pte m.stream m.layer m.block).pins < 255) →
          exec (.pageMigrate r) s = RunsOn s rowPageMigrate [.stream (arg r 8 2)] r { op := 0x52, req := r }
            ((d.movesOf r).foldl (fun d m => d.stepMove m) { d with fab := { d.fab with moving := d.movesOf r } }))))

/-- JOIN of a device in no system that holds an image takes the system identifier and index of the command and sends a join request to every other index; LEAVE of a member goes to the acting coordinator; SET_ROLE of a device in no system takes the role at once where no beat runs, else it waits with the previous role as its result to come. FOUND_SYSTEM, for a join without an answer, founds epoch 1; without such a join it changes nothing. -/
def Obligations.JoinLeaveRole : Prop :=
  (∀ (s : State) (r : Rhoic),
    let d := fetchedDev s r
    (Starts s.dev rowJoin [] r →
      (d.rd Reg.memberState ≠ 0 → exec (.join r) s = Completes s r (bad St.paramRange 8) d) ∧
      (d.rd Reg.memberState = 0 → d.img.loaded = none → d.img.active = none → exec (.join r) s = Completes s r (bad St.noImage) d) ∧
      (d.rd Reg.memberState = 0 → (d.img.loaded ≠ none ∨ d.img.active ≠ none) → 1023 < arg r 16 2 →
        exec (.join r) s = Completes s r (bad St.paramRange 16) d) ∧
      (d.rd Reg.memberState = 0 → (d.img.loaded ≠ none ∨ d.img.active ≠ none) → arg r 16 2 ≤ 1023 → d.jobs 0x60 = [] →
        Answers (.join r) s fun t =>
          t.dev.rd Reg.systemId = arg r 8 8 % 2 ^ 64 ∧ t.dev.rd Reg.fabDevice = arg r 16 2 ∧ t.dev.rd Reg.memberState = 0 ∧
          (∀ i < 1024, i ≠ arg r 16 2 → Out.ctl i (.joinRequest (arg r 16 2) d.joinVersion) ∈ t.dev.io.outbox) ∧
          t.dev.jobs 0x60 ≠ [])) ∧
    (Starts s.dev rowLeave [] r → arg r 8 1 ≠ 0 → exec (.leave r) s = s.next ((d.reply (accepted s r) (s.dev.fetched r).1.1 (bad St.paramRange 8)).applyIfIdle)) ∧
    (Starts s.dev rowLeave [] r → arg r 8 1 = 0 → d.jobs 0x61 = [] → d.noBeats = false →
      (d.rd Reg.memberState ≠ 0 ∧ d.rd Reg.memberState ≠ 4) → ∀ c, d.acting = some c → c ≠ d.me →
      exec (.leave r) s = RunsOn s rowLeave [] r { op := 0x61, req := r } (d.emit (.ctl c (.leaveRequest d.me)))) ∧
    (Starts s.dev rowSetRole [] r →
      (3 < arg r 8 1 → exec (.setRole r) s = s.next ((d.reply (accepted s r) (s.dev.fetched r).1.1 (bad St.paramRange 8)).applyIfIdle)) ∧
      (arg r 8 1 ≤ 3 → d.jobs 0x62 = [] → d.rd Reg.memberState ≠ 2 → d.noBeats = true → d.fab.commitPending = none →
        Answers (.setRole r) s fun t => t.dev.rd Reg.fabRole = arg r 8 1) ∧
      (arg r 8 1 ≤ 3 → d.jobs 0x62 = [] → d.rd Reg.memberState ≠ 2 → d.noBeats = false →
        exec (.setRole r) s = RunsOn s rowSetRole [] r { op := 0x62, req := r, arg := d.rd Reg.fabRole }
          { d with fab := { d.fab with rolePending := some (arg r 8 1) } }))) ∧
  (∀ s : State,
    (∀ j ∈ s.dev.jobs 0x60, j.phase ≠ 0) → exec .foundSystem s = s.next s.dev) ∧
  (∀ s : State, (∃ j ∈ s.dev.jobs 0x60, j.phase = 0) → Answers .foundSystem s fun t => t.dev.rd Reg.fabEpoch = 1)

/-- LOUPE_RUN of layers of the image at a committed position holds new waves (hold 6) and the pages below it, and runs on; a bad layer range or a position that is not committed is PARAM_RANGE. LOUPE_REFERENCE_DONE, with no wave in flight, ends it: no LOUPE_RUN then runs. -/
def Obligations.LoupeRuns : Prop :=
  (∀ (s : State) (r : Rhoic) (x : Stream),
    let d := fetchedDev s r
    let i := arg r 8 2
    Starts s.dev rowLoupeRun [.stream i] r → d.named r i false true = .inr x →
      (1 < arg r 10 1 → exec (.loupeRun r) s = Completes s r (bad St.paramRange 10) d) ∧
      (arg r 10 1 ≤ 1 → arg r 14 2 < arg r 12 2 → exec (.loupeRun r) s = Completes s r (bad St.paramRange 12) d) ∧
      (arg r 10 1 ≤ 1 → arg r 12 2 ≤ arg r 14 2 → d.image.stagesM1 < arg r 14 2 →
        exec (.loupeRun r) s = Completes s r (bad St.paramRange 14) d) ∧
      (arg r 10 1 ≤ 1 → arg r 12 2 ≤ arg r 14 2 → arg r 14 2 ≤ d.image.stagesM1 → x.committed ≤ arg r 16 8 →
        exec (.loupeRun r) s = Completes s r (bad St.paramRange 16) d) ∧
      (arg r 10 1 ≤ 1 → arg r 12 2 ≤ arg r 14 2 → arg r 14 2 ≤ d.image.stagesM1 → arg r 16 8 < x.committed →
        (∀ l ∈ d.image.loupeOut, ¬ (arg r 12 2 ≤ l ∧ l ≤ arg r 14 2)) → d.jobs 0x11 = [] → d.jobs 0x12 = [] → d.jobs 0x14 = [] →
        d.jobs 0x70 = [] → d.awayBelow i (arg r 16 8 / 256 + 1) = false → d.holdsFull i (arg r 16 8 / 256 + 1) = false →
        d.outBeyond r (arg r 24 8) (arg r 32 4) = none →
        exec (.loupeRun r) s = RunsOn s rowLoupeRun [.stream i] r
          { op := 0x70, req := r, arg := i, arg2 := arg r 16 8 / 256 + 1 } ((d.pinBlocks i (arg r 16 8 / 256 + 1) true).hold 6))) ∧
  (∀ s : State, (s.dev.drained = false → exec .loupeReferenceDone s = s.next s.dev) ∧
    (∀ j, s.dev.drained = true → s.dev.jobs 0x70 = [j] → Answers .loupeReferenceDone s fun t => t.dev.jobs 0x70 = []))

/-- ATTEST answers one SPDM request from its buffer with the response in another; HUM_AUTH challenges the module; either with its output buffer beyond its region is UNMAPPED_ADDRESS, without effect; ROTATE_KEY refuses an operation above 2 and a slot above 7. ROTATE_KEY: the first enrolment of a part, on the management path, needs no signature; it makes the slot valid with the key of its payload. An accepted request of operation 2 raises `min_svn` to its payload, never below what it was, and leaves the keys. -/
def Obligations.SecurityCommands : Prop :=
  (∀ (s : State) (r : Rhoic),
     let d := fetchedDev s r
     (∀ x msg e, Starts s.dev rowAttest [] r → d.bufIn r (arg r 16 8) (arg r 24 4) = (St.success, x, msg, e) →
       d.outBeyond r (arg r 32 8) (arg r 40 4) = none →
       exec (.attest r) s = if arg r 40 4 < (e.spdm s.sec msg).1.length then Completes s r (bad St.paramRange 40) (e.spdm s.sec msg).2
         else Delivers s r (arg r 32 8) (e.spdm s.sec msg).1 {} (e.spdm s.sec msg).2) ∧
     (∀ st, (d.outBeyond r (arg r 32 8) (arg r 40 4) = some st → Starts s.dev rowAttest [] r →
         exec (.attest r) s = Completes s r (bad St.unmappedAddress) (d.unmappedBy r.qp true (d.regionEnd (arg r 32 8)))) ∧
       (d.outBeyond r (arg r 16 8) 64 = some st → Starts s.dev rowHumAuth [] r →
         exec (.humAuth r) s = Completes s r (bad St.unmappedAddress) (d.unmappedBy r.qp true (d.regionEnd (arg r 16 8))))) ∧
     (Starts s.dev rowHumAuth [] r → d.outBeyond r (arg r 16 8) 64 = none →
       let e := d.challengeHum.updateRide
       let result := match (e.fresh 6).2.pwr.hum with
         | some h => if h.genuine then 0 else 1
         | none => 2
       exec (.humAuth r) s = Delivers s r (arg r 16 8) (humBlock result (e.fresh 6).2.pwr.hum (e.fresh 6).1)
         (if result = 0 then {} else bad St.authFailed) (e.fresh 6).2) ∧
     (Starts s.dev rowRotateKey [] r →
       (2 < arg r 8 1 → exec (.rotateKey r) s = Completes s r (bad St.paramRange 8) d) ∧
       (arg r 8 1 ≤ 2 → 7 < arg r 9 1 → exec (.rotateKey r) s = Completes s r (bad St.paramRange 9) d))) ∧
  (∀ (s : State) (r : Rhoic),
     let d := fetchedDev s r
     let slot := arg r 9 1
     let n := arg r 24 4
     Starts s.dev rowRotateKey [] r → slot ≤ 7 → d.pwr.packages ≠ [] →
       (∀ x b e, s.sec.keys = [] → arg r 8 1 = 0 → r.qp = 0 → n = 2608 → d.bufIn r (arg r 16 8) n = (St.success, x, b, e) →
         e.pwr.packages ≠ [] → Answers (.rotateKey r) s fun t =>
           t.sec.keys = [(slot, cut b 16 2592)] ∧ t.sec.minSvn = s.sec.minSvn ∧ t.sec.fw = s.sec.fw) ∧
       (∀ x b e, s.sec.keys ≠ [] → arg r 8 1 = 2 → n = 4647 → d.bufIn r (arg r 16 8) n = (St.success, x, b, e) →
         e.rotateRefusal s.sec 2 slot b = none → e.pwr.packages ≠ [] → Answers (.rotateKey r) s fun t =>
           t.sec.minSvn = numAt b 16 4 ∧ s.sec.minSvn ≤ t.sec.minSvn ∧ t.sec.keys = s.sec.keys))

/-- SPDM over MCTP is answered with version 1.3 and the content the rules give (21 R458-R460): version 1.3; CERT_CAP, CHAL_CAP and MEAS_CAP; no base algorithm and the two extended entries, or InvalidRequest; the digest of slot 0's chain; a portion of that chain; its digest and a nonce, signed; the measurement blocks asked for; and any other request UnsupportedRequest. What DSP0274 adds is free (log entry 8). Management over MCTP (21 R453, R454, R465): a firmware image goes to the slot that does not run and to that slot alone, one below `min_svn` to none, and one that does not verify sets `ERR_AUTH`; activation that is self-contained is a device reset, else it is answered; a monitoring request is answered with its sensor; the bus owner assigns an endpoint identifier per binding, which is read back. -/
def Obligations.MctpAnswers : Prop :=
  (∀ (s : State) (m : Spdm), ServesMctp s.dev →
     let d := s.dev
     let reply := fun (code : Nat) (content : List Byte) =>
       s.next (answeredMctp d 0x05 (leBytes 1 0x13 ++ leBytes 1 code ++ content ++ Config.standardBytes d.freeCtr content))
     let refuses := fun (code : Nat) => s.next (d.emit (.mctp 0x05 (leBytes 1 0x13 ++ leBytes 1 0x7F ++ leBytes 1 code ++ leBytes 1 0)))
     let part := cut d.certChain (numAt m.msg 4 2) (numAt m.msg 6 2)
     let which := numAt m.msg 3 1
     exec (.getVersion m) s = reply 0x04 (leBytes 2 0x1300) ∧
     exec (.getCapabilities m) s = reply 0x61 (leBytes 4 0x16) ∧
     (Config.spdmSelects m.msg = true →
       exec (.negotiateAlgorithms m) s = reply 0x63 (leBytes 4 0 ++ leBytes 4 0 ++ leBytes 2 1 ++ leBytes 2 2)) ∧
     (Config.spdmSelects m.msg = false → exec (.negotiateAlgorithms m) s = refuses 0x01) ∧
     exec (.getDigests m) s = reply 0x01 (leBytes 1 1 ++ Sha.shake256 d.certChain 64) ∧
     (numAt m.msg 2 1 % 16 ≠ 0 → exec (.getCertificate m) s = refuses 0x01) ∧
     (numAt m.msg 2 1 % 16 = 0 → exec (.getCertificate m) s =
       reply 0x02 (leBytes 2 part.length ++ leBytes 2 (d.certChain.length - numAt m.msg 4 2 - part.length) ++ part)) ∧
     (∃ (body sig nonce : List Byte) (e : Dev), exec (.challenge m) s = s.next (e.emit (.mctp 0x05 (body ++ Config.mldsaSign s.sec.deviceKey sig))) ∧
       (leBytes 1 0x13 ++ leBytes 1 0x03 ++ Sha.shake256 d.certChain 64 ++ nonce) <+: body ∧ nonce.length = 32 ∧ e.regs = d.regs) ∧
     (7 < which → which ≠ 0xFF → exec (.getMeasurements m) s = refuses 0x01) ∧
     (which = 0 → numAt m.msg 2 1 % 2 = 0 → exec (.getMeasurements m) s = reply 0x60 (leBytes 1 7)) ∧
     (1 ≤ which → which ≤ 7 → numAt m.msg 2 1 % 2 = 0 →
       exec (.getMeasurements m) s = reply 0x60 (leBytes 1 1 ++ leBytes 1 which ++ d.measurement s.sec which)) ∧
     exec (.spdmUnsupportedRequest m) s = refuses 0x07) ∧
  (∀ s : State, ServesMctp s.dev →
     let d := s.dev
     (∀ b, ∃ e, exec (.pldmFirmwareUpdate b) s = s.nextSec
         (if numAt b 8 4 < s.sec.minSvn then s.sec else { s.sec with fw := AMap.insert (1 - d.rd Reg.fwSlot) (fwSlotOf b) s.sec.fw }) e ∧
       e = answeredMctp (if numAt b 8 4 < s.sec.minSvn ∨ fwGood b = true then d else d.setW1c Reg.errAuth 81) 0x01
         (Config.standardBytes d.freeCtr [])) ∧
     exec (.activateFirmware false) s = s.next (answeredMctp d 0x01 (Config.standardBytes d.freeCtr [])) ∧
     exec (.activateFirmware true) s = s.next ((answeredMctp d 0x01 (Config.standardBytes d.freeCtr [])).doDeviceReset) ∧
     (∀ k, exec (.pldmMonitoring k) s = s.next (answeredMctp d 0x01 (leBytes 2 k ++ Config.pldmBytes d.freeCtr))) ∧
     (∀ m : MctpCtl, d.pwr.aonOn = true → m.cmd = 1 → ∃ b, exec (.mctpControl m) s = s.next (answeredMctp
         { d with io := { d.io with eids := AMap.insert (m.binding % 2) (m.eid % 256) d.io.eids } } 0x00
         (leBytes 1 1 ++ leBytes 1 (m.eid % 256) ++ b))) ∧
     (∀ m : MctpCtl, d.pwr.aonOn = true → m.cmd ≠ 1 → ∃ b, exec (.mctpControl m) s = s.next (answeredMctp d 0x00
         (leBytes 1 m.cmd ++ leBytes 1 (AMap.get 0 d.io.eids (m.binding % 2)) ++ b))))

/-- A compute descriptor that issues and that no check of 06 R165 refuses does what its fields say (06 R150-R158): a product in table or direct mode, a log product, a requantisation, a facet operation or a draw; REDUCE gives its input to its tree's buffer at the node and waits until the tree is done (06 R155). -/
def Obligations.ComputeDescriptorsRun : Prop :=
  ∀ (s : State) (t : Nat) (desc : Desc) (m : Met), Issues s.dev t m →
    let d := s.dev
    let x := d.tile t
    let n := fun op => withOp op desc
    (∀ e, prodBody t false (n 0x01) d = .run e → e = d.product t (prodDesc false (n 0x01)) ∧
      exec (.matmulTable t desc m) s = s.next (d.product t (prodDesc false (n 0x01)))) ∧
    (∀ e, prodBody t true (n 0x02) d = .run e → e = d.product t (prodDesc true (n 0x02)) ∧
      exec (.matmulDirect t desc m) s = s.next (d.product t (prodDesc true (n 0x02)))) ∧
    (firstFault (logStatic x.prog (logDesc (n 0x03)) (n 0x03) ++
        (if (logDesc (n 0x03)).accOpen then [] else entryChecks x (logDesc (n 0x03)).accBase (2 ^ (logDesc (n 0x03)).groups) 66 Fmt.l16
          (if (logDesc (n 0x03)).antilog then .antilog else .log)) ++ [computeHazard x (logRanges (logDesc (n 0x03))) none]) = none →
      exec (.logProduct t desc m) s = s.next (d.logProduct t (logDesc (n 0x03)))) ∧
    (∀ r q b, d.treeRec (redDesc (n 0x08)).tree = some r → d.nodeAt r t = some q → d.redBuf q.2.tile (redDesc (n 0x08)).tree = b →
      (∃ e, redBody t (n 0x08) d = .run e) → exec (.reduce t desc m) s =
        s.next (((d.setRedBuf { b with
            loc := some (if d.recoveryTree (redDesc (n 0x08)).tree = true then (x.exact.take (redDesc (n 0x08)).count).flatMap (·.2)
              else redLocal x r (redDesc (n 0x08)))
            desc := n 0x08, exact := d.recoveryTree (redDesc (n 0x08)).tree }).waitDesc t none
          (some (redDesc (n 0x08)).tree) false).redTry q.2.tile (redDesc (n 0x08)).tree)) ∧
    (firstFault (reqStatic x (reqDesc (n 0x09)) (n 0x09) ++
        [computeHazard x (reqDesc (n 0x09)).ranges (reqDesc (n 0x09)).chans]) = none →
      exec (.requant t desc m) s = s.next (d.requant t (reqDesc (n 0x09)))) ∧
    (firstFault (facetStatic x (facetDesc (n 0x0A)) (n 0x0A) ++ [computeHazard x (facetDesc (n 0x0A)).ranges none]) = none →
      exec (.facetOp t desc m) s = s.next (d.facet t (facetDesc (n 0x0A)))) ∧
    (firstFault ([reserved? (n 0x0B) [(84, 44)]] ++
        ((sampleDesc (n 0x0B)).ranges.map fun (r : Nat × Nat) => computeRange x.prog r.1 r.2) ++
        [computeHazard x (sampleDesc (n 0x0B)).ranges none]) = none →
      exec (.sample t desc m) s = s.next (d.draw t (sampleDesc (n 0x0B))))

/-- A transfer that issues and that no check refuses takes its token, outstanding until its data has moved, and the sequencer goes on (06 R145, R159-R162); with eight requests of its queue outstanding, or with an earlier SEND or RECV of its channel open, it waits and changes nothing but the sequencer (06 R142). -/
def Obligations.TransferDescriptorsRun : Prop :=
  ∀ (s : State) (t : Nat) (desc : Desc) (m : Met), Issues s.dev t m →
    let d := s.dev
    let x := d.tile t
    let n := fun op => withOp op desc
    let q := fun op => bitsOf (n op) 6 2
    let token := fun op => bitsOf (n op) 8 6
    let lo := fun op => bitsOf (n op) 14 19
    let waits := s.next (d.waitDesc t none none false)
    (∀ e, sendBody t (n 0x10) d = .run e →
      let c := bitsOf (n 0x10) 6 12
      let bytes := bitsOf (n 0x10) 37 20
      exec (.send t desc m) s =
        if x.tokens.any (fun k => k.2.op == 0x10 && k.2.chan == c && !k.2.done) = true then waits
        else s.next ((d.setChan c { d.chan c with flight := (d.chan c).flight ++
          (if bytes = 0 then [({ signal := true, last := true } : ChFlit)]
            else flitsOf (memRead x.sram (bitsOf (n 0x10) 18 19) bytes) (bytes / 64)) }).issueTok t (bitsOf (n 0x10) 57 6)
          { mkTok 0x10 (bitsOf (n 0x10) 18 19) bytes false 0 0 0 false (n 0x10) with chan := c })) ∧
    (∀ e, recvBody t (n 0x11) d = .run e → (d.chan (bitsOf (n 0x11) 6 12)).posted.isSome = true →
      exec (.recv t desc m) s = waits) ∧
    (∀ e, recvBody t (n 0x11) d = .run e → (d.chan (bitsOf (n 0x11) 6 12)).posted = none → (d.chan (bitsOf (n 0x11) 6 12)).held = [] →
      Answers (.recv t desc m) s fun u => (u.dev.chan (bitsOf (n 0x11) 6 12)).posted = some
        { tile := t, token := bitsOf (n 0x11) 57 6, loc := bitsOf (n 0x11) 18 19, bytes := bitsOf (n 0x11) 37 20, got := 0, arrived := false }) ∧
    (∀ e, dramBody t (n 0x12) false d = .run e → exec (.dramRead t desc m) s = if 8 ≤ x.queued (q 0x12) false then waits
      else s.next ((d.unbind t false (lo 0x12)).issueTok t (token 0x12)
        (mkTok 0x12 (lo 0x12) (bitsOf (n 0x12) 33 20) true (q 0x12) (bitsOf (n 0x12) 53 48) (bitsOf (n 0x12) 33 20) false (n 0x12)))) ∧
    (∀ e, dramBody t (n 0x13) true d = .run e → exec (.dramWrite t desc m) s = if 8 ≤ x.queued (q 0x13) true then waits
      else s.next (d.issueTok t (token 0x13)
        (mkTok 0x13 (lo 0x13) (bitsOf (n 0x13) 33 20) false (q 0x13) (bitsOf (n 0x13) 53 48) (bitsOf (n 0x13) 33 20) true (n 0x13)))) ∧
    (∀ e, fetchBody t (n 0x14) d = .run e → exec (.kvFetch t desc m) s = s.next e ∧
      (8 ≤ x.queued (q 0x14) false → e = d.waitDesc t none none false) ∧
      (x.queued (q 0x14) false < 8 → (x.col (kvDesc (n 0x14)).2.1).valid = false → ((e.tile t).tokens.any fun k => k.1 == token 0x14 && k.2.done) = true)) ∧
    (∀ e, storeBody t (n 0x15) d = .run e → exec (.kvStore t desc m) s = s.next e ∧
      (8 ≤ x.queued (q 0x15) true → e = d.waitDesc t none none false) ∧
      (x.queued (q 0x15) true < 8 → (x.col (kvDesc (n 0x15)).2.1).valid = false → ((e.tile t).tokens.any fun k => k.1 == token 0x15 && k.2.done) = true)) ∧
    (∀ e, residBody t (n 0x16) true d = .run e → exec (.residLoad t desc m) s = s.next e ∧
      (8 ≤ x.queued (q 0x16) false → e = d.waitDesc t none none false) ∧
      (x.queued (q 0x16) false < 8 → ((e.tile t).tokens.any fun k => k.1 == token 0x16 && k.2.op == 0x16) = true)) ∧
    (∀ e, residBody t (n 0x17) false d = .run e → exec (.residStore t desc m) s = s.next e ∧
      (8 ≤ x.queued (q 0x17) true → e = d.waitDesc t none none false) ∧
      (x.queued (q 0x17) true < 8 → ((e.tile t).tokens.any fun k => k.1 == token 0x17 && k.2.op == 0x17) = true))

/-- Control descriptors (06 R138, R145, R163, 03 R71): a descriptor whose fetch corrects a single-bit error runs as it does otherwise, and is counted; WAIT_TOKEN of a done token frees it and goes on, of an outstanding one it waits; FENCE_FORMAT makes the table file invalid; END_SECTION with every token done ends the section, else it waits; TOKEN_DONE of a token that is done, unknown, or behind an earlier one of its queue changes nothing, and else moves the data and marks the token done; BEAT_WATCHDOG against a waiting descriptor is an image fault with what it waits for; an unlisted opcode is OPCODE_INVALID. -/
def Obligations.SequencerCommands : Prop :=
  ∀ (s : State) (t : Nat),
    let d := s.dev
    let x := d.tile t
    (∀ (desc : Desc) (m : Met), d.seatOf t ≠ none → x.ready = true → m.descEcc = false →
      ∀ c ∈ ([.matmulTable, .matmulDirect, .logProduct, .reduce, .requant, .facetOp, .sample, .send, .recv, .dramRead, .dramWrite, .kvFetch,
          .kvStore, .residLoad, .residStore, .waitToken, .fenceFormat, .endSection] : List (Nat → Desc → Met → Instr)),
        exec (c t desc { m with descCorr := true }) s =
          exec (c t desc { m with descCorr := false }) { s with dev := { d with wafer := { d.wafer with descCorr := d.wafer.descCorr + 1 } } }) ∧
    (∀ (desc : Desc) (m : Met), Issues d t m →
      let n := fun op => withOp op desc
      let token := bitsOf (n 0x20) 6 6
      (∀ k, reserved? (n 0x20) [(12, 116)] = none → AMap.find x.tokens token = some k → exec (.waitToken t desc m) s =
        s.next (if k.done = true then (d.freeTok t token).nextDesc t else d.waitDesc t (some token) none false)) ∧
      (reserved? (n 0x20) [(12, 116)] = none → AMap.find x.tokens token = none →
        exec (.waitToken t desc m) s = s.next (d.imageFault t Rc.tokenNotIssued token)) ∧
      (reserved? (n 0x21) [(6, 122)] = none →
        exec (.fenceFormat t desc m) s = s.next ((d.onTile t fun x => { x with table := none }).nextDesc t)) ∧
      (reserved? (n 0x3F) [(6, 122)] = none → exec (.endSection t desc m) s =
        s.next (if (x.tokens.all fun k => k.2.done) = true then d.endSection t else d.waitDesc t none none true)) ∧
      (listedOpcode (desc.toNat % 64) = false →
        exec (.opcodeInvalid t desc m) s = s.next (d.imageFault t Rc.opcodeInvalid (desc.toNat % 64)))) ∧
    (∀ token bad, (AMap.find x.tokens token = none → exec (.tokenDone t token bad) s = s.next d) ∧
      (∀ k, AMap.find x.tokens token = some k → (k.done = true ∨ x.earlierInQueue k = true ∨ d.moved t token k = false) →
        exec (.tokenDone t token bad) s = s.next d) ∧
      (∀ k, AMap.find x.tokens token = some k → k.done = false → x.earlierInQueue k = false → d.moved t token k = true →
        d.readBad k bad = none → k.op ≠ 0x11 →
        let e := { d.moveTok t k with mesh := { (d.moveTok t k).mesh with
          packets := (d.moveTok t k).mesh.packets.filter fun p => isSample p.id || packetTok p.id != (t, token) } }.onTile t fun x =>
            { x with tokens := AMap.insert token { k with done := true, bad := none } x.tokens }
        exec (.tokenDone t token bad) s =
        s.next ((if (k.devWrite || decide (k.op ≤ 0x11)) = true then e else e.countReads k.lines).wake t))) ∧
    ((x.seqState ≠ 2 ∨ d.serve.faulted.contains (x.stage, 1) = true) → exec (.beatWatchdog t) s = s.next d) ∧
    (x.seqState = 2 → d.serve.faulted.contains (x.stage, 1) = false →
      exec (.beatWatchdog t) s = s.next (d.imageFault t Rc.beatWatchdog x.waitsFor))

/-- What a facet operation writes and leaves (06 R157): once issued, all but the arg forms put the encoded results at `d_base` of the tile's SRAM and every other byte there stays; weights, entries, residual file and tokens of the tile stay, the sequencer goes on by one descriptor, and no other site, no plain register, no stream's record and no channel changes. What a log product leaves (06 R154): the entries from `acc_base` on, one per group, are replaced and the table file becomes invalid; every other entry, the SRAM, the weights and the residual file of the tile and every other site stay, as do plain registers, streams and channels. -/
def Obligations.ComputeFrames : Prop :=
  (∀ (s : State) (t : Nat) (desc : Desc) (m : Met), Issues s.dev t m →
     let d := s.dev
     let x := d.tile t
     let p := facetDesc (withOp 0x0A desc)
     firstFault (facetStatic x p (withOp 0x0A desc) ++ [computeHazard x p.ranges none]) = none → p.arg = false →
     let a := elemsAt x.sram p.aBase p.aFmt p.count 0 p.count
     let b := elemsAt x.sram p.bBase p.bFmt p.bCount 0 p.bCount
     let e := if p.func = 0x04 then elemsAt x.sram p.dBase p.dFmt p.count 0 p.count else []
     let bytes := packCodes (fmtBits p.dFmt) ((facetFn false p.func p.scalar a b e).map fun v => (encodeFmt p.dFmt v).code)
     Answers (.facetOp t desc m) s fun u =>
       (∀ k, memGet (u.dev.tile t).sram k =
         if p.dBase ≤ k ∧ k < p.dBase + bytes.length then bytes.getD (k - p.dBase) 0 else memGet x.sram k) ∧
       (u.dev.tile t).weights = x.weights ∧ (u.dev.tile t).entries = x.entries ∧ (u.dev.tile t).resid = x.resid ∧
       (u.dev.tile t).tokens = x.tokens ∧ (u.dev.tile t).seqIndex = x.seqIndex + 1 ∧
       (∀ q, some q ≠ d.seatOf t → u.dev.site q = d.site q) ∧ (∀ f, Plain f → u.dev.rd f = d.rd f) ∧
       u.dev.serve.streams = d.serve.streams ∧ u.dev.mesh = d.mesh ∧ u.dev.fab = d.fab ∧ u.dev.pwr = d.pwr ∧ u.dev.wts = d.wts) ∧
  (∀ (s : State) (t : Nat) (desc : Desc) (m : Met), Issues s.dev t m →
     let d := s.dev
     let x := d.tile t
     let p := logDesc (withOp 0x03 desc)
     firstFault (logStatic x.prog p (withOp 0x03 desc) ++
       (if p.accOpen then [] else entryChecks x p.accBase (2 ^ p.groups) 66 Fmt.l16 (if p.antilog then .antilog else .log)) ++
       [computeHazard x (logRanges p) none]) = none →
     Answers (.logProduct t desc m) s fun u =>
       (∀ i, (i < p.accBase ∨ p.accBase + 2 ^ p.groups ≤ i) → AMap.find (u.dev.tile t).entries i = AMap.find x.entries i) ∧
       (∀ g < 2 ^ p.groups, AMap.find (u.dev.tile t).entries (p.accBase + g) =
         some (p.run x.sram g (if p.accOpen then p.opened else (x.entry? (p.accBase + g)).getD p.opened)).1) ∧
       (u.dev.tile t).table = none ∧ (u.dev.tile t).sram = x.sram ∧ (u.dev.tile t).weights = x.weights ∧
       (u.dev.tile t).resid = x.resid ∧ (u.dev.tile t).seqIndex = x.seqIndex + 1 ∧
       (∀ q, some q ≠ d.seatOf t → u.dev.site q = d.site q) ∧ (∀ f, Plain f → u.dev.rd f = d.rd f) ∧
       u.dev.serve.streams = d.serve.streams ∧ u.dev.mesh = d.mesh ∧ u.dev.fab = d.fab)

/-- The mesh (07 R173, R176-R181, R185, R188, 20 R432). A flit over a link between two routers: over one that is down, and behind a flit that is being retried, nothing comes; one with a bad CRC is retried, and the fifth failure in a row, or the 17th retry within 1 ms, takes the link down; a packet from which no verified table leads to its destination is discarded, PACKET_UNROUTABLE; a flit that its router cannot send, for want of a waiting flit, of room in the next buffer or of its turn, only clears the count of failures. One that it can send passes: the frame counter moves behind its slot, which for a staked channel is one of its stakes, at most eight flits stay in the replay buffer, the failures are cleared; a channel's flit short of the end moves on by one router, and no other channel changes; a packet stands at the next router, or, at its tile, its line has been answered. From over an edge tile's outward link comes the response to a request that has left there. LINK_DOWN takes both directions of the link down and no other; a packet that has waited moves to class 1; a liveness flit clears the count of periods missed and its absence adds one; TILE_DEAD makes the tile, once, one that is lost. -/
def Obligations.MeshCommands : Prop :=
  (∀ (s : State) (f : Flit),
    let d := s.dev
    let dir := opposite (f.dir % 4)
    (neighbour f.tile (f.dir % 4) = none → exec (.flitReceive f) s = s.next (d.atRouter f)) ∧
    (∀ src, neighbour f.tile (f.dir % 4) = some src → (∀ c r, d.flitChan f.kind = some (c, r) → d.chanRoute c r ≠ []) →
      let l := d.link src dir
      let k := f.kind
      let l1 : Link := { l with inRow := l.inRow + 1, retries := d.tick :: l.retries.filter (fun r => decide (d.tick - r < 25000)),
                                retrying := if d.sends src dir k = true then some k else l.retrying }
      let free := l.down = false ∧ (∀ q, l.retrying = some q → q ≠ k → d.sends src dir q = false)
      ((l.down = true ∨ (∃ q, l.retrying = some q ∧ q ≠ k ∧ d.sends src dir q = true)) → exec (.flitReceive f) s = s.next d) ∧
      (∀ p, free → d.stranded src k = some p → exec (.flitReceive f) s = s.next (d.unroutable p)) ∧
      (free → d.stranded src k = none → f.crcOk = false → 5 ≤ l1.inRow →
        exec (.flitReceive f) s = s.next ((d.setLink src dir l1).linkLost src dir)) ∧
      (free → d.stranded src k = none → f.crcOk = false → l1.inRow < 5 → l1.retries.length ≤ 16 →
        exec (.flitReceive f) s = s.next ((d.setLink src dir l1).raise (d.linkOcc src dir Rc.linkRetry 0 0))) ∧
      (free → d.stranded src k = none → f.crcOk = true → f.peer = none → d.sends src dir k = false →
        exec (.flitReceive f) s = s.next (d.setLink src dir { l with inRow := 0 })) ∧
      (∀ c r i, free → f.crcOk = true → f.peer = none → k = .channel c → d.chanRec c = some r → d.sends src dir k = true →
        d.sendsAt c r src dir = some i → i + 1 < (d.chanRoute c r).length → Answers (.flitReceive f) s fun u =>
          (u.dev.chan c).flight = stepFlit i (d.chan c).flight ∧ (∀ e ≠ c, u.dev.chan e = d.chan e) ∧
          (u.dev.link src dir).inRow = 0 ∧ (u.dev.link src dir).replay.length ≤ 8 ∧ (u.dev.link src dir).fifo.length ≤ 8 ∧
          (u.dev.link src dir).frame = (d.slotFor src dir k + 1) % 64 ∧
          (d.packetChan c r = false → r.stakeMask ≠ 0 → r.stakeMask < 2 ^ 64 → bitOf r.stakeMask (d.slotFor src dir k) = true) ∧
          u.dev.mesh.packets = d.mesh.packets ∧ u.dev.wafer = d.wafer ∧ u.dev.serve = d.serve) ∧
      (∀ c r i, free → f.crcOk = true → f.peer = none → k = .channel c → d.chanRec c = some r → d.sends src dir k = true →
        d.sendsAt c r src dir = some i → (d.chanRoute c r).length ≤ i + 1 →
        exec (.flitReceive f) s = s.next ((d.passLink src dir k).flitOn c r i)) ∧
      (∀ id p, free → d.stranded src k = none → f.crcOk = true → k = .packet id → d.sends src dir k = true →
        d.mesh.packets.find? (fun q => q.id == id) = some p → (p.request = true ∨ f.tile ≠ p.dst) → (isSample id = false ∨ f.tile ≠ p.dst) →
        exec (.flitReceive f) s = s.next { d.passLink src dir k with mesh := { (d.passLink src dir k).mesh with
          packets := d.mesh.packets.map fun q => if q.id = id then { q with router := f.tile, port := f.dir % 4 } else q } }))) ∧
  (∀ (s : State) (t dir : Nat),
    (neighbour t (dir % 4) = none → exec (.linkDown t dir) s = s.next s.dev) ∧
    (∀ u, neighbour t (dir % 4) = some u → (s.dev.link t (dir % 4)).down = false → Answers (.linkDown t dir) s fun w =>
      (w.dev.link t (dir % 4)).down = true ∧ (w.dev.link u (opposite (dir % 4))).down = true ∧
      (∀ v e, e < 4 → (v, e) ≠ (t, dir % 4) → (v, e) ≠ (u, opposite (dir % 4)) → w.dev.link v e = s.dev.link v e) ∧
      w.dev.wafer.bypass = s.dev.wafer.bypass ∧ w.dev.wafer.quarantined = s.dev.wafer.quarantined) ∧
    (∀ heard, neighbour t (dir % 4) = none → exec (.livenessFlit t dir heard) s = s.next s.dev) ∧
    (∀ heard u, neighbour t (dir % 4) = some u → exec (.livenessFlit t dir heard) s =
      s.next (s.dev.setLink u (opposite (dir % 4)) { s.dev.link u (opposite (dir % 4)) with
        missed := if heard = true then 0 else (s.dev.link u (opposite (dir % 4))).missed + 1 }))) ∧
  (∀ (s : State) (id : Nat), exec (.packetAgePromote id) s = s.next { s.dev with mesh := { s.dev.mesh with
    packets := s.dev.mesh.packets.map fun p => if p.id = id then { p with cls := 1 } else p } }) ∧
  (∀ (s : State) (t : Nat) (b : Bool),
    ((s.dev.physOf t = none ∨ t ∈ s.dev.wafer.lostTiles) → exec (.tileDead t b) s = s.next s.dev) ∧
    (∀ p, s.dev.physOf t = some p → t ∉ s.dev.wafer.lostTiles → Answers (.tileDead t b) s fun w =>
      w.dev.wafer.lostTiles = s.dev.wafer.lostTiles ++ [t] ∧ w.dev.wafer.lostFields = s.dev.wafer.lostFields))

/-- Beats (06 R143, 18 R408, 20 R433): BEAT_BOUNDARY before the boundary has come changes nothing, and at it is the boundary; ISSUE_RESUMED while no fault holds issue, or before every tile is done, changes nothing, and else writes the time since the fault to `LAST_INTERRUPT_US`, keeps the greatest in `MAX_INTERRUPT_US`, records ISSUE_RESUMED and opens a beat whose first cycle is the model's choice (log entry 46); FREQ_CHANGED puts the ordered step in force. -/
def Obligations.BeatCommands : Prop :=
  (∀ (s : State) (cycle : Nat),
    (s.dev.boundaryDue cycle = false → exec (.beatBoundary cycle) s = s.next s.dev) ∧
    (s.dev.boundaryDue cycle = true → exec (.beatBoundary cycle) s = s.next (s.dev.boundary cycle))) ∧
  (∀ (s : State) (us : Nat),
    let d := s.dev
    ((d.held 4 = false ∨ (d.wafer.sites.all fun e => d.tileDone e.2) = false) → exec (.issueResumed us) s = s.next d) ∧
    (d.held 4 = true → (d.wafer.sites.all fun e => d.tileDone e.2) = true → d.img.stop = none → exec (.issueResumed us) s =
      s.next (((((d.release 4).wr Reg.lastInterruptUs (min us 0xFFFF)).wr Reg.maxInterruptUs (max (min us 0xFFFF) (d.rd Reg.maxInterruptUs))).raise
        { code := Rc.issueResumed, detail := min us 0xFFFF, source := 1 }).boundary (d.serve.beatStart + us * 25 * d.rd Reg.freqNow)))) ∧
  (∀ (s : State) (failed : List Nat),
    let d := s.dev
    (d.serve.freqTo = none → exec (.freqChanged failed) s = s.next d) ∧
    (∀ step, d.serve.freqTo = some step → failed = [] → d.imgActive = false → d.rd Reg.freqNow ≤ step →
      exec (.freqChanged failed) s = s.next (((({ d with serve := { d.serve with freqTo := none } }.wr Reg.freqNow step).release 8)).raise
        { code := Rc.freqChanged, detail := step, source := 75 })))

/-- The inclusion monitor (05 R133-R135): a sample is taken of a tile that is due, working, not in recovery and not sampled, of its product descriptors in turn, and travels to the checker as a packet of class 5; a check counts the sample as passed where every row passes the tolerance of its class, else as failed, and one that fails quarantines the tile that the second checker convicts; a sample of 4,096 beats is abandoned and counted as skipped, a younger one stays. -/
def Obligations.InclusionCommands : Prop :=
  ∀ (s : State) (t : Nat),
    let d := s.dev
    (∀ r p err, d.recOf t = some r → d.imgActive = true → d.sampleDue t = true → d.inRecovery t = false → d.works t = true →
      AMap.find d.img.samples t = none → r.products[AMap.get 0 d.img.sampleTurn t % r.products.length]? = some p →
      exec (.inclusionSample { tile := t, err := err }) s = s.next { d with img := { d.img with
        samples := AMap.insert t (d.sampleOf t p.1 (r.descAt p.1) (AMap.get 0 d.img.sampleTurn t / r.products.length) err) d.img.samples,
        sampleTurn := AMap.set 0 d.img.sampleTurn t (AMap.get 0 d.img.sampleTurn t + 1) }, mesh := { d.mesh with
        packets := d.mesh.packets ++ [{ id := sampleId t, cls := 5, src := t, dst := (d.checkers t).1, request := true, router := t, port := 4 }] } }) ∧
    (∀ err, (d.imgActive = false ∨ d.sampleDue t = false ∨ (AMap.find d.img.samples t).isSome = true) → exec (.inclusionSample { tile := t, err := err }) s = s.next d) ∧
    (∀ a b, AMap.find d.img.samples t = none → exec (.inclusionCheck t { first := a, second := b }) s = s.next d) ∧
    (∀ x n, AMap.find d.img.samples t = some x → n = ((d.recOf t).map fun r => r.descAt x.desc).getD 0 →
      let e := { d with img := { d.img with samples := AMap.erase t d.img.samples },
                        mesh := { d.mesh with packets := d.mesh.packets.filter fun q => q.id != sampleId t } }
      let stage := d.sampleStage t x.desc
      let failed := e.stat t stage fun y => { y with failed := y.failed + 1 }
      (∀ a b, x.passes n a = true → exec (.inclusionCheck t { first := a, second := b }) s = s.next (e.stat t stage fun y => { y with passed := y.passed + 1 })) ∧
      (∀ a b, x.passes n a = false → sameErrors x.rows a b = true → exec (.inclusionCheck t { first := a, second := b }) s =
        s.next (failed.mismatch t 0 x.beat x.desc stage)) ∧
      (∀ a b, x.passes n a = false → sameErrors x.rows a b = false → x.passes n b = true → exec (.inclusionCheck t { first := a, second := b }) s =
        s.next (failed.mismatch (d.checkers t).1 1 x.beat x.desc stage)) ∧
      (∀ a b, x.passes n a = false → sameErrors x.rows a b = false → x.passes n b = false → exec (.inclusionCheck t { first := a, second := b }) s =
        s.next ((failed.mismatch t 2 x.beat x.desc stage).mismatch (d.checkers t).1 2 x.beat x.desc stage)) ∧
      (d.beat < x.beat + 4096 → exec (.inclusionSkipped t) s = s.next d) ∧
      (x.beat + 4096 ≤ d.beat → exec (.inclusionSkipped t) s = s.next (e.stat t stage fun y => { y with skipped := y.skipped + 1 }))) ∧
    (AMap.find d.img.samples t = none → exec (.inclusionSkipped t) s = s.next d)

/-- The girdle (09 R226-R231): a rebuild chunk, of a stripe in rebuild with chunks left, a free buffer and no copy step of a swap, moves the rebuild on by one chunk; once every chunk is written the rebuild is complete; the audit of a protected stripe takes its chunks in ascending order, the pass ending with the last, and any other chunk changes nothing. -/
def Obligations.GirdleCommands : Prop :=
  ∀ (s : State) (n : Nat),
    let d := s.dev
    let st := d.stripe n
    (∀ bad, d.rebuildOf n = none → exec (.rebuildChunk n bad) s = s.next d) ∧
    (∀ bad x i t r p, d.rebuildOf n = some (x, i, t, r, p) →
      ((p.chunks ≤ st.nextChunk ∨ d.rd Reg.swapState = 3) → exec (.rebuildChunk n bad) s = s.next d) ∧
      (st.nextChunk < p.chunks → d.rd Reg.swapState ≠ 3 → (st.target = 1 ∨ d.buffersInUse < 32) →
        Answers (.rebuildChunk n bad) s fun u => (u.dev.stripe n).nextChunk = st.nextChunk + 1 ∧ (u.dev.stripe n).complete = st.complete ∧
          (∀ m, m ≠ n → u.dev.stripe m = d.stripe m) ∧ u.dev.serve = d.serve ∧ ∀ f, Plain f → u.dev.rd f = d.rd f) ∧
      exec (.girdleRebuilt n) s = s.next (if st.nextChunk < p.chunks then d else d.setStripe n { st with complete := true })) ∧
    (∀ c bad x p, d.stripeRec n = some x → x.members.head?.bind d.stripeProd = some p →
      ((d.imgActive = false ∨ st.state ≠ 0 ∨ st.lost.isSome = true ∨ c ≠ st.audited ∨ p.chunks ≤ c ∨ d.rd Reg.swapState = 3) →
        exec (.girdleAudit n c bad) s = s.next d) ∧
      (d.imgActive = true → st.state = 0 → st.lost = none → c = st.audited → c < p.chunks → d.rd Reg.swapState ≠ 3 →
        d.chunkOff x p c = false →
        exec (.girdleAudit n c bad) s = s.next (d.setStripe n (if c + 1 = p.chunks then { st with audited := 0, reaudit := false }
          else { st with audited := c + 1 }))))

/-- Memories (14 R342, R345-R349, 19 R427, 20 R438): the scrub of a site takes its pages in turn, counting what it corrects; the patrol scrub of a stack moves `SCRUB_OFFSET` on by a line, around the stack, and leaves a clean line alone (whether the stack's own code corrected the read is free, log entry 73); the loss of a stack that stands marks it, once, the first with a remap in force and a second as a double fault; the remap's background work ends once; a telemetry record goes to the ring's next place, which `TELEM_INDEX` then names, and nowhere else (its bytes are free values of what it holds, log entry 110). -/
def Obligations.MemoryUpkeep : Prop :=
  ∀ s : State,
    let d := s.dev
    (∀ site page found, page = AMap.get 0 d.wafer.scrubNext site → 7 ≤ d.rd Reg.stage → d.rd Reg.pstate < 2 → page ≠ 0 →
      let e := { d with wafer := { d.wafer with scrubNext := AMap.set 0 d.wafer.scrubNext site (if page + 1 = tierPages then 0 else page + 1) } }
      (found = .clean → exec (.memoryTierScrub site found) s = s.next e) ∧
      (∀ m col, found = .corrected m col → exec (.memoryTierScrub site found) s = s.next ((e.bump Reg.mtScrubCorr).countColumn site (m % 16) col))) ∧
    (∀ site found, (d.rd Reg.stage < 7 ∨ 2 ≤ d.rd Reg.pstate) → exec (.memoryTierScrub site found) s = s.next d) ∧
    (∀ k raw other, k < 12 → 7 ≤ d.rd Reg.stage → d.rd Reg.pstate < 3 → d.rd (Reg.stackState k) ≠ 2 →
      decodeLine (d.rd Reg.eccMode) ((raw ++ List.replicate 72 0).take 72) other = .clean →
      let line := d.lineAddr k (d.rd (Reg.scrubOffset k))
      let e := d.wr (Reg.scrubOffset k) (if stackBytes ≤ d.rd (Reg.scrubOffset k) + 64 then 0 else d.rd (Reg.scrubOffset k) + 64)
      exec (.hbmPatrolScrub k raw other) s = s.next (if e.lineBadAt (e.dramKey line) = true then e else e.corrBy k 1 false)) ∧
    (∀ k cause, (12 ≤ k ∨ d.rd (Reg.stackState k) ≠ 1) → exec (.hbmStackLost k cause) s = s.next d) ∧
    (∀ k cause, k < 12 → d.rd (Reg.stackState k) = 1 → d.rd Reg.lostStack ≠ 15 → Answers (.hbmStackLost k cause) s fun u =>
      u.dev.rd (Reg.stackState k) = 2 ∧ u.dev.rd Reg.remapState = 3 ∧ u.dev.rd Reg.errDouble = 1 ∧ u.dev.rd Reg.lostStack = d.rd Reg.lostStack) ∧
    (∀ k cause, k < 12 → d.rd (Reg.stackState k) = 1 → d.rd Reg.lostStack = 15 → Answers (.hbmStackLost k cause) s fun u =>
      u.dev.rd (Reg.stackState k) = 2 ∧ u.dev.rd Reg.remapState = 1 ∧ u.dev.rd Reg.lostStack = k) ∧
    (d.rd Reg.remapState ≠ 1 → exec .hbmRemapDone s = s.next d) ∧
    (d.rd Reg.remapState = 1 → Answers .hbmRemapDone s fun u => u.dev.rd Reg.remapState = 2 ∧ u.dev.serve = d.serve ∧ u.dev.wafer = d.wafer) ∧
    (7 ≤ d.rd Reg.stage → d.rd Reg.pstate < 4 → d.rd Reg.telemBase ≠ 0 →
      let i := (d.rd Reg.telemIndex + 1) % 256
      let bytes := (List.range 4096).map fun j => Config.telemetryByte d.telemetry j
      exec .telemetry s = s.next ({ d with mem := { d.mem with dram := memWrite d.mem.dram (d.rd Reg.telemBase + 4096 * i) bytes } }.wr Reg.telemIndex i))

/-- Calibration, journal and rim cores (17 R399, 19 R427, 20 R439, R440, R447): an oscillator's trim is kept, a sensor's calibration counted (the model's form); an append writes the oldest unjournaled data and, once none is left, the journal holds the serving state (the model's reading, log entry 43); a lost package is recorded, and with the last one the journal is empty and a double fault stands; a rim core that misses its watchdog leaves `RIM_CORES_UP` and its standby takes its duties, with none standing that is a double fault. -/
def Obligations.JournalAndCores : Prop :=
  ∀ s : State,
    let d := s.dev
    (7 ≤ d.rd Reg.stage →
      (∀ n trim, d.rd Reg.pstate < 2 → exec (.oscCalibration n trim) s =
        s.next { d with wafer := { d.wafer with trims := AMap.set 0 d.wafer.trims n trim } }) ∧
      (∀ n, d.rd Reg.pstate < 3 → exec (.sensorCalibration n) s =
        s.next { d with pwr := { d.pwr with calibrations := d.pwr.calibrations + 1 } }) ∧
      (∀ n, d.pwr.packages ≠ [] → exec (.journalAppend n) s = s.next { d with pwr := { d.pwr with
        unjournaled := d.pwr.unjournaled - n,
        journal := if d.pwr.unjournaled - n = 0 then d.servingState else d.pwr.journal } })) ∧
    (∀ k, k ∉ d.pwr.packages → exec (.journalPackageLost k) s = s.next d) ∧
    (∀ k, k ∈ d.pwr.packages → (d.pwr.packages.filter fun q => q != k) ≠ [] → exec (.journalPackageLost k) s =
      s.next ({ d with pwr := { d.pwr with packages := d.pwr.packages.filter fun q => q != k } }.raise
        { code := Rc.journalPackageLost, detail := k, source := 74, unitKind := 7, unit := k })) ∧
    (∀ k, k ∈ d.pwr.packages → (d.pwr.packages.filter fun q => q != k) = [] → Answers (.journalPackageLost k) s fun u =>
      u.dev.pwr.packages = [] ∧ u.dev.pwr.journal = Kept.empty ∧ u.dev.pwr.sealed = none ∧ u.dev.pwr.doubleFault = true ∧ u.dev.rd Reg.errDouble = 1) ∧
    (∀ k, (16 ≤ k ∨ d.rd Reg.stage < 1 ∨ bitOf (d.rd Reg.rimCoresUp) k = false) → exec (.rimCoreLost k) s = s.next d) ∧
    (∀ k, k < 16 → 1 ≤ d.rd Reg.stage → bitOf (d.rd Reg.rimCoresUp) k = true → bitOf (d.rd Reg.rimCoresUp - 2 ^ k) ((k + 8) % 16) = true →
      Answers (.rimCoreLost k) s fun u => u.dev.rd Reg.rimCoresUp = (d.rd Reg.rimCoresUp - 2 ^ k) % 2 ^ 16 ∧
        AMap.find u.dev.pwr.duties k = some ((k + 8) % 16) ∧ (d.imgActive = true → u.dev.held 4 = true) ∧ u.dev.wafer = d.wafer) ∧
    (∀ k, k < 16 → 1 ≤ d.rd Reg.stage → bitOf (d.rd Reg.rimCoresUp) k = true → bitOf (d.rd Reg.rimCoresUp - 2 ^ k) ((k + 8) % 16) = false →
      Answers (.rimCoreLost k) s fun u => u.dev.rd Reg.errDouble = 1 ∧ u.dev.pwr.doubleFault = true)

/-- The event controller's writes (13 R321-R334): EVT_EOI of a ring whose interrupt is active completes it, and activates it again where records are unread, any other counts as spurious; BANK_EOI is taken from the core that owns the bank alone, and acts on its lines the same way; EVT_RAISE raises a software source and ignores any other; `ENABLE` of a ring takes it out of use, or into use where its entry is allowed; `HEAD` moves over unread records only; a route is stored; an edge on an always-on input sets its latch bit. -/
def Obligations.EventControllerWrites : Prop :=
  ∀ (s : State) (a : RegAcc),
    let d := s.dev
    (∀ r, Takes d a 0x10008 → Gives a 0x10008 Reg.evtEoi r →
      (d.bit (Reg.ringActive r) = false → exec (.evtEoi a) s = s.next (d.bump Reg.evtSpuriousEoi)) ∧
      (d.bit (Reg.ringActive r) = true → d.rd (Reg.ringHead r) = d.rd (Reg.ringTail r) →
        exec (.evtEoi a) s = s.next (d.wr (Reg.ringActive r) 0)) ∧
      (d.bit (Reg.ringActive r) = true → d.rd (Reg.ringHead r) ≠ d.rd (Reg.ringTail r) →
        exec (.evtEoi a) s = s.next ((d.wr (Reg.ringActive r) 0).activate r))) ∧
    (∀ k line, k < 16 → Takes d a (0x14010 + 256 * k) → Gives a (0x14010 + 256 * k) (Reg.bankEoi k) line →
      (a.who ≠ .rimCore k → exec (.bankEoi k a) s = s.next d) ∧
      (a.who = .rimCore k → exec (.bankEoi k a) s = s.next (d.bankEoi k line)) ∧
      (a.who = .rimCore k → 48 ≤ line → exec (.bankEoi k a) s = s.next (d.bump Reg.evtSpuriousEoi))) ∧
    (∀ n v, Takes d a 0x10018 → Gives a 0x10018 Reg.raiseSource n → Gives a 0x10018 Reg.raiseDetail v →
      (128 ≤ n → n < 512 → exec (.evtRaise a) s = s.next (d.raise { code := Rc.evtSoftware, detail := v, source := n })) ∧
      (n < 128 → exec (.evtRaise a) s = s.next d)) ∧
    (∀ r, r < 4096 → Takes d a (0x20000 + 32 * r) →
      (d.bit (Reg.ringEnable r) = true → Gives a (0x20000 + 32 * r) (Reg.ringEnable r) 0 →
        exec (.eventRingEnable r a) s = s.next ((d.wr (Reg.ringEnable r) 0).wr (Reg.ringActive r) 0)) ∧
      (∀ base size target, d.bit (Reg.ringEnable r) = false → Gives a (0x20000 + 32 * r) (Reg.ringEnable r) 1 →
        Gives a (0x20000 + 32 * r) (Reg.ringBase r) base → Gives a (0x20000 + 32 * r) (Reg.ringSize r) size →
        Gives a (0x20000 + 32 * r) (Reg.ringTarget r) target →
        let e := ((d.wr (Reg.ringBase r) base).wr (Reg.ringSize r) size).wr (Reg.ringTarget r) target
        exec (.eventRingEnable r a) s =
          s.next (if 3 ≤ size ∧ target ≠ 3 ∧ base % 32 = 0 then e.enableRing r else e))) ∧
    (∀ r v, r < 4096 → Takes d a (0x20008 + 32 * r) → Gives a (0x20008 + 32 * r) (Reg.ringHead r) v → d.bit (Reg.ringEnable r) = true →
      a.size = 4 → exec (.eventRingHeadWrite r a) s = s.next (d.moveHead r v)) ∧
    (∀ n ring en, n < 512 → Takes d a (0x12000 + 8 * n) → Gives a (0x12000 + 8 * n) (Reg.routeRing n) ring →
      Gives a (0x12000 + 8 * n) (Reg.routeEn n) en →
      exec (.routeWrite n a) s = s.next ((d.wr (Reg.routeRing n) ring).wr (Reg.routeEn n) en)) ∧
    (∀ b, (6 ≤ b ∨ d.pwr.aonOn = false) → exec (.aonEdge b) s = s.next d) ∧
    (∀ b, b < 6 → d.pwr.aonOn = true → Answers (.aonEdge b) s fun u =>
      bitOf (u.dev.rd Reg.aonLatch) b = true ∧ u.dev.serve = d.serve ∧ u.dev.wafer = d.wafer ∧ u.dev.img = d.img ∧
      (bitOf (d.rd Reg.aonLatch) b = false → u.dev.rd (Reg.aonTick b) = d.tick % 2 ^ 48))

/-- The registers with a rule of their own (01 R36, 14 R348, 18 R408, 19 R423, 22 R470, R477): DEVICE_RESET needs its key; `FREQ_STEP` takes 16 to 64 and waits for a boundary; `MIRROR_GIB` takes 1 to 64, not a multiple of 3, while nothing lies in device memory; `BAR4_BASE_GIB` takes what keeps the aperture in DRAM, `HOST_WIN_BASE` a value while no ring lies in the host window; over PCIe an access that is not 4 or 8 aligned bytes writes nothing and reads as unsupported; a read of `EVT_SPURIOUS_EOI` clears it and nothing else. -/
def Obligations.RegisterCommands : Prop :=
  ∀ (s : State) (a : RegAcc),
    let d := s.dev
    (∀ v key, Takes d a 0x1010 → Gives a 0x1010 Reg.deviceReset v → Gives a 0x1010 Reg.resetKey key →
      exec (.deviceReset a) s = s.next (if v = 1 ∧ key = 0xA5 then d.doDeviceReset else d)) ∧
    (∀ v, Takes d a 0x201000 → Gives a 0x201000 Reg.freqStep v →
      exec (.freqStepWrite a) s = s.next (if 16 ≤ v ∧ v ≤ 64 then (d.wr Reg.freqStep v).wr Reg.freqPending 1 else d)) ∧
    (∀ g m, Takes d a 0x500008 → Gives a 0x500008 Reg.mirrorGib g → Gives a 0x500008 Reg.eccMode m →
      exec (.mirrorGibWrite a) s = s.next (if d.mirrorBusy = false ∧ 1 ≤ g ∧ g ≤ 64 ∧ g % 3 ≠ 0 then (d.wr Reg.eccMode m).setMirror g
        else d.wr Reg.eccMode m)) ∧
    (∀ v, Takes d a 0x2008 → Gives a 0x2008 Reg.bar4BaseGib v →
      exec (.bar4BaseWrite a) s = s.next (if (v + 64) * 2 ^ 30 ≤ d.dramTop then d.wr Reg.bar4BaseGib v else d)) ∧
    (∀ v, Takes d a 0x2000 → Gives a 0x2000 Reg.hostWinBase v →
      exec (.hostWinBaseWrite a) s = s.next (if d.hostRings = false then d.wr Reg.hostWinBase v else d)) ∧
    (a.who = .pcie → d.io.pcieUp = false → exec (.registerWrite a) s = s.next d ∧ exec (.rcRead a) s = s.next d) ∧
    (a.who = .pcie → d.io.pcieUp = true → accessOk a = false →
      exec (.registerWrite a) s = s.next d ∧ exec (.rcRead a) s = s.next (d.emit .pcieUnsupported)) ∧
    (d.reaches a.who = true → accessOk a = true → (7 ≤ d.rd Reg.stage ∨ a.off < 0x2000) →
      exec (.registerWrite a) s = s.next (d.storeWord (wordOf a (a.off - a.off % 8)))) ∧
    (a.who = .pcie → d.io.pcieUp = true → a.off = 0x10010 → a.size = 8 → 7 ≤ d.rd Reg.stage → Answers (.rcRead a) s fun u =>
      u.dev.rd Reg.evtSpuriousEoi = 0 ∧ (∀ f, Plain f → fldKey f ≠ fldKey Reg.evtSpuriousEoi → u.dev.rd f = d.rd f) ∧ u.dev.serve = d.serve)

/-- The access types (00 R6, R7): of a word's fields a write that covers them stores the writable ones, clears the bits written 1 of those cleared so, and leaves the read-only ones and those cleared by reading; a field that it does not cover whole stays, and so does every other register. -/
def Obligations.AccessTypesHold : Prop :=
  ∀ (d : Dev) (w : WordWrite) (f : Fld), f ∈ Reg.wordFields w.off →
    ((f.acc = .ro ∨ f.acc = .rc ∨ f.acc = .wo ∨ w.covers f = false) → (d.storePlain w).rd f = d.rd f) ∧
    (f.acc = .rw → w.covers f = true → (d.storePlain w).rd f = bitsOf w.v f.lo f.width) ∧
    (f.acc = .w1c → w.covers f = true → (d.storePlain w).rd f = d.rd f &&& (2 ^ f.width - 1 - bitsOf w.v f.lo f.width)) ∧
    (∀ g : Fld, (∀ h ∈ Reg.wordFields w.off, fldKey h ≠ fldKey g) → (d.storePlain w).rd g = d.rd g)

/-- Reserved bits and offsets (00 R7, 22 R471): a bit of a word of the registers that no field holds reads 0; a write has the same effect whatever it gives such bits; a word that holds no field reads 0, and neither a read nor a write of it changes anything, so it leaves no record. -/
def Obligations.ReservedBitsIgnored : Prop :=
  ∀ d : Dev,
    (∀ off i, (∀ f ∈ Reg.wordFields off, i < f.lo ∨ f.lo + f.width ≤ i) → bitOf (d.regWord off) i = false) ∧
    (∀ w u : WordWrite, w.off = u.off → w.b0 = u.b0 → w.b1 = u.b1 → w.core = u.core → w.off % 8 = 0 →
      (∀ f ∈ Reg.wordFields w.off, w.value f = u.value f) → d.storeWord w = d.storeWord u) ∧
    (∀ off, off % 8 = 0 → Reg.wordFields off = [] →
      d.regWord off = 0 ∧ (∀ b0 b1, (d.regReadPart off b0 b1).2 = d) ∧ (∀ w : WordWrite, w.off = off → d.storeWord w = d))

/-- The windows (01 R31-R36, 22 R478, R479): BAR4 and the diagnostic slots reach nothing while the link is down, read zeros and ignore writes before stage B7; BAR4 then reads and writes DRAM from its base, refusing what is protected with a count; a tile window answers with the status and the bytes of the place. -/
def Obligations.WindowAccesses : Prop :=
  ∀ (s : State) (a : WinAcc),
    let d := s.dev
    let base := d.rd Reg.bar4BaseGib * 2 ^ 30 + a.addr
    (d.io.pcieUp = false → exec (.bar4Access a) s = s.next d ∧ exec (.diagSlotAccess a) s = s.next d) ∧
    (d.io.pcieUp = true → d.rd Reg.stage < 7 → a.data = none →
      exec (.bar4Access a) s = s.next (d.emit (.pcieData (List.replicate a.len 0))) ∧
      exec (.diagSlotAccess a) s = s.next (d.emit (.pcieData (List.replicate a.len 0)))) ∧
    (∀ bs, d.io.pcieUp = true → d.rd Reg.stage < 7 → a.data = some bs →
      exec (.bar4Access a) s = s.next d ∧ exec (.diagSlotAccess a) s = s.next d) ∧
    (d.io.pcieUp = true → 7 ≤ d.rd Reg.stage → a.data = none → base + a.len ≤ d.dramTop → firstIn d.protectedAt base a.len = none →
      d.badLine base a.len = none → exec (.bar4Access a) s = s.next ((d.countReads (linesOf base a.len)).emit (.pcieData (d.dramBytes base a.len)))) ∧
    (d.io.pcieUp = true → 7 ≤ d.rd Reg.stage → a.data = none → base + a.len ≤ d.dramTop → firstIn d.protectedAt base a.len ≠ none →
      exec (.bar4Access a) s = s.next ((d.bump Reg.bar4Refused).emit .pcieAbort)) ∧
    (∀ bs, d.io.pcieUp = true → 7 ≤ d.rd Reg.stage → a.data = some bs → base + bs.length ≤ d.dramTop →
      (firstIn d.protectedAt base bs.length ≠ none → exec (.bar4Access a) s = s.next (d.bump Reg.bar4Refused)) ∧
      (firstIn d.protectedAt base bs.length = none →
        exec (.bar4Access a) s = s.next ((d.bar4Store base bs base (base + bs.length)).clearPoisonIn base bs.length))) ∧
    (a.data = none → exec (.tileWindowAccess a) s =
      s.next ((((d.read a.addr a.len).dev.noteUnmapped a.who false (d.read a.addr a.len).unmapped)).emit
        (.busData (d.read a.addr a.len).st (d.read a.addr a.len).bytes))) ∧
    (∀ bs, a.data = some bs → exec (.tileWindowAccess a) s =
      s.next ((((d.write a.addr bs).dev.noteUnmapped a.who true (d.write a.addr bs).unmapped)).emit (.busData (d.write a.addr bs).st []))) ∧
    (∀ bs, d.io.pcieUp = true → 7 ≤ d.rd Reg.stage → a.data = some bs → exec (.diagSlotAccess a) s =
      s.next ((d.write (0x200000000000 + a.addr) bs).dev.noteUnmapped .pcie true (d.write (0x200000000000 + a.addr) bs).unmapped))

/-- Power-on and bring-up (19 R419-R423): a feed that rises on a dark part puts it at stage B0 with that feed present and nothing held; a stage that completes moves `STAGE` on by one and notes its time, B2 only with enough coolant and firmware that is not below the floor; one that stalls keeps `STAGE`, shows its cause and sets `ERR_STALL`; nothing happens after B7, in a stalled part or a dark one. -/
def Obligations.BringUp : Prop :=
  (∀ (s : State) (feed : Nat),
    (s.dev.pwr.aonOn = true → exec (.powerOn feed) s = s.next s.dev) ∧
    (s.dev.pwr.aonOn = false → Answers (.powerOn feed) s fun u =>
      u.dev.rd Reg.stage = 0 ∧ u.dev.rd Reg.pstate = 0 ∧ u.dev.pwr.aonOn = true ∧ AMap.find u.dev.pwr.feeds (feed % 2) = some true ∧
      u.dev.serve.streams = [] ∧ u.dev.img.active = none ∧ u.dev.mem.dram = [] ∧ u.sec = s.sec)) ∧
  (∀ (s : State) (i : StageInfo),
    let d := s.dev
    let n := d.rd Reg.stage
    ((d.pwr.aonOn = false ∨ d.rd Reg.pstate ≠ 0 ∨ d.bit Reg.stalled = true ∨ 7 ≤ n) →
      exec (.stageReached i) s = s.nextSec s.sec d) ∧
    (∀ c, d.pwr.aonOn = true → d.rd Reg.pstate = 0 → d.bit Reg.stalled = false → n < 7 → d.stallOf i s.sec = some c → c < 256 →
      Answers (.stageReached i) s fun u => u.dev.rd Reg.stage = n ∧ u.dev.rd Reg.stalled = 1 ∧ u.dev.rd Reg.stallCause = c ∧
        u.dev.rd Reg.errStall = 1 ∧ u.sec = s.sec) ∧
    (d.pwr.aonOn = true → d.rd Reg.pstate = 0 → d.bit Reg.stalled = false → n < 7 → d.stallOf i s.sec = none →
      (n = 2 → d.belowFloor i.recordsOut = false ∧ coolEnough i = true) → Answers (.stageReached i) s fun u =>
        u.dev.rd Reg.stage = n + 1 ∧ u.dev.rd (Reg.stageMs n) = i.ms % 2 ^ 32))

/-- Resets of the host link and a device reset (19 R422, R423): a PCIe reset takes the link down and leaves what is served, the wafer, the image and the stage and power state; a link that trains is up; a device reset leaves bring-up at B1 with every stream, image and byte of device memory gone, and what flash holds as it was. -/
def Obligations.LinkAndReset : Prop :=
  (∀ (s : State) (kind : Nat),
    (s.dev.pwr.aonOn = false → exec (.pcieReset kind) s = s.next s.dev) ∧
    (s.dev.pwr.aonOn = true → Answers (.pcieReset kind) s fun u =>
      u.dev.io.pcieUp = false ∧ (kind = 0 → u.dev.io.perst = true) ∧ u.dev.serve = s.dev.serve ∧ u.dev.wafer = s.dev.wafer ∧
      u.dev.img = s.dev.img ∧ u.dev.rd Reg.stage = s.dev.rd Reg.stage ∧ u.dev.rd Reg.pstate = s.dev.rd Reg.pstate)) ∧
  (∀ s : State,
    ((s.dev.rd Reg.stage < 6 ∨ 4 ≤ s.dev.rd Reg.pstate) → exec .pcieLinkTrained s = s.next s.dev) ∧
    (6 ≤ s.dev.rd Reg.stage → s.dev.rd Reg.pstate < 4 → exec .pcieLinkTrained s =
      s.next { s.dev with io := { s.dev.io with pcieUp := true, perst := false } })) ∧
  (∀ d : Dev, d.doDeviceReset.rd Reg.stage = 1 ∧ d.doDeviceReset.serve.streams = [] ∧ d.doDeviceReset.img.active = none ∧
    d.doDeviceReset.mem.dram = [] ∧ d.doDeviceReset.mem.rimSram = [] ∧ d.doDeviceReset.mem.hostMem = d.mem.hostMem ∧
    d.doDeviceReset.pwr.chain = d.pwr.chain ∧ d.doDeviceReset.pwr.packages = d.pwr.packages ∧ d.doDeviceReset.pwr.journal = d.pwr.journal ∧
    d.doDeviceReset.wafer.bypass = d.wafer.bypass ∧ (∀ f, keptByDeviceReset (fldKey f) = true → d.doDeviceReset.rd f = d.rd f) ∧
    (∀ f, keptByDeviceReset (fldKey f) = false → fldKey f ≠ fldKey Reg.stage → d.doDeviceReset.rd f = f.reset))

/-- Power states (18 R411, 19 R424-R428): P1 is entered by itself only in P0 with nothing in flight, no work, no transition and `P1_DELAY` set, and then lowers every `VMIN_TARGET` and keeps the tiles; PSTATE_CHANGED ends the transition that is under way, once its barrier stands and waves have drained, or the wake; lost coolant takes the part to P3 with its waves abandoned, its weights gone and `ERR_COOLANT` set. -/
def Obligations.PowerStateCommands : Prop :=
  ∀ s : State,
    let d := s.dev
    ((d.rd Reg.stage < 7 ∨ d.rd Reg.pstate ≠ 0 ∨ d.bit Reg.pstateBusy = true ∨ d.rd Reg.p1Delay = 0 ∨ d.drained = false ∨ d.hasWork = true) →
      exec .p1Entry s = s.next d) ∧
    (7 ≤ d.rd Reg.stage → d.rd Reg.pstate = 0 → d.bit Reg.pstateBusy = false → d.rd Reg.p1Delay ≠ 0 → d.drained = true → d.hasWork = false →
      d.issueStands = false → d.jobs 0x04 = [] → d.img.activating = false → Answers .p1Entry s fun u =>
        u.dev.rd Reg.pstate = 1 ∧ u.dev.rd Reg.pstateTarget = 1 ∧ u.dev.rd Reg.pstateBusy = 0 ∧
        (∀ n < 36, u.dev.rd (Reg.vminTarget n) = 650) ∧ u.dev.wafer = d.wafer ∧ u.dev.serve.streams = d.serve.streams) ∧
    ((d.bit Reg.pstateBusy = false ∨ d.coresDead = true) → exec .pstateChanged s = s.next d) ∧
    (d.bit Reg.pstateBusy = true → d.coresDead = false → d.rd Reg.pstateTarget = 0 → exec .pstateChanged s = s.next d.wakeUp) ∧
    (∀ t, d.bit Reg.pstateBusy = true → d.coresDead = false → d.rd Reg.pstateTarget ≠ 0 → d.noBeats = false →
      d.pwr.transition = some (t, true) → exec .pstateChanged s =
        s.next (if d.drained = true then (d.goDown (d.rd Reg.pstateTarget)).wakeIfWork else d)) ∧
    (∀ k, (d.rd Reg.stage < 3 ∨ 4 ≤ d.rd Reg.pstate) → exec (.coolantLost k) s = s.next d) ∧
    (∀ k, 3 ≤ d.rd Reg.stage → d.rd Reg.pstate < 4 → Answers (.coolantLost k) s fun u =>
      u.dev.rd Reg.pstate = 3 ∧ u.dev.rd Reg.pstateBusy = 0 ∧ u.dev.rd Reg.errCoolant = 1 ∧ u.dev.serve.waves = [] ∧
      u.dev.serve.replays = [] ∧ u.dev.held 3 = true ∧ u.dev.pwr.weightsOut = true ∧ u.dev.wafer.sites = [])

/-- Feeds and Preserve (17 R388, R398, R400): the loss of one feed with the other present clears its bit, sets its error bit and leaves what is served; the loss of the second before stage B7 is a loss of power; a feed that returns sets its bit and ends a ride-through; Preserve runs during a ride-through only and seals the serving state. -/
def Obligations.FeedsAndPreserve : Prop :=
  ∀ s : State,
    let d := s.dev
    (∀ feed ov e w, (d.pwr.aonOn = false ∨ AMap.get false d.pwr.feeds (feed % 2) = false) → exec (.feedLost feed ov e w) s = s.next d) ∧
    (∀ feed ov e w, d.pwr.aonOn = true → AMap.get false d.pwr.feeds (feed % 2) = true →
      ((AMap.insert (feed % 2) false d.pwr.feeds).any fun x => x.2) = true → Answers (.feedLost feed ov e w) s fun u =>
        u.dev.rd (feedOk (feed % 2)) = 0 ∧ u.dev.rd (errFeed (feed % 2)) = 1 ∧ u.dev.pwr.feeds = AMap.insert (feed % 2) false d.pwr.feeds ∧ (ov = true → feed % 2 ∈ u.dev.pwr.feedOpen) ∧
        u.dev.rd Reg.inputW = w % 2 ^ 24 ∧ u.dev.pwr.ride = d.pwr.ride ∧ u.dev.serve = d.serve ∧ u.dev.wafer = d.wafer ∧ u.dev.img = d.img) ∧
    (∀ feed ov e w, d.pwr.aonOn = true → AMap.get false d.pwr.feeds (feed % 2) = true →
      ((AMap.insert (feed % 2) false d.pwr.feeds).any fun x => x.2) = false → d.rd Reg.stage < 7 → Answers (.feedLost feed ov e w) s fun u =>
        u.dev.rd Reg.pstate = 4 ∧ u.dev.pwr.aonOn = false) ∧
    (∀ feed, (d.pwr.aonOn = false ∨ AMap.get false d.pwr.feeds (feed % 2) = true) → exec (.feedRestored feed) s = s.next d) ∧
    (∀ feed, d.pwr.aonOn = true → AMap.get false d.pwr.feeds (feed % 2) = false → d.pwr.ride = none → exec (.feedRestored feed) s =
      s.next ({ d.wr (feedOk (feed % 2)) 1 with pwr := { d.pwr with feeds := AMap.insert (feed % 2) true d.pwr.feeds,
                                                                     feedOpen := d.pwr.feedOpen.filter (· != feed % 2) } }.raise
        { code := Rc.feedRestored, detail := feed % 2, source := 67 + feed % 2, unitKind := 8, unit := feed % 2 })) ∧
    (∀ feed r, d.pwr.aonOn = true → AMap.get false d.pwr.feeds (feed % 2) = false → d.pwr.ride = some r → Answers (.feedRestored feed) s fun u =>
      u.dev.rd Reg.onHum = 0 ∧ u.dev.pwr.ride = none ∧ u.dev.rd (feedOk (feed % 2)) = 1 ∧ u.dev.serve = d.serve) ∧
    (d.pwr.ride = none → exec .preserve s = s.next d) ∧
    (d.pwr.ride ≠ none → 7 ≤ d.rd Reg.stage → d.pwr.packages ≠ [] → (d.pwr.feeds.any fun x => x.2) = false → Answers .preserve s fun u =>
      u.dev.rd Reg.pstate = 4 ∧ u.dev.pwr.sealed.isSome = true ∧ u.dev.serve.streams = [])

/-- The hold-up module (17 R397, R402, 21 R464, 23 R488): insertion sets `HUM_PRESENT` and challenges it, removal clears its registers and sets `ERR_HUM`, and during a ride-through it is a loss of power; an alarm is held until its release; the hourly measurement fills its registers and calls for a replacement when a limit is passed; a challenge sets `HUM_AUTH_OK` or its error bits. -/
def Obligations.HoldUpModule : Prop :=
  ∀ s : State,
    let d := s.dev
    (∀ h, d.pwr.aonOn = false → exec (.humChanged h) s = s.next { d with pwr := { d.pwr with hum := h } }) ∧
    (∀ h, d.pwr.aonOn = true → d.pwr.hum = none → Answers (.humChanged (some h)) s fun u =>
      u.dev.rd Reg.humPresent = 1 ∧ u.dev.pwr.hum = some h ∧ (1 ≤ d.rd Reg.stage → u.dev.rd Reg.humAuthOk = b2n h.genuine)) ∧
    (∀ h, d.pwr.aonOn = true → d.pwr.hum = some h → d.pwr.ride = none → Answers (.humChanged none) s fun u =>
      u.dev.rd Reg.humPresent = 0 ∧ u.dev.rd Reg.humAuthOk = 0 ∧ u.dev.rd Reg.humEnergyJ = 0 ∧ u.dev.rd Reg.errHum = 1 ∧
      u.dev.pwr.hum = none ∧ u.dev.serve = d.serve) ∧
    (∀ h r, d.pwr.aonOn = true → d.pwr.hum = some h → d.pwr.ride = some r → Answers (.humChanged none) s fun u =>
      u.dev.rd Reg.pstate = 4 ∧ u.dev.pwr.aonOn = false) ∧
    (d.pwr.aonOn = true → d.pwr.ride = none → Answers .humAlarm s fun u =>
      u.dev.pwr.humAlarm = true ∧ bitOf (u.dev.rd Reg.aonLatch) 4 = true ∧ u.dev.serve = d.serve) ∧
    (d.pwr.aonOn = false → exec .humAlarm s = s.next d) ∧
    exec .humAlarmReleased s = s.next { d with pwr := { d.pwr with humAlarm := false } }.updateRide ∧
    (∀ mf esr e days, (d.rd Reg.stage < 7 ∨ d.pwr.hum = none ∨ d.pwr.humAlarm = true) → exec (.humHealth mf esr e days) s = s.next d) ∧
    (∀ mf esr e days, 7 ≤ d.rd Reg.stage → d.pwr.hum ≠ none → d.pwr.humAlarm = false → (d.pwr.feeds.any fun x => x.2) = true →
      Answers (.humHealth mf esr e days) s fun u => u.dev.rd Reg.humMf = mf % 2 ^ 16 ∧
        u.dev.pwr.humReplace = (decide (mf < 1200) || decide (8000 < esr)) ∧ (mf < 1200 → d.pwr.humReplace = false → u.dev.rd Reg.errHum = 1) ∧
        u.dev.serve = d.serve) ∧
    ((d.rd Reg.stage < 1 ∨ 4 ≤ d.rd Reg.pstate) → exec .humChallenge s = s.next d) ∧
    (∀ h, 1 ≤ d.rd Reg.stage → d.rd Reg.pstate < 4 → d.pwr.hum = some h →
      (h.genuine = true → exec .humChallenge s = s.next ((((d.wr Reg.humAuthOk 1).wr Reg.humCycles h.cycles).wr Reg.humHours h.hours).raise
        { code := Rc.humChanged, detail := 2, source := 69, unitKind := 9, unit := 0 })) ∧
      (h.genuine = false → Answers .humChallenge s fun u => u.dev.rd Reg.humAuthOk = 0 ∧ u.dev.rd Reg.errHum = 1 ∧ u.dev.rd Reg.errAuth = 1))

/-- Fields and oscillators (17 R390-R394, 18 R405-R408): a trip or an undervoltage of a field that is on puts it off and UNLOCKED-with-off, sets `ERR_TRIP` and loses its field; a lost phase is counted once; a voltage update moves the setpoint by at most 2.5 mV within its range; a suspected bond crack quarantines its tile; a field that unlocks, or loses its injection with a neighbour to couple to, changes its lock state and sets its error bit; a relock makes it INJECTED. -/
def Obligations.FieldsAndOscillators : Prop :=
  ∀ s : State,
    let d := s.dev
    (∀ n cause, d.fieldOn n = false → ¬ (d.rd Reg.pstate = 2 ∧ cause = 1) → exec (.fieldTrip n cause) s = s.next d) ∧
    (∀ n cause, n < 36 → d.fieldOn n = true → 3 ≤ d.rd Reg.stage → d.rd Reg.pstate < 4 → Answers (.fieldTrip n cause) s fun u =>
      u.dev.rd (Reg.fieldState n) = 1 ∧ u.dev.rd (Reg.lockState n) = 3 ∧ u.dev.rd (Reg.errTrip n) = 1 ∧ n ∈ u.dev.wafer.lostFields) ∧
    (∀ n, d.fieldOn n = false → exec (.fieldUndervolt n) s = s.next d) ∧
    (∀ n, n < 36 → d.fieldOn n = true → 3 ≤ d.rd Reg.stage → d.rd Reg.pstate < 4 → Answers (.fieldUndervolt n) s fun u =>
      u.dev.rd (Reg.fieldState n) = 1 ∧ u.dev.rd (Reg.errTrip n) = 1 ∧ n ∈ u.dev.wafer.lostFields) ∧
    (∀ rail k, (isRail rail = false ∨ d.rd Reg.stage < 1 ∨ (rail, k) ∈ d.pwr.phaseLost) → exec (.regPhaseLost rail k) s = s.next d) ∧
    (∀ n k, n < 36 → k < 16 → 1 ≤ d.rd Reg.stage → (n, k) ∉ d.pwr.phaseLost → d.phasesLeft n 16 0 32 = 16 → Answers (.regPhaseLost n k) s fun u =>
      u.dev.pwr.phaseLost = d.pwr.phaseLost ++ [(n, k)] ∧ u.dev.rd (Reg.vlPhases n) = 15 ∧ u.dev.rd (Reg.errPhase n) = 1 ∧
      u.dev.rd (Reg.fieldState n) = d.rd (Reg.fieldState n) ∧ u.dev.serve = d.serve) ∧
    (∀ n v a, (36 ≤ n ∨ d.rd Reg.stage < 3 ∨ d.fieldOn n = false ∨ 2 ≤ d.rd Reg.pstate) → exec (.voltageUpdate n v a) s = s.next d) ∧
    (∀ n v a, n < 36 → 3 ≤ d.rd Reg.stage → d.fieldOn n = true → d.rd Reg.pstate < 2 → d.treeVolts n v ≠ [] →
      let was := AMap.get 0 d.pwr.vlHalf n
      Answers (.voltageUpdate n v a) s fun u =>
        1300 ≤ AMap.get 0 u.dev.pwr.vlHalf n ∧ AMap.get 0 u.dev.pwr.vlHalf n ≤ 1800 ∧
        (1300 ≤ was → was ≤ 1800 → AMap.get 0 u.dev.pwr.vlHalf n ≤ was + 5 ∧ was ≤ AMap.get 0 u.dev.pwr.vlHalf n + 5) ∧
        u.dev.rd (Reg.vlSet n) = (rounded 4 (AMap.get 0 u.dev.pwr.vlHalf n : Nat) 2).toNat ∧ u.dev.rd (Reg.vmin n) = minOf (d.treeVolts n v) % 2 ^ 10 ∧ u.dev.serve = d.serve ∧
        u.dev.wafer = (d.readVolts v).wafer) ∧
    (∀ t e, (d.rd Reg.stage < 7 ∨ 2 ≤ d.rd Reg.pstate ∨ d.sensed t = false) → exec (.suspectedBondCrack t e) s = s.next d) ∧
    (∀ t e, 7 ≤ d.rd Reg.stage → d.rd Reg.pstate < 2 → d.sensed t = true → exec (.suspectedBondCrack t e) s =
      s.next (((d.raise (d.atTile { code := Rc.suspectedBondCrack, detail := e, cls := 1, unitKind := 1, unit := d.ptileOf t, outcome := 2 } t)).setW1c
        (Reg.errCrack (fieldOf t)) (2 + fieldOf t)).quarantine t Rc.suspectedBondCrack)) ∧
    (∀ n, (36 ≤ n ∨ d.locked n = false) → exec (.oscUnlock n) s = s.next d) ∧
    (∀ n, n < 36 → d.locked n = true → Answers (.oscUnlock n) s fun u => u.dev.rd (Reg.lockState n) = 0 ∧ u.dev.rd (Reg.oscErrUnlock n) = 1 ∧
      u.dev.rd (Reg.fieldState n) = d.rd (Reg.fieldState n)) ∧
    (∀ n, (36 ≤ n ∨ d.rd (Reg.lockState n) ≠ 1) → exec (.oscInjectLost n) s = s.next d) ∧
    (∀ n, n < 36 → d.rd (Reg.lockState n) = 1 → ((fieldNeighbours n).any fun m => d.rd (Reg.lockState m) == 1) = true →
      exec (.oscInjectLost n) s = s.next (((d.wr (Reg.lockState n) 2).raise (fieldOcc n Rc.oscInjectLost n 0)).setW1c (Reg.oscErrUnlock n) (2 + n) true)) ∧
    (∀ n ok, (36 ≤ n ∨ ok = false ∨ d.rd Reg.stage < 7 ∨ d.rd (Reg.lockState n) ≠ 0 ∨ d.fieldOn n = false) → exec (.oscRelock n ok) s = s.next d) ∧
    (∀ n, n < 36 → 7 ≤ d.rd Reg.stage → d.rd (Reg.lockState n) = 0 → d.fieldOn n = true → d.noBeats = false → exec (.oscRelock n true) s =
      s.next { (d.wr (Reg.lockState n) 1).raise (fieldOcc n Rc.oscRelock n 0) with
        wafer := { d.wafer with relink := d.wafer.relink ++ [n] } })

/-- Thermal control (18 R410-R415): a field's hottest sensor is shown and, at 95 °C, sets its duty to 8; a sensor that is excluded quarantines its tile; the duty update shows power and time constant; the resistance update acts in P0 and P1; a tile at 100 °C trips its field. -/
def Obligations.ThermalCommands : Prop :=
  ∀ s : State,
    let d := s.dev
    (∀ x, (d.rd Reg.stage < 3 ∨ 4 ≤ d.rd Reg.pstate) → exec (.tempSample x) s = s.next d) ∧
    (∀ x, 3 ≤ d.rd Reg.stage → d.rd Reg.pstate < 4 → x.tiles = [] → exec (.tempSample x) s =
      s.next (d.readCoolant x.inlet x.outlet x.flow x.dp)) ∧
    (∀ x ts, 3 ≤ d.rd Reg.stage → d.rd Reg.pstate < 4 → x.field < 36 →
      ts = ((x.tiles.filter fun r => fieldOf r.tile == x.field && d.sensed r.tile).map fun r => r.t) → ts ≠ [] → Answers (.tempSample x) s fun u =>
        u.dev.rd (Reg.hotT x.field) = min (maxOf ts) 1023 ∧ (950 ≤ maxOf ts → u.dev.rd (Reg.duty x.field) = 8) ∧
        (maxOf ts < 950 → u.dev.rd (Reg.duty x.field) = d.rd (Reg.duty x.field)) ∧ u.dev.serve = d.serve ∧ u.dev.wafer = (d.readTemps x.tiles).wafer) ∧
    (∀ t, (d.rd Reg.stage < 7 ∨ d.sensed t = false) → exec (.sensorFault t) s = s.next d) ∧
    (∀ t, 7 ≤ d.rd Reg.stage → d.sensed t = true →
      let e := { d with wafer := { d.wafer with sensorOut := d.wafer.sensorOut ++ [d.ptileOf t] } }
      exec (.sensorFault t) s = s.next ((e.raise (e.atTile { code := Rc.sensorFault, detail := 0, source := 73, unitKind := 1, unit := e.ptileOf t } t)).quarantine
        t Rc.sensorFault)) ∧
    (∀ x, (36 ≤ x.field ∨ d.rd Reg.stage < 7 ∨ 2 ≤ d.rd Reg.pstate ∨ d.fieldOn x.field = false) → exec (.throttleUpdate x) s = s.next d) ∧
    (∀ x, x.field < 36 → 7 ≤ d.rd Reg.stage → d.rd Reg.pstate < 2 → d.fieldOn x.field = true → Answers (.throttleUpdate x) s fun u =>
      u.dev.rd (Reg.fieldW x.field) = x.watts % 2 ^ 16 ∧ u.dev.rd (Reg.tau x.field) = x.tau % 2 ^ 10 ∧ u.dev.rd Reg.inputW = x.module10ms % 2 ^ 24 ∧
      (950 ≤ d.rd (Reg.hotT x.field) → u.dev.rd (Reg.duty x.field) = 8) ∧ u.dev.serve = d.serve ∧ u.dev.wafer = d.wafer) ∧
    (∀ n, (36 ≤ n ∨ d.rd Reg.stage < 7 ∨ 2 ≤ d.rd Reg.pstate ∨ d.fieldOn n = false) → exec (.rthUpdate n) s = s.next d) ∧
    (∀ n, n < 36 → 7 ≤ d.rd Reg.stage → d.rd Reg.pstate < 2 → d.fieldOn n = true → d.rd (Reg.fieldW n) < 100 →
      let e := { d with pwr := { d.pwr with lastForecast := AMap.insert n (d.rd (Reg.forecastT n)) d.pwr.lastForecast } }
      exec (.rthUpdate n) s = s.next (e.wr (Reg.capW n) (e.capFor n (e.capOf n)))) ∧
    (∀ t, d.sensed t = false → exec (.fieldOvertemp t) s = s.next d) ∧
    (∀ t, d.sensed t = true → 3 ≤ d.rd Reg.stage → d.rd Reg.pstate < 4 → Answers (.fieldOvertemp t) s fun u =>
      u.dev.rd (Reg.fieldState (fieldOf t)) = 1 ∧ u.dev.rd (Reg.errTrip (fieldOf t)) = 1 ∧ fieldOf t ∈ u.dev.wafer.lostFields)

/-- Pins (11 R294-R296, 13 R331, 15 R359, 23 R483-R485): a pulse on STEP_SYNC_IN is latched, and one that a device which does not follow receives does nothing else; a follower that sees none for four intervals sets `LOST`; a pulse on PPS_IN of 5 ns is latched and one of 100 ns to 900 ms marks the second where `TIME_SRC` is 1 (to the nearest second: the model's reading, log entry 53); ALERT_N held low for 1 µs while the part releases it is management attention; a PTP message gives the offset and, where `TIME_SRC` is 0, the time. -/
def Obligations.PinCommands : Prop :=
  ∀ s : State,
    let d := s.dev
    (∀ cycle, d.serve.syncMode ≠ 2 → exec (.stepSyncPulse cycle) s = s.next (d.latchEdge 0 false)) ∧
    (∀ cycle, d.serve.syncMode = 2 → d.imgActive = true → d.serve.between = false → d.rd Reg.pstate = 0 → d.serve.syncLast = none →
      Answers (.stepSyncPulse cycle) s fun u => u.dev.serve.syncLast = some cycle ∧
        u.dev.serve.beatDelay = d.serve.beatDelay +
          min (((cycle : Int) + (d.rd Reg.syncOffset : Nat) - (d.nextBoundary : Nat)) % (d.period : Int)).toNat (rounded 7 d.period 4).toNat) ∧
    (d.serve.syncMode ≠ 2 → exec .stepSyncLost s = s.next d) ∧
    (d.serve.syncMode = 2 → exec .stepSyncLost s = s.next ((d.raise { code := Rc.stepSyncLost, detail := 0, source := 71 }).setW1c Reg.syncLost 71 true)) ∧
    (∀ ns, ns < 5 → exec (.ppsIn ns) s = s.next d) ∧
    (∀ ns, 5 ≤ ns → (ns < 100 ∨ 900000000 < ns ∨ d.rd Reg.timeSrc ≠ 1) → exec (.ppsIn ns) s = s.next (d.latchEdge 1 false)) ∧
    (∀ ns, 100 ≤ ns → ns ≤ 900000000 → d.rd Reg.timeSrc = 1 → d.pwr.aonOn = true → 7 ≤ d.rd Reg.stage → Answers (.ppsIn ns) s fun u =>
      u.dev.rd Reg.deviceTime = (d.rd Reg.deviceTime + 500000000) / 1000000000 * 1000000000 % 2 ^ 64 ∧ bitOf (u.dev.rd Reg.aonLatch) 1 = true) ∧
    (∀ ns, (ns < 1000 ∨ d.alertDrives = true) → exec (.alertNAttention ns) s = s.next d) ∧
    (∀ ns, 1000 ≤ ns → d.alertDrives = false → d.pwr.aonOn = true → Answers (.alertNAttention ns) s fun u =>
      bitOf (u.dev.rd Reg.aonLatch) 5 = true ∧ u.dev.serve = d.serve) ∧
    (∀ x : PtpSample, (16 ≤ x.port ∨ d.portLive x.port = false) → exec (.ptpMessage x) s = s.next d) ∧
    (∀ x : PtpSample, x.port < 16 → d.portLive x.port = true → Answers (.ptpMessage x) s fun u =>
      u.dev.rd Reg.ptpOffset = (BitVec.ofInt 32 x.offset).toNat ∧
      (d.rd Reg.timeSrc = 0 → u.dev.rd Reg.deviceTime = x.time % 2 ^ 64) ∧ (d.rd Reg.timeSrc ≠ 0 → u.dev.rd Reg.deviceTime = d.rd Reg.deviceTime) ∧
      (100 < x.offset.natAbs → u.dev.rd Reg.ptpLocked = 0 ∨ u.dev.rd Reg.ptpLocked = d.rd Reg.ptpLocked) ∧
      (100 < x.offset.natAbs → d.rd Reg.ptpLocked = 1 → u.dev.rd Reg.ptpLocked = 0 ∧ u.dev.rd Reg.ptpErrUnlock = 1))

/-- Ports (15 R350, R351, R373, 20 R445): a port that goes down is marked lost, with its link down and `ERR_DOWN` set, or, by its uncorrected codewords, with its link as it was; one that comes up has its link up and is no longer lost; a cable module that is inserted fits and names the PHY, or leaves the port down with `ERR_DOWN`, and more than 15 W is not powered. -/
def Obligations.PortCommands : Prop :=
  ∀ (s : State) (port : Nat),
    let d := s.dev
    let p := port % 16
    (∀ fec, (d.rd Reg.stage < 6 ∨ d.bit (Reg.linkUp p) = false) → exec (.portDown port fec) s = s.next d) ∧
    (6 ≤ d.rd Reg.stage → d.bit (Reg.linkUp p) = true → Answers (.portDown port false) s fun u =>
      u.dev.rd (Reg.linkUp p) = 0 ∧ u.dev.rd (Reg.errDown p) = 1 ∧ u.dev.rd (Reg.portLost p) = 1 ∧ u.dev.serve = d.serve ∧ u.dev.wafer = d.wafer) ∧
    (6 ≤ d.rd Reg.stage → d.bit (Reg.linkUp p) = true → Answers (.portDown port true) s fun u =>
      u.dev.rd (Reg.portLost p) = 1 ∧ u.dev.rd (Reg.linkUp p) = d.rd (Reg.linkUp p) ∧ u.dev.serve = d.serve) ∧
    ((d.rd Reg.stage < 6 ∨ 4 ≤ d.rd Reg.pstate ∨ d.cageFits p = false ∨ d.portLive p = true) → exec (.portUp port) s = s.next d) ∧
    (6 ≤ d.rd Reg.stage → d.rd Reg.pstate < 4 → d.cageFits p = true → d.portLive p = false → Answers (.portUp port) s fun u =>
      u.dev.rd (Reg.linkUp p) = 1 ∧ u.dev.rd (Reg.portLost p) = 0 ∧ u.dev.wafer = d.wafer) ∧
    (∀ kind watts, (d.rd Reg.stage < 6 ∨ 4 ≤ d.rd Reg.pstate) → exec (.cableModuleDetected port kind watts) s =
      s.next { d with fab := { d.fab with modules := AMap.insert p (kind, watts) d.fab.modules } }) ∧
    (∀ kind watts, 6 ≤ d.rd Reg.stage → d.rd Reg.pstate < 4 → d.bit (Reg.linkUp p) = false →
      let e := { d with fab := { d.fab with modules := AMap.insert p (kind, watts) d.fab.modules } }.emit (.portPower p (kind != 3 && watts ≤ 15))
      exec (.cableModuleDetected port kind watts) s = s.next (if moduleFits (kind, watts) = true then e.wr (Reg.portPhy p) kind
        else if kind = 3 then e else e.setW1c (Reg.errDown p) (50 + p)))

/-- Narlas reception (15 R355-R361): before stage B6, in P4 and on a port that is down nothing arrives; a packet that fails its checks is counted in `AUTH_DROP` and has no other effect; data that has been received already changes only what tracks its association; an ACK takes what it acknowledges off the list of what was sent; a NACK names what is sent again; a PROBE is answered on its path; a CONTROL message has its effect (15 R361-R372). -/
def Obligations.NarlasReception : Prop :=
  ∀ (s : State) (p : NPkt),
    let d := s.dev
    let keys := s.sec.signers
    let src := srcOf p
    let live := 6 ≤ d.rd Reg.stage ∧ d.rd Reg.pstate < 4 ∧ d.bit (Reg.linkUp (p.port % 16)) = true
    (¬ live → exec (.narlasData p) s = s.next d ∧ exec (.ack p) s = s.next d ∧ exec (.nack p) s = s.next d ∧ exec (.probe p) s = s.next d ∧
      ∀ m, exec (.control p m) s = s.next d) ∧
    (live → d.rxBad 0 false p = true → exec (.narlasData p) s = s.next (d.bump Reg.authDrop)) ∧
    (live → d.rxBad 1 false p = true → exec (.ack p) s = s.next (d.bump Reg.authDrop)) ∧
    (live → d.rxBad 2 false p = true → exec (.nack p) s = s.next (d.bump Reg.authDrop)) ∧
    (live → d.rxBad 3 false p = true → exec (.probe p) s = s.next (d.bump Reg.authDrop)) ∧
    (∀ m, live → d.rxBad 4 (strangers m) p = true → exec (.control p m) s = s.next (d.bump Reg.authDrop)) ∧
    (live → d.rxBad 0 false p = false → exec (.narlasData p) s = s.next (d.takeData keys p)) ∧
    (live → d.rxBad 0 false p = false → bitsOf p.hdr.toNat 208 32 ≥ d.rd Reg.fabEpoch → (d.assoc src).seen (bitsOf p.hdr.toNat 64 32) = true →
      Answers (.narlasData p) s fun u => (u.dev.assoc src).rxNext = (d.assoc src).rxNext ∧ (u.dev.assoc src).rxSeen = (d.assoc src).rxSeen ∧
        (u.dev.assoc src).sent = (d.assoc src).sent ∧ (∀ q, q ≠ src → u.dev.assoc q = d.assoc q) ∧ u.dev.serve = d.serve ∧
        ∀ f, Plain f → u.dev.rd f = d.rd f) ∧
    (live → d.rxBad 1 false p = false → exec (.ack p) s = s.next (d.takeAck p)) ∧
    (live → d.rxBad 2 false p = false → exec (.nack p) s = s.next ((List.range (p.payload.length / 4)).foldl
      (fun (d : Dev) i => d.retransmit src (numAt p.payload (4 * i) 4)) d)) ∧
    (live → d.rxBad 3 false p = false → exec (.probe p) s = s.next (d.emit (.probeReply src (bitsOf p.hdr.toNat 173 6)))) ∧
    (∀ m, live → d.rxBad 4 (strangers m) p = false → exec (.control p m) s = s.next (d.control src m).applyIfIdle)

/-- Narlas timers (15 R356, R357, R361, R369): an ACK leaves 2 µs after a packet on the first path that is up; a path's retransmit timer sends again what the path carries and, the third time in a row, takes the path down; a probe's third reply in a row brings its path up; a peer without contact is no longer reachable; only the acting coordinator declares a peer lost, and the coordinator's loss is reported. -/
def Obligations.NarlasTimers : Prop :=
  ∀ (s : State) (peer path : Nat),
    let d := s.dev
    let a := d.assoc peer
    let k := path % 64
    let x := a.path k
    (a.unacked = 0 → exec (.ackTimer peer) s = s.next d) ∧
    (∀ j, a.unacked ≠ 0 → (List.range 64).find? (fun k => d.pathUp a k) = some j → exec (.ackTimer peer) s = s.next (d.sendAck peer j)) ∧
    ((x.up = false ∨ (a.sent.any fun y => y.path == k) = false) → exec (.pathRetransmit peer path) s = s.next d) ∧
    (x.up = true → (a.sent.any fun y => y.path == k) = true → x.expiries < 2 → exec (.pathRetransmit peer path) s =
      s.next ((d.setAssoc peer (a.setPath k { x with expiries := x.expiries + 1 })).retransmitPath peer k)) ∧
    (x.up = true → (a.sent.any fun y => y.path == k) = true → 2 ≤ x.expiries → exec (.pathRetransmit peer path) s = s.next (d.pathDown peer k)) ∧
    ((x.up = true ∨ x.probed = false ∨ d.portLive (planeOf k) = false) → exec (.probeReply peer path) s = s.next d) ∧
    (x.up = false → x.probed = true → d.portLive (planeOf k) = true → x.replies < 2 → exec (.probeReply peer path) s =
      s.next (d.setAssoc peer (a.setPath k { x with replies := x.replies + 1, probed := false }))) ∧
    (x.up = false → x.probed = true → d.portLive (planeOf k) = true → 2 ≤ x.replies → exec (.probeReply peer path) s =
      s.next (((d.setAssoc peer (a.setPath k { x with up := true, replies := 0, probed := false, expiries := 0 })).pump peer).showPaths peer)) ∧
    exec (.peerUnreachable peer) s = s.next (d.peerLostContact peer).applyIfIdle ∧
    ((d.rd Reg.memberState ≠ 2 ∨ d.acting ≠ some d.me ∨ d.peerGone peer = false) → exec (.peerLost peer) s = s.next d.applyIfIdle) ∧
    (d.rd Reg.memberState = 2 → d.acting = some d.me → d.peerGone peer = true → (entryOf d.latestTable peer).state ≠ 0 →
      (entryOf d.latestTable peer).state ≠ 4 → d.majority = true → exec (.peerLost peer) s =
      s.next ((d.raise { code := Rc.peerLost, detail := peer, source := 1 }).proposeEntry { entryOf d.latestTable peer with state := 4 }).applyIfIdle) ∧
    ((d.coord = none ∨ d.coord = some d.me) → exec .coordinatorUnreachable s = s.next d.applyIfIdle) ∧
    (∀ c o, d.coord = some c → c ≠ d.me → d.peerGone c = true → d.rd Reg.memberState = 2 → d.acting = some o → o ≠ d.me →
      exec .coordinatorUnreachable s = s.next (d.emit (.ctl o (.unreachable c d.me))).applyIfIdle)

/-- Association and session keys (21 R461-R463): a step of an exchange that this device has no part in changes nothing; a step that fails authentication ends the peer's reachability with ASSOC_AUTH_FAILED; step 1 is answered by step 2 and keys the association, or, inside it, the tenant's session; REKEY opens a fresh exchange of a keyed association only, and the previous key is tried no more once its time is over. -/
def Obligations.AssociationKeys : Prop :=
  ∀ (s : State) (m : AssocMsg) (peer : Nat),
    let d := s.dev
    ((d.rd Reg.stage < 6 ∨ m.peer = d.me ∨ m.step = 0 ∨ 3 ≤ m.step) → exec (.assocKeyExchange m) s = s.next d) ∧
    (6 ≤ d.rd Reg.stage → m.peer ≠ d.me → m.tenant = none →
      (m.ok = false → (m.step = 1 ∧ m.peer < d.me ∨ m.step = 2 ∧ d.me < m.peer) → exec (.assocKeyExchange m) s = s.next (d.assocFails m.peer)) ∧
      (m.ok = true → m.step = 1 → m.peer < d.me → exec (.assocKeyExchange m) s = s.next ((d.sendExchange m.peer 2 none).assocKeyed m.peer)) ∧
      (m.ok = true → m.step = 2 → d.me < m.peer → exec (.assocKeyExchange m) s = s.next (d.assocKeyed m.peer)) ∧
      ((m.step = 1 ∧ d.me < m.peer ∨ m.step = 2 ∧ m.peer < d.me) → exec (.assocKeyExchange m) s = s.next d)) ∧
    (∀ t, 6 ≤ d.rd Reg.stage → m.peer ≠ d.me → m.tenant = some t →
      ((d.assoc m.peer).keyed = false → exec (.assocKeyExchange m) s = s.next d) ∧
      ((d.assoc m.peer).keyed = true → m.ok = true → m.step = 2 → exec (.assocKeyExchange m) s = s.next (d.tenantKeyed m.peer t)) ∧
      ((d.assoc m.peer).keyed = true → m.ok = true → m.step = 1 →
        exec (.assocKeyExchange m) s = s.next ((d.sendExchange m.peer 2 (some t)).tenantKeyed m.peer t))) ∧
    ((d.assoc peer).keyed = false → exec (.rekey peer) s = s.next d) ∧
    ((d.assoc peer).keyed = true → exec (.rekey peer) s = s.next (if peer ≤ d.rd Reg.fabDevice then d else d.sendExchange peer 1 none)) ∧
    ((d.assoc peer).prevKey = false → exec (.previousKeyExpiry peer) s = s.next d) ∧
    ((d.assoc peer).prevKey = true → exec (.previousKeyExpiry peer) s = s.next (d.setAssoc peer { d.assoc peer with prevKey := false }))

/-- Serving over the fabric (15 R364, R366, R368): a handoff waits for the next boundary at a segment other than the first, which discards it; a journal record is kept and acknowledged in order, one out of order changes nothing; an acknowledgement of the oldest record writes the deliveries of its commit, any other changes nothing; a stream that a target has taken over ends here with STREAM_MIGRATED. -/
def Obligations.ServingOverFabric : Prop :=
  ∀ s : State,
    let d := s.dev
    (∀ h, (d.rd Reg.segment = 0 → exec (.waveHandoff h) s = s.next d) ∧
      (d.rd Reg.segment ≠ 0 → exec (.waveHandoff h) s = s.next { d with fab := { d.fab with handoffs := d.fab.handoffs ++ [h] } })) ∧
    (∀ j o, AMap.find d.fab.kept (j.src * 32768 + j.stream) = some o → j.num ≠ o.1.num + 1 → exec (.journalRecord j) s = s.next d) ∧
    (∀ j, (∀ o, AMap.find d.fab.kept (j.src * 32768 + j.stream) = some o → j.num = o.1.num + 1) → Answers (.journalRecord j) s fun u =>
      (∃ hist redo, AMap.find u.dev.fab.kept (j.src * 32768 + j.stream) = some (j, hist ++ j.toks, redo)) ∧
      (∀ key, key ≠ j.src * 32768 + j.stream → AMap.find u.dev.fab.kept key = AMap.find d.fab.kept key) ∧ u.dev.serve = d.serve) ∧
    (∀ src i num, d.stream? i = none → exec (.journalAcknowledge src i num) s = s.next d) ∧
    (∀ src i num x, d.stream? i = some x → (x.journalQ = [] ∨ x.partner ≠ some src ∨ x.journalNum ≠ num ∨ x.journalSent = false) →
      exec (.journalAcknowledge src i num) s = s.next d) ∧
    (∀ src i num x r gs, d.stream? i = some x → x.journalQ = [(r, gs)] → x.partner = some src → x.journalNum = num → x.journalSent = true →
      exec (.journalAcknowledge src i num) s =
        s.next (gs.foldl (fun (d : Dev) g => d.postGroup x.queue g) (d.setStream i { x with journalQ := [], journalSent := false }))) ∧
    (∀ i target index, d.stream? i = none → exec (.streamMigrated i target index) s = s.next d) ∧
    (∀ i target index x, d.stream? i = some x → (x.migrating ≠ some target ∨ x.migSent = false) →
      exec (.streamMigrated i target index) s = s.next d) ∧
    (∀ i target index x, d.stream? i = some x → x.migrating = some target → x.migSent = true → index < Config.streamCount - 1 →
      exec (.streamMigrated i target index) s = s.next ((d.endStream i 6 (target + 1024 * index)).raise
        { code := Rc.streamMigrated, detail := target, source := 1, stream := some i }))

/-- The identity never changes once the part has one (21 R451): every step keeps the device key, the certificate and the stepping. The rollback floor never falls in a step of any state but stage B2, which takes floor and keys from the chain as it verifies (21 R454-R456, 19 R421); the key slots stay in order, and in order, once a key is enrolled, never become empty again (21 R456, R457). -/
def Obligations.IdentityAndFloorHold : Prop :=
  (∀ s t : State, s.sec.deviceKey ≠ [] → step s = .next t →
     t.sec.deviceKey = s.sec.deviceKey ∧ t.sec.deviceCert = s.sec.deviceCert ∧ t.sec.stepping = s.sec.stepping) ∧
  (∀ s t : State, step s = .next t →
     ((s.sec.keys.map fun (k : Nat × List Byte) => k.1).Pairwise (· < ·) → (t.sec.keys.map fun (k : Nat × List Byte) => k.1).Pairwise (· < ·)) ∧
     (((∀ i, s.pending.head? ≠ some (.stageReached i)) ∨ s.dev.rd Reg.stage ≠ 2) → s.sec.minSvn ≤ t.sec.minSvn ∧
       ((s.sec.keys.map fun (k : Nat × List Byte) => k.1).Pairwise (· < ·) → s.sec.keys ≠ [] → t.sec.keys ≠ [])) ∧
     (∀ i, s.pending.head? = some (.stageReached i) → s.dev.rd Reg.stage = 2 →
       (t.sec.keys = s.sec.keys ∧ t.sec.minSvn = s.sec.minSvn) ∨ t.sec = s.sec.takeKeys t.dev.pwr.chain))

/-- Table lookups (02 R46-R49, 03 R62, R63): a weight byte of 121 to 242 stands for entry b - 121 of the table of five slice values, one of 0 to 120 for entry 121 - b negated, 121 for zero, and a byte above 242 reads as code 121 (02 R47). -/
def Obligations.TableLookups : Prop :=
  ∀ (b : Nat) (a : List Int), a.length = 5 →
    let entry := fun (u : Int) => dot (balanced 5 u) a
    (121 ≤ b → b ≤ 242 → dot (trits b) a = entry ((b : Int) - 121)) ∧
    (b ≤ 120 → dot (trits b) a = - entry (121 - (b : Int))) ∧
    dot (trits 121) a = 0 ∧ entry 0 = 0 ∧ (243 ≤ b → trits b = trits 121)

/-- The scale of an S4 block (02 R56): the smallest of −128 to 127 for which every finite value, rounded to nearest with ties to even, lies in −8 to 7; 127 where none is large enough; 0 for a block of zeros. A NaN or an infinity does not count (the model's reading, log entry 62). -/
def Obligations.BlockScaleIsSmallest : Prop :=
  ∀ xs : List FV,
    let fits := fun (e : Int) => ∀ neg m k, FV.fin neg m k ∈ xs →
      -8 ≤ rneShift (signedOf neg m) (k - e) ∧ rneShift (signedOf neg m) (k - e) ≤ 7
    let zero := ∀ neg m k, FV.fin neg m k ∈ xs → m = 0
    let some := ∃ e : Int, -128 ≤ e ∧ e ≤ 127 ∧ fits e
    (zero → blockScale xs = 0) ∧
    (¬ zero → some → -128 ≤ blockScale xs ∧ blockScale xs ≤ 127 ∧ fits (blockScale xs) ∧
      ∀ e, -128 ≤ e → e < blockScale xs → ¬ fits e) ∧
    (¬ zero → ¬ some → blockScale xs = 127)
end

