-- ==== Sys2Proof/Laws/Chain.lean ====
section
/-! SUPPORT. What is said of the chain of configuration records: a record made for its place verifies there, and a chain of such records verifies whole (19 R421). -/
namespace Sys2Proof.Machine

/-- A record made for its place verifies there. -/
@[simp] theorem goodRecord_makeRecord (key : List Byte) (before : List ConfRec) (type : Nat) (body : List Byte) :
    goodRecord key before (makeRecord key before type body) = true :=
  beq_self_eq_true (makeRecord key before type body)

/-- Undamaged, a factory repair map verifies. -/
theorem verifiedFrom_made (key : List Byte) (damaged : Nat → Bool) (good : List ConfRec) (type : Nat) (body : List Byte) (rest : List ConfRec)
    (h : damaged good.length = false) :
    verifiedFrom key damaged good (makeRecord key good type body :: rest) =
      verifiedFrom key damaged (good ++ [makeRecord key good type body]) rest := by
  simp [verifiedFrom, h]

/-- What an append leaves: the chain that was, then one record made for its place. -/
theorem appendRecord_chain (d : Dev) (type : Nat) (body : List Byte) (h : d.pwr.packages ≠ []) :
    (d.appendRecord type body).pwr.chain = d.pwr.chain ++ [makeRecord d.meas.part.deviceKey d.pwr.chain type body] := by
  simp [Dev.appendRecord, h]

/-- Without a journal flash package no bypass table changes (01 R22). -/
theorem changeTable_none (d : Dev) (seg : Nat) (b : BitVec 128) (h : d.pwr.packages = []) : d.changeTable seg b = d := by
  simp [Dev.changeTable, h]

end Sys2Proof.Machine
end

