-- ==== Sys2Proof/Laws/Map.lean ====
section
/-! SUPPORT. Sparse maps and memories: a read after a write, and that every operation keeps the canonical form. -/
namespace Sys2Proof.Laws
open Sys2Proof.Machine

variable {α : Type}

@[simp] theorem get_nil (d : α) (k : Nat) : AMap.get d [] k = d := rfl

@[simp] theorem find_nil (k : Nat) : AMap.find ([] : List (Nat × α)) k = none := rfl

theorem get_insert (d : α) (m : List (Nat × α)) (k j : Nat) (v : α) :
    AMap.get d (AMap.insert k v m) j = if j = k then v else AMap.get d m j := by
  induction m with
  | nil => by_cases h : k = j <;> simp [AMap.insert, AMap.get, h, eq_comm]
  | cons p m ih =>
    unfold AMap.insert
    split
    · by_cases h : k = j <;> simp [AMap.get, h, eq_comm]
    · split
      · rename_i h
        by_cases hj : k = j
        · simp [AMap.get, hj]
        · have : ¬ p.1 = j := by omega
          simp [AMap.get, hj, this, eq_comm]
      · rename_i h
        by_cases hp : p.1 = j
        · have : ¬ j = k := by omega
          simp [AMap.get, hp, this]
        · simp [AMap.get, hp, ih]

theorem find_insert (m : List (Nat × α)) (k j : Nat) (v : α) :
    AMap.find (AMap.insert k v m) j = if j = k then some v else AMap.find m j := by
  induction m with
  | nil => by_cases h : k = j <;> simp [AMap.insert, AMap.find, h, eq_comm]
  | cons p m ih =>
    unfold AMap.insert
    split
    · by_cases h : k = j <;> simp [AMap.find, h, eq_comm]
    · split
      · rename_i h
        by_cases hj : k = j
        · simp [AMap.find, hj]
        · have : ¬ p.1 = j := by omega
          simp [AMap.find, hj, this, eq_comm]
      · rename_i h
        by_cases hp : p.1 = j
        · have : ¬ j = k := by omega
          simp [AMap.find, hp, this]
        · simp [AMap.find, hp, ih]

theorem get_erase (d : α) (m : List (Nat × α)) (k j : Nat) :
    AMap.get d (AMap.erase k m) j = if j = k then d else AMap.get d m j := by
  induction m with
  | nil => simp [AMap.erase]
  | cons p m ih =>
    by_cases hp : p.1 = k
    · by_cases hj : j = k
      · simpa [AMap.erase, hp, hj] using ih
      · have : ¬ k = j := fun h => hj h.symm
        simp [AMap.erase, AMap.get, hp, hj, ih, this]
    · by_cases hj : p.1 = j
      · have : ¬ j = k := by omega
        simp [AMap.erase, AMap.get, hp, hj, this]
      · simp [AMap.erase, AMap.get, hp, hj, ih]

theorem find_erase (m : List (Nat × α)) (k j : Nat) :
    AMap.find (AMap.erase k m) j = if j = k then none else AMap.find m j := by
  induction m with
  | nil => simp [AMap.erase]
  | cons p m ih =>
    by_cases hp : p.1 = k
    · by_cases hj : j = k
      · simpa [AMap.erase, hp, hj] using ih
      · have : ¬ k = j := fun h => hj h.symm
        simp [AMap.erase, AMap.find, hp, hj, ih, this]
    · by_cases hj : p.1 = j
      · have : ¬ j = k := by omega
        simp [AMap.erase, AMap.find, hp, hj, this]
      · simp [AMap.erase, AMap.find, hp, hj, ih]

/-- A read after a write: the value written there, what was there before elsewhere. -/
theorem get_set [DecidableEq α] (d : α) (m : List (Nat × α)) (k j : Nat) (v : α) :
    AMap.get d (AMap.set d m k v) j = if j = k then v else AMap.get d m j := by
  unfold AMap.set
  split
  · rename_i h; rw [get_erase]; split <;> simp [h]
  · exact get_insert d m k j v

theorem get_modify [DecidableEq α] (d : α) (m : List (Nat × α)) (k j : Nat) (f : α → α) :
    AMap.get d (AMap.modify d m k f) j = if j = k then f (AMap.get d m k) else AMap.get d m j :=
  get_set d m k j _

theorem above_mono {m : List (Nat × α)} {i k : Nat} (h : i ≤ k) (ha : AMap.above k m = true) : AMap.above i m = true := by
  simp only [AMap.above, List.all_eq_true, decide_eq_true_eq] at *
  intro p hp; exact Nat.lt_of_le_of_lt h (ha p hp)

theorem above_insert {m : List (Nat × α)} {i k : Nat} {v : α} (h : i < k) (ha : AMap.above i m = true) :
    AMap.above i (AMap.insert k v m) = true := by
  induction m with
  | nil => simp [AMap.insert, AMap.above, h]
  | cons p m ih =>
    simp only [AMap.above, List.all_cons, Bool.and_eq_true, decide_eq_true_eq] at ha
    unfold AMap.insert
    split
    · simp [AMap.above, h, ha.1]; simpa [AMap.above] using ha.2
    · split
      · simp [AMap.above, h]; simpa [AMap.above] using ha.2
      · have := ih ha.2
        simp only [AMap.above, List.all_cons, Bool.and_eq_true, decide_eq_true_eq] at *
        exact ⟨ha.1, this⟩

theorem above_erase {m : List (Nat × α)} {i k : Nat} (ha : AMap.above i m = true) :
    AMap.above i (AMap.erase k m) = true := by
  induction m with
  | nil => simp [AMap.erase, AMap.above]
  | cons p m ih =>
    simp only [AMap.above, List.all_cons, Bool.and_eq_true, decide_eq_true_eq] at ha
    unfold AMap.erase
    split
    · exact ih ha.2
    · have := ih ha.2
      simp only [AMap.above, List.all_cons, Bool.and_eq_true, decide_eq_true_eq] at *
      exact ⟨ha.1, this⟩

theorem wf_insert [DecidableEq α] (d : α) (m : List (Nat × α)) (k : Nat) (v : α) (hv : v ≠ d)
    (h : AMap.wf d m = true) : AMap.wf d (AMap.insert k v m) = true := by
  induction m with
  | nil => simp [AMap.insert, AMap.wf, AMap.above, hv]
  | cons p m ih =>
    simp only [AMap.wf, Bool.and_eq_true, decide_eq_true_eq] at h
    unfold AMap.insert
    split
    · rename_i hk
      simp only [AMap.wf, Bool.and_eq_true, decide_eq_true_eq]
      refine ⟨⟨?_, hv⟩, h⟩
      simp only [AMap.above, List.all_cons, Bool.and_eq_true, decide_eq_true_eq]
      exact ⟨hk, by simpa [AMap.above] using above_mono (Nat.le_of_lt hk) h.1.1⟩
    · split
      · rename_i _ hk
        simp only [AMap.wf, Bool.and_eq_true, decide_eq_true_eq]
        exact ⟨⟨hk ▸ h.1.1, hv⟩, h.2⟩
      · rename_i h1 h2
        simp only [AMap.wf, Bool.and_eq_true, decide_eq_true_eq]
        exact ⟨⟨above_insert (by omega) h.1.1, h.1.2⟩, ih h.2⟩

theorem wf_erase [DecidableEq α] (d : α) (m : List (Nat × α)) (k : Nat) (h : AMap.wf d m = true) :
    AMap.wf d (AMap.erase k m) = true := by
  induction m with
  | nil => rfl
  | cons p m ih =>
    simp only [AMap.wf, Bool.and_eq_true, decide_eq_true_eq] at h
    unfold AMap.erase
    split
    · exact ih h.2
    · simp only [AMap.wf, Bool.and_eq_true, decide_eq_true_eq]
      exact ⟨⟨above_erase h.1.1, h.1.2⟩, ih h.2⟩

/-- Writing a value keeps the canonical form. -/
theorem wf_set [DecidableEq α] (d : α) (m : List (Nat × α)) (k : Nat) (v : α) (h : AMap.wf d m = true) :
    AMap.wf d (AMap.set d m k v) = true := by
  unfold AMap.set
  split
  · exact wf_erase d m k h
  · rename_i hv; exact wf_insert d m k v hv h

theorem wf_modify [DecidableEq α] (d : α) (m : List (Nat × α)) (k : Nat) (f : α → α) (h : AMap.wf d m = true) :
    AMap.wf d (AMap.modify d m k f) = true := wf_set d m k _ h

/-- Two maps in canonical form that read the same everywhere are the same list. -/
theorem wf_ext [DecidableEq α] (d : α) (m n : List (Nat × α)) (hm : AMap.wf d m = true) (hn : AMap.wf d n = true)
    (h : ∀ k, AMap.get d m k = AMap.get d n k) : m = n := by
  have getAbove : ∀ (l : List (Nat × α)) (i k : Nat), AMap.above i l = true → k ≤ i → AMap.get d l k = d := by
    intro l
    induction l with
    | nil => intros; rfl
    | cons p l ih =>
      intro i k ha hk
      simp only [AMap.above, List.all_cons, Bool.and_eq_true, decide_eq_true_eq] at ha
      have : ¬ p.1 = k := by omega
      simp only [AMap.get, this, if_false]
      exact ih i k (by simpa [AMap.above] using ha.2) hk
  induction m generalizing n with
  | nil =>
    cases n with
    | nil => rfl
    | cons q n =>
      simp only [AMap.wf, Bool.and_eq_true, decide_eq_true_eq] at hn
      have := h q.1
      simp [AMap.get] at this
      exact absurd this.symm hn.1.2
  | cons p m ih =>
    simp only [AMap.wf, Bool.and_eq_true, decide_eq_true_eq] at hm
    cases n with
    | nil =>
      have := h p.1
      simp [AMap.get] at this
      exact absurd this hm.1.2
    | cons q n =>
      simp only [AMap.wf, Bool.and_eq_true, decide_eq_true_eq] at hn
      have hkey : p.1 = q.1 := by
        rcases Nat.lt_trichotomy p.1 q.1 with hlt | heq | hgt
        · have e := h p.1
          have hq : ¬ q.1 = p.1 := by omega
          simp only [AMap.get, hq, if_true, if_false] at e
          rw [getAbove n q.1 p.1 hn.1.1 (Nat.le_of_lt hlt)] at e
          exact absurd e hm.1.2
        · exact heq
        · have e := h q.1
          have hp : ¬ p.1 = q.1 := by omega
          simp only [AMap.get, hp, if_true, if_false] at e
          rw [getAbove m p.1 q.1 hm.1.1 (Nat.le_of_lt hgt)] at e
          exact absurd e.symm hn.1.2
      have hval : p.2 = q.2 := by
        have e := h p.1
        simpa [AMap.get, hkey] using e
      have hrest : m = n := by
        refine ih n hm.2 hn.2 fun k => ?_
        by_cases hk : k ≤ p.1
        · rw [getAbove m p.1 k hm.1.1 hk, getAbove n q.1 k hn.1.1 (hkey ▸ hk)]
        · have e := h k
          have h1 : ¬ p.1 = k := by omega
          have h2 : ¬ q.1 = k := by omega
          simpa [AMap.get, h1, h2] using e
      rw [hrest, Prod.ext hkey hval]

/-! ### Memories -/

theorem memGet_memSet (m : Mem) (a x : Nat) (b : Byte) : memGet (memSet m a b) x = if x = a then b else memGet m x :=
  get_set _ m a x b

theorem memSet_wf (m : Mem) (a : Nat) (b : Byte) (h : Mem.wf m = true) : Mem.wf (memSet m a b) = true :=
  wf_set _ m a b h

theorem memRead_length (m : Mem) (a n : Nat) : (memRead m a n).length = n := by
  induction n generalizing a with
  | zero => rfl
  | succ n ih => simp [memRead, ih]

theorem get_append_of_forall {d : α} {m n : List (Nat × α)} {k : Nat} (h : ∀ p ∈ m, p.1 ≠ k) :
    AMap.get d (m ++ n) k = AMap.get d n k := by
  induction m with
  | nil => rfl
  | cons p m ih =>
    have hp := h p (by simp)
    simp only [List.cons_append, AMap.get, hp, if_false]
    exact ih fun q hq => h q (by simp [hq])

theorem get_append_right {d : α} {m n : List (Nat × α)} {k : Nat} (h : ∀ p ∈ n, p.1 ≠ k) :
    AMap.get d (m ++ n) k = AMap.get d m k := by
  induction m with
  | nil =>
    have := get_append_of_forall (d := d) (n := []) h
    simpa using this
  | cons p m ih =>
    simp only [List.cons_append, AMap.get]
    split
    · rfl
    · exact ih

theorem get_filter {d : α} {m : List (Nat × α)} {f : Nat → Bool} {k : Nat} (h : f k = true) :
    AMap.get d (m.filter fun e => f e.1) k = AMap.get d m k := by
  induction m with
  | nil => rfl
  | cons p m ih =>
    by_cases hp : f p.1 = true
    · simp [List.filter_cons, hp, AMap.get, ih]
    · have : ¬ p.1 = k := fun e => hp (e ▸ h)
      simp [List.filter_cons, hp, AMap.get, ih, this]

theorem cellsOf_range (a : Nat) (bs : List Byte) : ∀ p ∈ cellsOf a bs, a ≤ p.1 ∧ p.1 < a + bs.length := by
  induction bs generalizing a with
  | nil => simp [cellsOf]
  | cons b bs ih =>
    intro p hp
    have tail : p ∈ cellsOf (a + 1) bs → a ≤ p.1 ∧ p.1 < a + (b :: bs).length := by
      intro hp; have := ih (a + 1) p hp; simp only [List.length_cons]; omega
    unfold cellsOf at hp
    split at hp
    · exact tail hp
    · rcases List.mem_cons.mp hp with h | h
      · subst h; simp
      · exact tail h

theorem memGet_cellsOf (a k : Nat) (bs : List Byte) (h1 : a ≤ k) (h2 : k < a + bs.length) :
    memGet (cellsOf a bs) k = bs.getD (k - a) 0 := by
  induction bs generalizing a with
  | nil => simp at h2; omega
  | cons b bs ih =>
    by_cases hk : a = k
    · subst hk
      unfold cellsOf
      split
      · rename_i hb
        have : memGet (cellsOf (a + 1) bs) a = 0 := by
          have := get_append_of_forall (d := (0 : Byte)) (n := []) (m := cellsOf (a + 1) bs) (k := a)
            (fun p hp => by have := cellsOf_range (a + 1) bs p hp; omega)
          simpa [memGet] using this
        simp [this, hb]
      · simp [memGet, AMap.get]
    · have hs : memGet (cellsOf (a + 1) bs) k = bs.getD (k - (a + 1)) 0 :=
        ih (a + 1) (by omega) (by simp at h2; omega)
      have e : k - a = (k - (a + 1)) + 1 := by omega
      unfold cellsOf
      split
      · rw [hs, e]; simp
      · rw [show memGet ((a, b) :: cellsOf (a + 1) bs) k = memGet (cellsOf (a + 1) bs) k by simp [memGet, AMap.get, hk], hs, e]
        simp

/-- A read after a write of bytes: those bytes in their range, what was there before elsewhere. -/
theorem memGet_memWrite (m : Mem) (a k : Nat) (bs : List Byte) :
    memGet (memWrite m a bs) k = if a ≤ k ∧ k < a + bs.length then bs.getD (k - a) 0 else memGet m k := by
  unfold memWrite memSplice
  by_cases h1 : a ≤ k
  · by_cases h2 : k < a + bs.length
    · rw [if_pos ⟨h1, h2⟩]
      show AMap.get 0 _ k = _
      rw [get_append_right (fun p hp => by have := (List.mem_filter.mp hp).2; simp at this; omega),
        get_append_of_forall (fun p hp => by have := (List.mem_filter.mp hp).2; simp at this; omega)]
      exact memGet_cellsOf a k bs h1 h2
    · rw [if_neg (by omega)]
      show AMap.get 0 _ k = _
      rw [List.append_assoc, get_append_of_forall (fun p hp => by have := (List.mem_filter.mp hp).2; simp at this; omega),
        get_append_of_forall (fun p hp => by have := cellsOf_range a bs p hp; omega)]
      exact get_filter (f := fun e => decide (a + bs.length ≤ e)) (by simp; omega)
  · rw [if_neg (by omega)]
    show AMap.get 0 _ k = _
    rw [get_append_right (fun p hp => by have := (List.mem_filter.mp hp).2; simp at this; omega),
      get_append_right (fun p hp => by have := cellsOf_range a bs p hp; omega)]
    exact get_filter (f := fun e => decide (e < a)) (by simp; omega)

theorem wf_append {d : α} [DecidableEq α] {m n : List (Nat × α)} (hm : AMap.wf d m = true) (hn : AMap.wf d n = true)
    (h : ∀ p ∈ m, ∀ q ∈ n, p.1 < q.1) : AMap.wf d (m ++ n) = true := by
  induction m with
  | nil => exact hn
  | cons p m ih =>
    simp only [AMap.wf, Bool.and_eq_true, decide_eq_true_eq, List.cons_append] at *
    refine ⟨⟨?_, hm.1.2⟩, ih hm.2 fun a ha => h a (by simp [ha])⟩
    simp only [AMap.above, List.all_append, Bool.and_eq_true]
    refine ⟨hm.1.1, ?_⟩
    simp only [List.all_eq_true, decide_eq_true_eq]
    exact fun q hq => h p (by simp) q hq

theorem wf_filter {d : α} [DecidableEq α] {m : List (Nat × α)} (f : Nat × α → Bool) (h : AMap.wf d m = true) :
    AMap.wf d (m.filter f) = true := by
  induction m with
  | nil => rfl
  | cons p m ih =>
    simp only [AMap.wf, Bool.and_eq_true, decide_eq_true_eq] at h
    rw [List.filter_cons]
    split
    · simp only [AMap.wf, Bool.and_eq_true, decide_eq_true_eq]
      refine ⟨⟨?_, h.1.2⟩, ih h.2⟩
      have := h.1.1
      simp only [AMap.above, List.all_eq_true, decide_eq_true_eq] at *
      exact fun q hq => this q (List.mem_filter.mp hq).1
    · exact ih h.2

theorem cellsOf_wf (a : Nat) (bs : List Byte) : Mem.wf (cellsOf a bs) = true := by
  induction bs generalizing a with
  | nil => rfl
  | cons b bs ih =>
    unfold cellsOf
    split
    · exact ih (a + 1)
    · rename_i hb
      simp only [AMap.wf, Bool.and_eq_true, decide_eq_true_eq]
      refine ⟨⟨?_, hb⟩, ih (a + 1)⟩
      simp only [AMap.above, List.all_eq_true, decide_eq_true_eq]
      intro p hp; have := cellsOf_range (a + 1) bs p hp; omega

/-- Replacing a range by cells of that range in canonical form keeps the canonical form. -/
theorem memSplice_wf (m : Mem) (a n : Nat) (cells : Mem) (h : Mem.wf m = true) (hc : Mem.wf cells = true)
    (hr : ∀ p ∈ cells, a ≤ p.1 ∧ p.1 < a + n) : Mem.wf (memSplice m a n cells) = true := by
  unfold memSplice
  refine wf_append (wf_append (wf_filter _ h) hc ?_) (wf_filter _ h) ?_
  · intro p hp q hq
    have h1 := (List.mem_filter.mp hp).2
    have h2 := hr q hq
    simp at h1; omega
  · intro p hp q hq
    have h2 := (List.mem_filter.mp hq).2
    simp at h2
    rcases List.mem_append.mp hp with h1 | h1
    · have := (List.mem_filter.mp h1).2; simp at this; omega
    · have := hr p h1; omega

/-- Writing bytes keeps the canonical form. -/
theorem memWrite_wf (m : Mem) (a : Nat) (bs : List Byte) (h : Mem.wf m = true) : Mem.wf (memWrite m a bs) = true :=
  memSplice_wf m a bs.length _ h (cellsOf_wf a bs) (cellsOf_range a bs)

end Sys2Proof.Laws
end

