-- ==== Sys2Proof/Laws/State.lean ====
section
/-! SUPPORT. One lemma per field per update of the device state, and per field of the outcome of a command. -/
namespace Sys2Proof.Laws
open Sys2Proof.Machine

@[simp] theorem wr_tick (d : Dev) (f : Fld) (v : Nat) : (d.wr f v).tick = d.tick := rfl
@[simp] theorem wr_freeCtr (d : Dev) (f : Fld) (v : Nat) : (d.wr f v).freeCtr = d.freeCtr := rfl
@[simp] theorem wr_occ (d : Dev) (f : Fld) (v : Nat) : (d.wr f v).occ = d.occ := rfl
@[simp] theorem wr_io (d : Dev) (f : Fld) (v : Nat) : (d.wr f v).io = d.io := rfl
@[simp] theorem wr_mem (d : Dev) (f : Fld) (v : Nat) : (d.wr f v).mem = d.mem := rfl
@[simp] theorem wr_wafer (d : Dev) (f : Fld) (v : Nat) : (d.wr f v).wafer = d.wafer := rfl
@[simp] theorem wr_mesh (d : Dev) (f : Fld) (v : Nat) : (d.wr f v).mesh = d.mesh := rfl
@[simp] theorem wr_img (d : Dev) (f : Fld) (v : Nat) : (d.wr f v).img = d.img := rfl
@[simp] theorem wr_serve (d : Dev) (f : Fld) (v : Nat) : (d.wr f v).serve = d.serve := rfl
@[simp] theorem wr_wts (d : Dev) (f : Fld) (v : Nat) : (d.wr f v).wts = d.wts := rfl
@[simp] theorem wr_pwr (d : Dev) (f : Fld) (v : Nat) : (d.wr f v).pwr = d.pwr := rfl
@[simp] theorem wr_fab (d : Dev) (f : Fld) (v : Nat) : (d.wr f v).fab = d.fab := rfl
@[simp] theorem wr_meas (d : Dev) (f : Fld) (v : Nat) : (d.wr f v).meas = d.meas := rfl

@[simp] theorem bump_tick (d : Dev) (f : Fld) (n : Nat) : (d.bump f n).tick = d.tick := rfl
@[simp] theorem bump_freeCtr (d : Dev) (f : Fld) (n : Nat) : (d.bump f n).freeCtr = d.freeCtr := rfl
@[simp] theorem bump_occ (d : Dev) (f : Fld) (n : Nat) : (d.bump f n).occ = d.occ := rfl
@[simp] theorem bump_io (d : Dev) (f : Fld) (n : Nat) : (d.bump f n).io = d.io := rfl
@[simp] theorem bump_mem (d : Dev) (f : Fld) (n : Nat) : (d.bump f n).mem = d.mem := rfl
@[simp] theorem bump_wafer (d : Dev) (f : Fld) (n : Nat) : (d.bump f n).wafer = d.wafer := rfl
@[simp] theorem bump_mesh (d : Dev) (f : Fld) (n : Nat) : (d.bump f n).mesh = d.mesh := rfl
@[simp] theorem bump_img (d : Dev) (f : Fld) (n : Nat) : (d.bump f n).img = d.img := rfl
@[simp] theorem bump_serve (d : Dev) (f : Fld) (n : Nat) : (d.bump f n).serve = d.serve := rfl
@[simp] theorem bump_wts (d : Dev) (f : Fld) (n : Nat) : (d.bump f n).wts = d.wts := rfl
@[simp] theorem bump_pwr (d : Dev) (f : Fld) (n : Nat) : (d.bump f n).pwr = d.pwr := rfl
@[simp] theorem bump_fab (d : Dev) (f : Fld) (n : Nat) : (d.bump f n).fab = d.fab := rfl
@[simp] theorem bump_meas (d : Dev) (f : Fld) (n : Nat) : (d.bump f n).meas = d.meas := rfl

@[simp] theorem bumpSat_tick (d : Dev) (f : Fld) (n : Nat) : (d.bumpSat f n).tick = d.tick := rfl
@[simp] theorem bumpSat_freeCtr (d : Dev) (f : Fld) (n : Nat) : (d.bumpSat f n).freeCtr = d.freeCtr := rfl
@[simp] theorem bumpSat_occ (d : Dev) (f : Fld) (n : Nat) : (d.bumpSat f n).occ = d.occ := rfl
@[simp] theorem bumpSat_io (d : Dev) (f : Fld) (n : Nat) : (d.bumpSat f n).io = d.io := rfl
@[simp] theorem bumpSat_mem (d : Dev) (f : Fld) (n : Nat) : (d.bumpSat f n).mem = d.mem := rfl
@[simp] theorem bumpSat_wafer (d : Dev) (f : Fld) (n : Nat) : (d.bumpSat f n).wafer = d.wafer := rfl
@[simp] theorem bumpSat_mesh (d : Dev) (f : Fld) (n : Nat) : (d.bumpSat f n).mesh = d.mesh := rfl
@[simp] theorem bumpSat_img (d : Dev) (f : Fld) (n : Nat) : (d.bumpSat f n).img = d.img := rfl
@[simp] theorem bumpSat_serve (d : Dev) (f : Fld) (n : Nat) : (d.bumpSat f n).serve = d.serve := rfl
@[simp] theorem bumpSat_wts (d : Dev) (f : Fld) (n : Nat) : (d.bumpSat f n).wts = d.wts := rfl
@[simp] theorem bumpSat_pwr (d : Dev) (f : Fld) (n : Nat) : (d.bumpSat f n).pwr = d.pwr := rfl
@[simp] theorem bumpSat_fab (d : Dev) (f : Fld) (n : Nat) : (d.bumpSat f n).fab = d.fab := rfl
@[simp] theorem bumpSat_meas (d : Dev) (f : Fld) (n : Nat) : (d.bumpSat f n).meas = d.meas := rfl

@[simp] theorem raise_tick (d : Dev) (o : Occ) : (d.raise o).tick = d.tick := rfl
@[simp] theorem raise_freeCtr (d : Dev) (o : Occ) : (d.raise o).freeCtr = d.freeCtr := rfl
@[simp] theorem raise_regs (d : Dev) (o : Occ) : (d.raise o).regs = d.regs := rfl
@[simp] theorem raise_io (d : Dev) (o : Occ) : (d.raise o).io = d.io := rfl
@[simp] theorem raise_mem (d : Dev) (o : Occ) : (d.raise o).mem = d.mem := rfl
@[simp] theorem raise_wafer (d : Dev) (o : Occ) : (d.raise o).wafer = d.wafer := rfl
@[simp] theorem raise_mesh (d : Dev) (o : Occ) : (d.raise o).mesh = d.mesh := rfl
@[simp] theorem raise_img (d : Dev) (o : Occ) : (d.raise o).img = d.img := rfl
@[simp] theorem raise_serve (d : Dev) (o : Occ) : (d.raise o).serve = d.serve := rfl
@[simp] theorem raise_wts (d : Dev) (o : Occ) : (d.raise o).wts = d.wts := rfl
@[simp] theorem raise_pwr (d : Dev) (o : Occ) : (d.raise o).pwr = d.pwr := rfl
@[simp] theorem raise_fab (d : Dev) (o : Occ) : (d.raise o).fab = d.fab := rfl
@[simp] theorem raise_meas (d : Dev) (o : Occ) : (d.raise o).meas = d.meas := rfl

@[simp] theorem emit_tick (d : Dev) (o : Out) : (d.emit o).tick = d.tick := rfl
@[simp] theorem emit_freeCtr (d : Dev) (o : Out) : (d.emit o).freeCtr = d.freeCtr := rfl
@[simp] theorem emit_regs (d : Dev) (o : Out) : (d.emit o).regs = d.regs := rfl
@[simp] theorem emit_occ (d : Dev) (o : Out) : (d.emit o).occ = d.occ := rfl
@[simp] theorem emit_mem (d : Dev) (o : Out) : (d.emit o).mem = d.mem := rfl
@[simp] theorem emit_wafer (d : Dev) (o : Out) : (d.emit o).wafer = d.wafer := rfl
@[simp] theorem emit_mesh (d : Dev) (o : Out) : (d.emit o).mesh = d.mesh := rfl
@[simp] theorem emit_img (d : Dev) (o : Out) : (d.emit o).img = d.img := rfl
@[simp] theorem emit_serve (d : Dev) (o : Out) : (d.emit o).serve = d.serve := rfl
@[simp] theorem emit_wts (d : Dev) (o : Out) : (d.emit o).wts = d.wts := rfl
@[simp] theorem emit_pwr (d : Dev) (o : Out) : (d.emit o).pwr = d.pwr := rfl
@[simp] theorem emit_fab (d : Dev) (o : Out) : (d.emit o).fab = d.fab := rfl
@[simp] theorem emit_meas (d : Dev) (o : Out) : (d.emit o).meas = d.meas := rfl

@[simp] theorem wr_regs (d : Dev) (f : Fld) (v : Nat) :
    (d.wr f v).regs = AMap.set f.reset d.regs (fldKey f) (v % 2 ^ f.width) := rfl
@[simp] theorem raise_occ (d : Dev) (o : Occ) :
    (d.raise o).occ = d.occ ++ [{ o with detail := o.detail % 65536, source := if o.cls = 1 ∨ o.cls = 2 then 0 else o.source }] := rfl
@[simp] theorem emit_outbox (d : Dev) (o : Out) : (d.emit o).io.outbox = d.io.outbox ++ [o] := rfl

@[simp] theorem setW1c_tick (d : Dev) (f : Fld) (source : Nat) (shared : Bool) (i : Nat) :
    (d.setW1c f source shared i).tick = d.tick := by unfold Dev.setW1c; dsimp only; split <;> rfl
@[simp] theorem setW1c_freeCtr (d : Dev) (f : Fld) (source : Nat) (shared : Bool) (i : Nat) :
    (d.setW1c f source shared i).freeCtr = d.freeCtr := by unfold Dev.setW1c; dsimp only; split <;> rfl
@[simp] theorem setW1c_io (d : Dev) (f : Fld) (source : Nat) (shared : Bool) (i : Nat) :
    (d.setW1c f source shared i).io = d.io := by unfold Dev.setW1c; dsimp only; split <;> rfl
@[simp] theorem setW1c_mem (d : Dev) (f : Fld) (source : Nat) (shared : Bool) (i : Nat) :
    (d.setW1c f source shared i).mem = d.mem := by unfold Dev.setW1c; dsimp only; split <;> rfl
@[simp] theorem setW1c_wafer (d : Dev) (f : Fld) (source : Nat) (shared : Bool) (i : Nat) :
    (d.setW1c f source shared i).wafer = d.wafer := by unfold Dev.setW1c; dsimp only; split <;> rfl
@[simp] theorem setW1c_mesh (d : Dev) (f : Fld) (source : Nat) (shared : Bool) (i : Nat) :
    (d.setW1c f source shared i).mesh = d.mesh := by unfold Dev.setW1c; dsimp only; split <;> rfl
@[simp] theorem setW1c_img (d : Dev) (f : Fld) (source : Nat) (shared : Bool) (i : Nat) :
    (d.setW1c f source shared i).img = d.img := by unfold Dev.setW1c; dsimp only; split <;> rfl
@[simp] theorem setW1c_serve (d : Dev) (f : Fld) (source : Nat) (shared : Bool) (i : Nat) :
    (d.setW1c f source shared i).serve = d.serve := by unfold Dev.setW1c; dsimp only; split <;> rfl
@[simp] theorem setW1c_wts (d : Dev) (f : Fld) (source : Nat) (shared : Bool) (i : Nat) :
    (d.setW1c f source shared i).wts = d.wts := by unfold Dev.setW1c; dsimp only; split <;> rfl
@[simp] theorem setW1c_pwr (d : Dev) (f : Fld) (source : Nat) (shared : Bool) (i : Nat) :
    (d.setW1c f source shared i).pwr = d.pwr := by unfold Dev.setW1c; dsimp only; split <;> rfl
@[simp] theorem setW1c_fab (d : Dev) (f : Fld) (source : Nat) (shared : Bool) (i : Nat) :
    (d.setW1c f source shared i).fab = d.fab := by unfold Dev.setW1c; dsimp only; split <;> rfl
@[simp] theorem setW1c_meas (d : Dev) (f : Fld) (source : Nat) (shared : Bool) (i : Nat) :
    (d.setW1c f source shared i).meas = d.meas := by unfold Dev.setW1c; dsimp only; split <;> rfl

@[simp] theorem next_eq (s : State) (d : Dev) : s.next d = .next { s with dev := d.closeCycle } := rfl
@[simp] theorem nextSec_eq (s : State) (c : Sec) (d : Dev) : s.nextSec c d = .next { s with sec := c, dev := d.closeCycle } := rfl

end Sys2Proof.Laws
end

