-- ==== Sys2Proof/Laws/Registers.lean ====
section
/-! SUPPORT. The register file: what a field reads as after a write of it, and that a write leaves every field of another key. -/
namespace Sys2Proof.Laws
open Sys2Proof.Machine

/-- A field after a write of another field. -/
theorem rd_wr_of_ne (d : Dev) (f g : Fld) (v : Nat) (h : fldKey g ≠ fldKey f) : (d.wr f v).rd g = d.rd g := by
  have key : ∀ m : RegFile, AMap.get g.reset (AMap.set f.reset m (fldKey f) (v % 2 ^ f.width)) (fldKey g) =
      AMap.get g.reset m (fldKey g) := by
    intro m
    unfold AMap.set
    split
    · rw [get_erase, if_neg h]
    · rw [get_insert, if_neg h]
  exact key d.regs

/-- A field after a write of it keeps the low bits of the value that fit its width. -/
@[simp] theorem rd_wr (d : Dev) (f : Fld) (v : Nat) : (d.wr f v).rd f = v % 2 ^ f.width := by
  show AMap.get f.reset (AMap.set f.reset d.regs (fldKey f) (v % 2 ^ f.width)) (fldKey f) = _
  rw [get_set, if_pos rfl]

@[simp] theorem rd_raise (d : Dev) (o : Occ) (f : Fld) : (d.raise o).rd f = d.rd f := rfl
@[simp] theorem rd_emit (d : Dev) (o : Out) (f : Fld) : (d.emit o).rd f = d.rd f := rfl

theorem rd_bump_of_ne (d : Dev) (f g : Fld) (n : Nat) (h : fldKey g ≠ fldKey f) : (d.bump f n).rd g = d.rd g :=
  rd_wr_of_ne d f g _ h

@[simp] theorem rd_bump (d : Dev) (f : Fld) (n : Nat) : (d.bump f n).rd f = (d.rd f + n) % 2 ^ f.width := rd_wr d f _

theorem rd_setW1c_of_ne (d : Dev) (f g : Fld) (source : Nat) (shared : Bool) (i : Nat) (h : fldKey g ≠ fldKey f) :
    (d.setW1c f source shared i).rd g = d.rd g := by
  unfold Dev.setW1c
  dsimp only
  split
  · exact rd_wr_of_ne d f g _ h
  · rw [rd_raise]; exact rd_wr_of_ne d f g _ h

/-- A one-bit W1C field after a set of its bit reads 1, where it read 0 or 1 before. -/
theorem rd_setW1c_one (d : Dev) (f : Fld) (source : Nat) (shared : Bool) (hw : f.width = 1) (hv : d.rd f < 2) :
    (d.setW1c f source shared 0).rd f = 1 := by
  have key : (if bitOf (d.rd f) 0 then d.rd f else d.rd f + 2 ^ 0) % 2 ^ f.width = 1 := by
    have hc : d.rd f = 0 ∨ d.rd f = 1 := by omega
    rcases hc with h | h <;> simp [h, bitOf, hw]
  unfold Dev.setW1c
  dsimp only
  split
  · rw [rd_wr]; exact key
  · rw [rd_raise, rd_wr]; exact key

/-- Every register holds its reset value after reset (22 R471). -/
@[simp] theorem rd_reset (f : Fld) : Dev.reset.rd f = f.reset := rfl

end Sys2Proof.Laws
end

