-- ==== Sys2Proof/Laws/Cycle.lean ====
section
/-! SUPPORT. What the end of a cycle does: it counts and records the cycle's occurrences and changes nothing else (13 R320-R329, 20 R442-R445). -/
namespace Sys2Proof.Laws
open Sys2Proof.Machine

/-- `isRecordKey` of a field as arithmetic on its offset and low bit. -/
theorem recordKey_iff (f : Fld) (h : f.lo < 64) : isRecordKey (fldKey f) = true ↔
    (0x12000 ≤ f.off ∧ f.off < 0x13000 ∧ f.lo = 32) ∨ (0x11000 ≤ f.off ∧ f.off < 0x11100) ∨
    (0x20000 ≤ f.off ∧ f.off < 0x40000 ∧
      ((f.off % 32 = 0 ∧ f.lo = 55) ∨ (f.off % 32 = 8 ∧ (f.lo = 32 ∨ f.lo = 48)) ∨ f.off % 32 = 16)) ∨
    f.off = 0x300008 ∨ f.off = 0x300010 ∨ f.off = 0x300018 ∨ f.off = 0x300020 ∨
    (f.off = 0x300038 ∧ f.lo = 1) ∨ (f.off = 0x1000 ∧ f.lo = 6) := by
  have h1 : fldKey f / 64 = f.off := by unfold fldKey; omega
  have h2 : fldKey f % 64 = f.lo := by unfold fldKey; omega
  have h3 : fldKey f = fldKey Reg.errService ↔ (f.off = 0x300038 ∧ f.lo = 1) := by
    simp only [fldKey, Reg.errService]; omega
  have h4 : fldKey f = fldKey Reg.degradedUnprotected ↔ (f.off = 0x1000 ∧ f.lo = 6) := by
    simp only [fldKey, Reg.degradedUnprotected]; omega
  unfold isRecordKey
  simp only [h1, h2, inRange, Bool.or_eq_true, Bool.and_eq_true, decide_eq_true_eq, beq_iff_eq, h3, h4, or_assoc, and_assoc]

theorem plain_of (f : Fld) (h : f.lo < 64) (hn : ¬ (
    (0x12000 ≤ f.off ∧ f.off < 0x13000 ∧ f.lo = 32) ∨ (0x11000 ≤ f.off ∧ f.off < 0x11100) ∨
    (0x20000 ≤ f.off ∧ f.off < 0x40000 ∧
      ((f.off % 32 = 0 ∧ f.lo = 55) ∨ (f.off % 32 = 8 ∧ (f.lo = 32 ∨ f.lo = 48)) ∨ f.off % 32 = 16)) ∨
    f.off = 0x300008 ∨ f.off = 0x300010 ∨ f.off = 0x300018 ∨ f.off = 0x300020 ∨
    (f.off = 0x300038 ∧ f.lo = 1) ∨ (f.off = 0x1000 ∧ f.lo = 6))) : Plain f := by
  unfold Plain
  rw [← recordKey_iff f h] at hn
  simpa using hn

/-- A field that is not a record field has another key than one that is. -/
theorem plain_ne {f g : Fld} (hf : Plain f) (hg : isRecordKey (fldKey g) = true) : fldKey f ≠ fldKey g := by
  intro h; unfold Plain at hf; rw [h, hg] at hf; cases hf

theorem plain_ringEnable (r : Nat) (h : r < 4096) : Plain (Reg.ringEnable r) :=
  plain_of _ (by simp [Reg.ringEnable]) (by simp only [Reg.ringEnable]; omega)
theorem plain_ringSize (r : Nat) (h : r < 4096) : Plain (Reg.ringSize r) :=
  plain_of _ (by simp [Reg.ringSize]) (by simp only [Reg.ringSize]; omega)
theorem plain_ringBase (r : Nat) (h : r < 4096) : Plain (Reg.ringBase r) :=
  plain_of _ (by simp [Reg.ringBase]) (by simp only [Reg.ringBase]; omega)
theorem plain_hostWinBase : Plain Reg.hostWinBase := rfl
theorem plain_mirrorGib : Plain Reg.mirrorGib := rfl

theorem record_srcCount (n : Nat) (h : n < 512) : isRecordKey (fldKey (Reg.srcCount n)) = true :=
  (recordKey_iff _ (by simp [Reg.srcCount])).2 (.inl (by simp [Reg.srcCount]; omega))
theorem record_msixPba (i : Nat) (h : i < 32) : isRecordKey (fldKey (Reg.msixPba i)) = true :=
  (recordKey_iff _ (by simp [Reg.msixPba])).2 (.inr (.inl (by simp only [Reg.msixPba]; omega)))
theorem record_ringActive (r : Nat) (h : r < 4096) : isRecordKey (fldKey (Reg.ringActive r)) = true :=
  (recordKey_iff _ (by simp [Reg.ringActive])).2 (.inr (.inr (.inl (by simp [Reg.ringActive]; omega))))
theorem record_ringTail (r : Nat) (h : r < 4096) : isRecordKey (fldKey (Reg.ringTail r)) = true :=
  (recordKey_iff _ (by simp [Reg.ringTail])).2 (.inr (.inr (.inl (by simp [Reg.ringTail]; omega))))
theorem record_ringOverflow (r : Nat) (h : r < 4096) : isRecordKey (fldKey (Reg.ringOverflow r)) = true :=
  (recordKey_iff _ (by simp [Reg.ringOverflow])).2 (.inr (.inr (.inl (by simp [Reg.ringOverflow]; omega))))
theorem record_ringLost (r : Nat) (h : r < 4096) : isRecordKey (fldKey (Reg.ringLost r)) = true :=
  (recordKey_iff _ (by simp [Reg.ringLost])).2 (.inr (.inr (.inl (by simp [Reg.ringLost]; omega))))

/-- The key of a ring's tail is that of no other field of another word or place. -/
theorem tail_ne (f : Fld) (r : Nat) (h : f.lo < 64) (hn : ¬ (f.off % 32 = 8 ∧ f.lo = 32) ∨ f.off < 0x20000 ∨ f.off % 8 ≠ 0) :
    fldKey (Reg.ringTail r) ≠ fldKey f := by
  simp only [fldKey, Reg.ringTail]; omega

end Sys2Proof.Laws

namespace Sys2Proof.SameButRecords
open Sys2Proof.Machine Sys2Proof.Laws

theorem refl (d : Dev) : SameButRecords d d :=
  { tick := rfl, freeCtr := rfl, wafer := rfl, mesh := rfl, img := rfl, serve := rfl, wts := rfl, pwr := rfl, fab := rfl,
    meas := rfl, regs := fun _ _ => rfl, tails := fun _ _ => .inl rfl, io := rfl, outbox := List.prefix_refl _, allocs := rfl,
    frames := rfl, dram := fun _ _ => rfl, hostMem := fun _ _ => rfl, rimSram := fun _ _ => rfl }

theorem bit {d e : Dev} (h : SameButRecords d e) (f : Fld) (hf : Plain f) : e.bit f = d.bit f := by
  unfold Dev.bit; rw [h.regs f hf]

theorem ringEntries {d e : Dev} (h : SameButRecords d e) (r : Nat) (hr : r < 4096) : e.ringEntries r = d.ringEntries r := by
  unfold Dev.ringEntries; rw [h.regs _ (plain_ringSize r hr)]

theorem dramKey {d e : Dev} (h : SameButRecords d e) (a : Nat) : e.dramKey a = d.dramKey a := by
  unfold Dev.dramKey Dev.mirrorBytes; rw [h.regs _ plain_mirrorGib]

theorem recordSlot {d e : Dev} (h : SameButRecords d e) {a : Nat} (ha : RecordSlot e a) : RecordSlot d a := by
  obtain ⟨r, j, hr, hen, hj, h1⟩ := ha
  rw [h.bit _ (plain_ringEnable r hr)] at hen
  rw [h.ringEntries r hr] at hj
  rw [h.regs _ (plain_ringBase r hr)] at h1
  refine ⟨r, j, hr, hen, ?_, h1⟩
  rcases hj with hj | hj
  · exact .inl hj
  · rcases h.tails r hr with ht | ht
    · exact .inr (by rw [hj, ht])
    · exact .inl (by rw [hj]; exact ht)

theorem trans {d e f : Dev} (h : SameButRecords d e) (k : SameButRecords e f) : SameButRecords d f where
  tick := k.tick.trans h.tick
  freeCtr := k.freeCtr.trans h.freeCtr
  wafer := k.wafer.trans h.wafer
  mesh := k.mesh.trans h.mesh
  img := k.img.trans h.img
  serve := k.serve.trans h.serve
  wts := k.wts.trans h.wts
  pwr := k.pwr.trans h.pwr
  fab := k.fab.trans h.fab
  meas := k.meas.trans h.meas
  regs := fun g hg => (k.regs g hg).trans (h.regs g hg)
  tails := fun r hr => by
    rcases k.tails r hr with h1 | h1
    · rcases h.tails r hr with h2 | h2
      · exact .inl (h1.trans h2)
      · exact .inr (by rw [h1]; exact h2)
    · exact .inr (by rw [← h.ringEntries r hr]; exact h1)
  io := by
    have h1 := h.io
    have h2 := k.io
    rw [← h1, ← h2]
  outbox := h.outbox.trans k.outbox
  allocs := k.allocs.trans h.allocs
  frames := k.frames.trans h.frames
  dram := fun x hx => (k.dram x fun a i ha hi => by
    rw [h.dramKey]; exact hx a i (h.recordSlot ha) hi).trans (h.dram x hx)
  hostMem := fun x hx => (k.hostMem x fun a i ha hi => by
    rw [h.regs _ plain_hostWinBase]; exact hx a i (h.recordSlot ha) hi).trans (h.hostMem x hx)
  rimSram := fun x hx => (k.rimSram x fun a i ha hi => hx a i (h.recordSlot ha) hi).trans (h.rimSram x hx)

/-- A write of a record field other than a ring's tail. -/
theorem wr (d : Dev) (f : Fld) (v : Nat) (hf : isRecordKey (fldKey f) = true)
    (ht : ∀ r, r < 4096 → fldKey (Reg.ringTail r) ≠ fldKey f) : SameButRecords d (d.wr f v) :=
  { refl d with
    regs := fun _ hg => rd_wr_of_ne d f _ v (plain_ne hg hf)
    tails := fun r hr => .inl (rd_wr_of_ne d f _ v (ht r hr)) }

/-- A write of a ring's tail that stays within the ring. -/
theorem wrTail (d : Dev) (r v : Nat) (hr : r < 4096) (hv : v < d.ringEntries r) :
    SameButRecords d (d.wr (Reg.ringTail r) v) :=
  { refl d with
    regs := fun _ hg => rd_wr_of_ne d _ _ v (plain_ne hg (record_ringTail r hr))
    tails := fun q _ => by
      by_cases hq : q = r
      · subst hq
        right; rw [rd_wr]; exact Nat.lt_of_le_of_lt (Nat.mod_le _ _) hv
      · left; refine rd_wr_of_ne d _ _ v ?_
        simp only [fldKey, Reg.ringTail]; omega }

theorem raise (d : Dev) (o : Occ) : SameButRecords d (d.raise o) := { refl d with }

theorem setOcc (d : Dev) (os : List Occ) : SameButRecords d { d with occ := os } := { refl d with }

theorem emit (d : Dev) (o : Out) : SameButRecords d (d.emit o) :=
  { refl d with outbox := List.prefix_append _ _ }

theorem setW1c (d : Dev) (f : Fld) (s : Nat) (b : Bool) (i : Nat) (hf : isRecordKey (fldKey f) = true)
    (ht : ∀ r, r < 4096 → fldKey (Reg.ringTail r) ≠ fldKey f) : SameButRecords d (d.setW1c f s b i) := by
  unfold Dev.setW1c
  dsimp only
  split
  · exact wr d f _ hf ht
  · exact (wr d f _ hf ht).trans (raise _ _)

theorem updateDegraded (d : Dev) : SameButRecords d d.updateDegraded := by
  have h : ∀ e : Dev, ∀ a b c, SameButRecords e (((e.wr Reg.degraded a).wr Reg.degradedUnprotected b).wr Reg.svcRequest c) :=
    fun e a b c => ((wr e _ a rfl fun r _ => tail_ne _ r (by simp [Reg.degraded]) (by simp [Reg.degraded])).trans
      (wr _ _ b rfl fun r _ => tail_ne _ r (by simp [Reg.degradedUnprotected]) (by simp [Reg.degradedUnprotected]))).trans
      (wr _ _ c rfl fun r _ => tail_ne _ r (by simp [Reg.svcRequest]) (by simp [Reg.svcRequest]))
  unfold Dev.updateDegraded
  dsimp only
  split
  · exact (h d _ _ _).trans (setW1c _ _ _ _ _ rfl fun r _ => tail_ne _ r (by simp [Reg.errService]) (by simp [Reg.errService]))
  · exact h d _ _ _

theorem updateAlert (d : Dev) : SameButRecords d d.updateAlert := by
  unfold Dev.updateAlert
  split
  · exact refl d
  · exact { refl d with io := rfl, outbox := List.prefix_append _ _ }

theorem sendMsix (d : Dev) (v : Nat) : SameButRecords d (d.sendMsix v) := by
  unfold Dev.sendMsix
  split
  · exact wr d _ _ (record_msixPba _ (by omega)) fun r _ => tail_ne _ r (by simp [Reg.msixPba]) (by simp [Reg.msixPba])
  · exact emit d _

theorem sendIrq (d : Dev) (r : Nat) : SameButRecords d (d.sendIrq r) := by
  unfold Dev.sendIrq
  dsimp only
  split
  · exact sendMsix d _
  · split
    · exact emit d _
    · exact refl d

theorem activate (d : Dev) (r : Nat) (hr : r < 4096) : SameButRecords d (d.activate r) :=
  (wr d _ 1 (record_ringActive r hr) fun q _ => tail_ne _ q (by simp [Reg.ringActive]) (by simp [Reg.ringActive])).trans
    (sendIrq _ r)

theorem logFault (d : Dev) (o : Occ) : SameButRecords d (d.logFault o).2 := by
  have hm : ∀ e : Dev, ∀ l t, SameButRecords e { e with mem := { e.mem with faultLog := l, faultTick := t } } :=
    fun e l t => { refl e with }
  have one : ∀ e : Dev, ∀ f : Fld, ∀ n, isRecordKey (fldKey f) = true → f.lo < 64 → f.off % 32 ≠ 8 ∨ f.lo ≠ 32 →
      SameButRecords e (e.wr f n) := fun e f n h1 h2 h3 => wr e f _ h1 fun q _ => by
    simp only [fldKey, Reg.ringTail]; omega
  unfold Dev.logFault
  dsimp only
  split
  · exact (hm d _ _).trans (one _ Reg.coalesced _ rfl (by decide) (by decide))
  · have far : ∀ e : Dev, ∀ n, SameButRecords e (e.wr Reg.faultOldest n) := fun e n => wr e _ _ rfl fun q _ => by
      simp only [fldKey, Reg.ringTail, Reg.faultOldest]; omega
    show SameButRecords d (Dev.wr _ (if o.cls = 1 then Reg.dataFaults else if o.cls = 2 then Reg.imageFaults else Reg.eventRecords) _)
    refine trans ?_ (one _ _ _ ?_ ?_ ?_)
    · exact ((hm d _ _).trans (one _ Reg.faultNewest _ rfl (by decide) (by decide))).trans (far _ _)
    all_goals split
    any_goals decide
    all_goals split <;> decide

theorem loseRecord (d : Dev) (r : Nat) (o : Occ) (hr : r < 4096) : SameButRecords d (d.loseRecord r o) := by
  have h1 : SameButRecords d (d.bump (Reg.ringLost r)) :=
    wr d _ _ (record_ringLost r hr) fun q _ => tail_ne _ q (by simp [Reg.ringLost]) (by simp [Reg.ringLost])
  have ht : ∀ q, q < 4096 → fldKey (Reg.ringTail q) ≠ fldKey (Reg.ringOverflow r) :=
    fun q _ => tail_ne _ q (by simp [Reg.ringOverflow]) (by simp [Reg.ringOverflow])
  have h2 : ∀ e : Dev, SameButRecords e { e with io := { e.io with ringLost := AMap.modify 0 e.io.ringLost r (· + 1) } } :=
    fun e => { refl e with io := rfl }
  unfold Dev.loseRecord
  dsimp only
  split
  · exact ((h1.trans (h2 _)).trans (wr _ _ _ (record_ringOverflow r hr) ht)).trans
      (wr _ _ _ (record_srcCount 80 (by decide)) fun q _ => tail_ne _ q (by simp [Reg.srcCount]) (by simp [Reg.srcCount]))
  · exact (h1.trans (h2 _)).trans (setW1c _ _ _ _ _ (record_ringOverflow r hr) ht)

theorem memGet_store (m : Mem) (a k : Nat) (bs : List Byte) (h : ∀ i, i < bs.length → a + i ≠ k) :
    memGet (memWrite m a bs) k = memGet m k := by
  rw [memGet_memWrite, if_neg]
  intro hk
  exact h (k - a) (by omega) (by omega)

theorem dramKey_clearPoisonIn (d : Dev) (a n x : Nat) : (d.clearPoisonIn a n).dramKey x = d.dramKey x := by
  have h : (d.clearPoisonIn a n).rd Reg.mirrorGib = d.rd Reg.mirrorGib := rfl
  unfold Dev.dramKey Dev.mirrorBytes
  rw [h]

theorem storeDram {d : Dev} {a : Nat} {bs : List Byte} (ha : RecordSlot d a) (hb : bs.length = 32) :
    SameButRecords d { d with mem := { d.mem with dram := memWrite d.mem.dram (d.dramKey a) bs } } :=
  { refl d with dram := fun k hk => memGet_store _ _ _ _ fun i hi => hk a i ha (hb ▸ hi) }

theorem storeHost {d : Dev} {a : Nat} {bs : List Byte} (ha : RecordSlot d a) (hb : bs.length = 32) :
    SameButRecords d { d with mem := { d.mem with
      hostMem := memWrite d.mem.hostMem (d.rd Reg.hostWinBase * 4096 + (a - 0x800000000000)) bs } } :=
  { refl d with hostMem := fun k hk => memGet_store _ _ _ _ fun i hi => hk a i ha (hb ▸ hi) }

theorem storeRim {d : Dev} {a : Nat} {bs : List Byte} (ha : RecordSlot d a) (hb : bs.length = 32) :
    SameButRecords d { d with mem := { d.mem with rimSram := memWrite d.mem.rimSram (a - 0x200010000000) bs } } :=
  { refl d with rimSram := fun k hk => memGet_store _ _ _ _ fun i hi => hk a i ha (hb ▸ hi) }

theorem clearPoisonIn (d : Dev) (a n : Nat) : SameButRecords d (d.clearPoisonIn a n) := { refl d with }

theorem slot_clearPoisonIn {d : Dev} {a n x : Nat} (h : RecordSlot d x) : RecordSlot (d.clearPoisonIn a n) x := by
  obtain ⟨r, j, hr, hen, hj, h1⟩ := h
  exact ⟨r, j, hr, hen, hj, h1⟩

/-- A record write by an event ring changes the bytes of its slot only. -/
theorem ringStore {d e : Dev} {a : Nat} {bs : List Byte} (ha : RecordSlot d a) (hb : bs.length = 32)
    (h : d.ringStore a bs = some e) : SameButRecords d e := by
  unfold Dev.ringStore at h
  by_cases h1 : a + bs.length ≤ d.dramTop
  · rw [if_pos h1] at h
    by_cases h2 : ((firstIn d.protectedAt a bs.length).isSome || d.partialPoison a bs.length) = true
    · rw [if_pos h2] at h; cases h
    · rw [if_neg h2] at h
      rw [← Option.some.inj h]
      exact (clearPoisonIn d a _).trans (storeDram (slot_clearPoisonIn ha) hb)
  · rw [if_neg h1] at h
    by_cases h2 : 0x800000000000 ≤ a ∧ a + bs.length ≤ 0x1000000000000
    · rw [if_pos h2] at h
      revert h
      cases d.hostAddr (a + bs.length - 1) with
      | none => intro h; cases h
      | some x => intro h; rw [← Option.some.inj h]; exact storeHost ha hb
    · rw [if_neg h2] at h
      by_cases h3 : 0x200010000000 ≤ a ∧ a + bs.length ≤ 0x200012000000
      · rw [if_pos h3] at h
        rw [← Option.some.inj h]; exact storeRim ha hb
      · rw [if_neg h3] at h; cases h

theorem deliver (d : Dev) (r : Nat) (o : Occ) (idx : Nat) (hr : r < 4096) : SameButRecords d (d.deliver r o idx) := by
  unfold Dev.deliver
  dsimp only
  split
  · exact loseRecord d r o hr
  · rename_i hfull
    have hen : d.bit (Reg.ringEnable r) = true := by
      cases hb : d.bit (Reg.ringEnable r) <;> simp [hb] at hfull ⊢
    have hslot : RecordSlot d (d.rd (Reg.ringBase r) + 32 * d.rd (Reg.ringTail r)) :=
      ⟨r, _, hr, hen, .inr rfl, rfl⟩
    split
    · split
      · exact loseRecord d r o hr
      · exact (loseRecord d r o hr).trans (raise _ _)
    · rename_i d1 hst
      have h1 := ringStore hslot (leBytes_length _ _) hst
      have hpos : 0 < d.ringEntries r := Nat.two_pow_pos _
      have hio : ∀ e : Dev, ∀ x y, SameButRecords e { e with io := { e.io with ringLost := x, ringPass := y } } :=
        fun e x y => { refl e with io := rfl }
      have h3 : ∀ rp, SameButRecords d (Dev.wr { d1 with io := { d1.io with
          ringLost := AMap.set 0 d1.io.ringLost r 0, ringPass := rp } } (Reg.ringTail r)
          ((d.rd (Reg.ringTail r) + 1) % d.ringEntries r)) := fun rp =>
        (h1.trans (hio d1 _ rp)).trans (wrTail _ r _ hr (by
          rw [(h1.trans (hio d1 _ rp)).ringEntries r hr]; exact Nat.mod_lt _ hpos))
      repeat' split
      all_goals first
        | exact h3 _
        | exact (h3 _).trans (activate _ r hr)

theorem process (d : Dev) (o : Occ) : SameButRecords d (d.process o) := by
  have h1 : SameButRecords d (d.bump (Reg.srcCount (o.source % 512))) :=
    wr d _ _ (record_srcCount _ (Nat.mod_lt _ (by decide))) fun q _ =>
      tail_ne _ q (by simp [Reg.srcCount]) (.inr (.inl (by simp only [Reg.srcCount]; omega)))
  have h2 : SameButRecords d (if admitted o then (d.bump (Reg.srcCount (o.source % 512))).logFault o
      else (0xFFFFFFFF, d.bump (Reg.srcCount (o.source % 512)))).2 := by
    split
    · exact h1.trans (logFault _ o)
    · exact h1
  unfold Dev.process
  dsimp only
  revert h2
  generalize (if admitted o then (d.bump (Reg.srcCount (o.source % 512))).logFault o
      else (0xFFFFFFFF, d.bump (Reg.srcCount (o.source % 512)))) = p
  obtain ⟨idx, e⟩ := p
  intro h2
  dsimp only at h2 ⊢
  split
  · exact h2
  · split
    · split
      · rename_i hr
        simp only [Bool.and_eq_true, decide_eq_true_eq] at hr
        exact h2.trans (deliver _ _ o _ hr.1)
      · exact h2
    · split
      · exact h2.trans (deliver _ _ o _ (Nat.mod_lt _ (by decide)))
      · exact h2

theorem drain (d : Dev) (work : List Occ) (fuel : Nat) : SameButRecords d (d.drain work fuel) := by
  induction fuel generalizing d work with
  | zero => exact refl d
  | succ n ih =>
    unfold Dev.drain
    split
    · exact refl d
    · exact (((setOcc d []).trans (process _ _)).trans (setOcc _ [])).trans (ih _ _)

/-- The end of a cycle changes nothing but records. -/
theorem closeCycle (d : Dev) : SameButRecords d d.closeCycle :=
  ((((updateDegraded d).trans (setOcc _ [])).trans (drain _ _ _)).trans (updateAlert _)).trans (setOcc _ [])

end Sys2Proof.SameButRecords
end

