-- ==== Sys2Proof/Laws/Exec.lean ====
section
/-! SUPPORT. What a command and a step come to: every command answers a next state whose device has closed its cycle. -/
namespace Sys2Proof.Laws
open Sys2Proof.Machine

theorem exec_identify (r : Rhoic) (s : State) : exec (.identify r) s = Sys2Proof.Machine.execIdentify r s := rfl
theorem exec_status (r : Rhoic) (s : State) : exec (.status r) s = Sys2Proof.Machine.execStatus r s := rfl
theorem exec_setModeSplit (r : Rhoic) (s : State) : exec (.setModeSplit r) s = Sys2Proof.Machine.execSetModeSplit r s := rfl
theorem exec_setPowerState (r : Rhoic) (s : State) : exec (.setPowerState r) s = Sys2Proof.Machine.execSetPowerState r s := rfl
theorem exec_createQueue (r : Rhoic) (s : State) : exec (.createQueue r) s = Sys2Proof.Machine.execCreateQueue r s := rfl
theorem exec_deleteQueue (r : Rhoic) (s : State) : exec (.deleteQueue r) s = Sys2Proof.Machine.execDeleteQueue r s := rfl
theorem exec_loadImage (r : Rhoic) (s : State) : exec (.loadImage r) s = Sys2Proof.Machine.execLoadImage r s := rfl
theorem exec_patch (r : Rhoic) (s : State) : exec (.patch r) s = Sys2Proof.Machine.execPatch r s := rfl
theorem exec_activateImage (r : Rhoic) (s : State) : exec (.activateImage r) s = Sys2Proof.Machine.execActivateImage r s := rfl
theorem exec_imageActivated (s : State) : exec (.imageActivated) s = Sys2Proof.Machine.execImageActivated s := rfl
theorem exec_stageWeights (r : Rhoic) (s : State) : exec (.stageWeights r) s = Sys2Proof.Machine.execStageWeights r s := rfl
theorem exec_weightsStaged (s : State) : exec (.weightsStaged) s = Sys2Proof.Machine.execWeightsStaged s := rfl
theorem exec_swapWeights (r : Rhoic) (s : State) : exec (.swapWeights r) s = Sys2Proof.Machine.execSwapWeights r s := rfl
theorem exec_swapCopyDone (s : State) : exec (.swapCopyDone) s = Sys2Proof.Machine.execSwapCopyDone s := rfl
theorem exec_weightCopyDone (s : State) : exec (.weightCopyDone) s = Sys2Proof.Machine.execWeightCopyDone s := rfl
theorem exec_registerSeed (r : Rhoic) (s : State) : exec (.registerSeed r) s = Sys2Proof.Machine.execRegisterSeed r s := rfl
theorem exec_openStream (r : Rhoic) (s : State) : exec (.openStream r) s = Sys2Proof.Machine.execOpenStream r s := rfl
theorem exec_appendTokens (r : Rhoic) (s : State) : exec (.appendTokens r) s = Sys2Proof.Machine.execAppendTokens r s := rfl
theorem exec_appendText (r : Rhoic) (s : State) : exec (.appendText r) s = Sys2Proof.Machine.execAppendText r s := rfl
theorem exec_generate (r : Rhoic) (s : State) : exec (.generate r) s = Sys2Proof.Machine.execGenerate r s := rfl
theorem exec_cancel (r : Rhoic) (s : State) : exec (.cancel r) s = Sys2Proof.Machine.execCancel r s := rfl
theorem exec_closeStream (r : Rhoic) (s : State) : exec (.closeStream r) s = Sys2Proof.Machine.execCloseStream r s := rfl
theorem exec_definePrefix (r : Rhoic) (s : State) : exec (.definePrefix r) s = Sys2Proof.Machine.execDefinePrefix r s := rfl
theorem exec_releasePrefix (r : Rhoic) (s : State) : exec (.releasePrefix r) s = Sys2Proof.Machine.execReleasePrefix r s := rfl
theorem exec_streamSet (r : Rhoic) (s : State) : exec (.streamSet r) s = Sys2Proof.Machine.execStreamSet r s := rfl
theorem exec_streamRead (r : Rhoic) (s : State) : exec (.streamRead r) s = Sys2Proof.Machine.execStreamRead r s := rfl
theorem exec_scheduleWave (r : Rhoic) (s : State) : exec (.scheduleWave r) s = Sys2Proof.Machine.execScheduleWave r s := rfl
theorem exec_setBudget (r : Rhoic) (s : State) : exec (.setBudget r) s = Sys2Proof.Machine.execSetBudget r s := rfl
theorem exec_queryUsage (r : Rhoic) (s : State) : exec (.queryUsage r) s = Sys2Proof.Machine.execQueryUsage r s := rfl
theorem exec_readDram (r : Rhoic) (s : State) : exec (.readDram r) s = Sys2Proof.Machine.execReadDram r s := rfl
theorem exec_writeDram (r : Rhoic) (s : State) : exec (.writeDram r) s = Sys2Proof.Machine.execWriteDram r s := rfl
theorem exec_pageMigrate (r : Rhoic) (s : State) : exec (.pageMigrate r) s = Sys2Proof.Machine.execPageMigrate r s := rfl
theorem exec_pageDrop (r : Rhoic) (s : State) : exec (.pageDrop r) s = Sys2Proof.Machine.execPageDrop r s := rfl
theorem exec_join (r : Rhoic) (s : State) : exec (.join r) s = Sys2Proof.Machine.execJoin r s := rfl
theorem exec_foundSystem (s : State) : exec (.foundSystem) s = Sys2Proof.Machine.execFoundSystem s := rfl
theorem exec_leave (r : Rhoic) (s : State) : exec (.leave r) s = Sys2Proof.Machine.execLeave r s := rfl
theorem exec_setRole (r : Rhoic) (s : State) : exec (.setRole r) s = Sys2Proof.Machine.execSetRole r s := rfl
theorem exec_forwardWeights (r : Rhoic) (s : State) : exec (.forwardWeights r) s = Sys2Proof.Machine.execForwardWeights r s := rfl
theorem exec_loupeRun (r : Rhoic) (s : State) : exec (.loupeRun r) s = Sys2Proof.Machine.execLoupeRun r s := rfl
theorem exec_inclusionReport (r : Rhoic) (s : State) : exec (.inclusionReport r) s = Sys2Proof.Machine.execInclusionReport r s := rfl
theorem exec_faultRead (r : Rhoic) (s : State) : exec (.faultRead r) s = Sys2Proof.Machine.execFaultRead r s := rfl
theorem exec_attest (r : Rhoic) (s : State) : exec (.attest r) s = Sys2Proof.Machine.execAttest r s := rfl
theorem exec_rotateKey (r : Rhoic) (s : State) : exec (.rotateKey r) s = Sys2Proof.Machine.execRotateKey r s := rfl
theorem exec_humAuth (r : Rhoic) (s : State) : exec (.humAuth r) s = Sys2Proof.Machine.execHumAuth r s := rfl
theorem exec_opcodeUnknown (r : Rhoic) (s : State) : exec (.opcodeUnknown r) s = Sys2Proof.Machine.execOpcodeUnknown r s := rfl
theorem exec_getVersion (m : Spdm) (s : State) : exec (.getVersion m) s = Sys2Proof.Machine.execGetVersion m s := rfl
theorem exec_getCapabilities (m : Spdm) (s : State) : exec (.getCapabilities m) s = Sys2Proof.Machine.execGetCapabilities m s := rfl
theorem exec_negotiateAlgorithms (m : Spdm) (s : State) : exec (.negotiateAlgorithms m) s = Sys2Proof.Machine.execNegotiateAlgorithms m s := rfl
theorem exec_getDigests (m : Spdm) (s : State) : exec (.getDigests m) s = Sys2Proof.Machine.execGetDigests m s := rfl
theorem exec_getCertificate (m : Spdm) (s : State) : exec (.getCertificate m) s = Sys2Proof.Machine.execGetCertificate m s := rfl
theorem exec_challenge (m : Spdm) (s : State) : exec (.challenge m) s = Sys2Proof.Machine.execChallenge m s := rfl
theorem exec_getMeasurements (m : Spdm) (s : State) : exec (.getMeasurements m) s = Sys2Proof.Machine.execGetMeasurements m s := rfl
theorem exec_spdmUnsupportedRequest (m : Spdm) (s : State) : exec (.spdmUnsupportedRequest m) s = Sys2Proof.Machine.execSpdmUnsupportedRequest m s := rfl
theorem exec_pldmFirmwareUpdate (image : List Byte) (s : State) : exec (.pldmFirmwareUpdate image) s = Sys2Proof.Machine.execPldmFirmwareUpdate image s := rfl
theorem exec_activateFirmware (selfContained : Bool) (s : State) : exec (.activateFirmware selfContained) s = Sys2Proof.Machine.execActivateFirmware selfContained s := rfl
theorem exec_pldmMonitoring (sensor : Nat) (s : State) : exec (.pldmMonitoring sensor) s = Sys2Proof.Machine.execPldmMonitoring sensor s := rfl
theorem exec_mctpControl (m : MctpCtl) (s : State) : exec (.mctpControl m) s = Sys2Proof.Machine.execMctpControl m s := rfl
theorem exec_matmulTable (t : Nat) (d : Desc) (m : Met) (s : State) : exec (.matmulTable t d m) s = Sys2Proof.Machine.execMatmulTable t d m s := rfl
theorem exec_matmulDirect (t : Nat) (d : Desc) (m : Met) (s : State) : exec (.matmulDirect t d m) s = Sys2Proof.Machine.execMatmulDirect t d m s := rfl
theorem exec_logProduct (t : Nat) (d : Desc) (m : Met) (s : State) : exec (.logProduct t d m) s = Sys2Proof.Machine.execLogProduct t d m s := rfl
theorem exec_reduce (t : Nat) (d : Desc) (m : Met) (s : State) : exec (.reduce t d m) s = Sys2Proof.Machine.execReduce t d m s := rfl
theorem exec_requant (t : Nat) (d : Desc) (m : Met) (s : State) : exec (.requant t d m) s = Sys2Proof.Machine.execRequant t d m s := rfl
theorem exec_facetOp (t : Nat) (d : Desc) (m : Met) (s : State) : exec (.facetOp t d m) s = Sys2Proof.Machine.execFacetOp t d m s := rfl
theorem exec_sample (t : Nat) (d : Desc) (m : Met) (s : State) : exec (.sample t d m) s = Sys2Proof.Machine.execSample t d m s := rfl
theorem exec_send (t : Nat) (d : Desc) (m : Met) (s : State) : exec (.send t d m) s = Sys2Proof.Machine.execSend t d m s := rfl
theorem exec_recv (t : Nat) (d : Desc) (m : Met) (s : State) : exec (.recv t d m) s = Sys2Proof.Machine.execRecv t d m s := rfl
theorem exec_dramRead (t : Nat) (d : Desc) (m : Met) (s : State) : exec (.dramRead t d m) s = Sys2Proof.Machine.execDramRead t d m s := rfl
theorem exec_dramWrite (t : Nat) (d : Desc) (m : Met) (s : State) : exec (.dramWrite t d m) s = Sys2Proof.Machine.execDramWrite t d m s := rfl
theorem exec_kvFetch (t : Nat) (d : Desc) (m : Met) (s : State) : exec (.kvFetch t d m) s = Sys2Proof.Machine.execKvFetch t d m s := rfl
theorem exec_kvStore (t : Nat) (d : Desc) (m : Met) (s : State) : exec (.kvStore t d m) s = Sys2Proof.Machine.execKvStore t d m s := rfl
theorem exec_residLoad (t : Nat) (d : Desc) (m : Met) (s : State) : exec (.residLoad t d m) s = Sys2Proof.Machine.execResidLoad t d m s := rfl
theorem exec_residStore (t : Nat) (d : Desc) (m : Met) (s : State) : exec (.residStore t d m) s = Sys2Proof.Machine.execResidStore t d m s := rfl
theorem exec_waitToken (t : Nat) (d : Desc) (m : Met) (s : State) : exec (.waitToken t d m) s = Sys2Proof.Machine.execWaitToken t d m s := rfl
theorem exec_fenceFormat (t : Nat) (d : Desc) (m : Met) (s : State) : exec (.fenceFormat t d m) s = Sys2Proof.Machine.execFenceFormat t d m s := rfl
theorem exec_endSection (t : Nat) (d : Desc) (m : Met) (s : State) : exec (.endSection t d m) s = Sys2Proof.Machine.execEndSection t d m s := rfl
theorem exec_opcodeInvalid (t : Nat) (d : Desc) (m : Met) (s : State) : exec (.opcodeInvalid t d m) s = Sys2Proof.Machine.execOpcodeInvalid t d m s := rfl
theorem exec_tokenDone (t : Nat) (token : Nat) (badLine : Option Nat) (s : State) : exec (.tokenDone t token badLine) s = Sys2Proof.Machine.execTokenDone t token badLine s := rfl
theorem exec_beatWatchdog (t : Nat) (s : State) : exec (.beatWatchdog t) s = Sys2Proof.Machine.execBeatWatchdog t s := rfl
theorem exec_flitReceive (f : Flit) (s : State) : exec (.flitReceive f) s = Sys2Proof.Machine.execFlitReceive f s := rfl
theorem exec_linkDown (t : Nat) (dir : Nat) (s : State) : exec (.linkDown t dir) s = Sys2Proof.Machine.execLinkDown t dir s := rfl
theorem exec_packetAgePromote (id : Nat) (s : State) : exec (.packetAgePromote id) s = Sys2Proof.Machine.execPacketAgePromote id s := rfl
theorem exec_livenessFlit (t : Nat) (dir : Nat) (heard : Bool) (s : State) : exec (.livenessFlit t dir heard) s = Sys2Proof.Machine.execLivenessFlit t dir heard s := rfl
theorem exec_tileDead (t : Nat) (linksDown : Bool) (s : State) : exec (.tileDead t linksDown) s = Sys2Proof.Machine.execTileDead t linksDown s := rfl
theorem exec_issueResumed (us : Nat) (s : State) : exec (.issueResumed us) s = Sys2Proof.Machine.execIssueResumed us s := rfl
theorem exec_beatBoundary (cycle : Nat) (s : State) : exec (.beatBoundary cycle) s = Sys2Proof.Machine.execBeatBoundary cycle s := rfl
theorem exec_freqChanged (failed : List Nat) (s : State) : exec (.freqChanged failed) s = Sys2Proof.Machine.execFreqChanged failed s := rfl
theorem exec_inclusionSample (x : SampleInfo) (s : State) : exec (.inclusionSample x) s = Sys2Proof.Machine.execInclusionSample x s := rfl
theorem exec_inclusionCheck (t : Nat) (x : CheckInfo) (s : State) : exec (.inclusionCheck t x) s = Sys2Proof.Machine.execInclusionCheck t x s := rfl
theorem exec_inclusionSkipped (t : Nat) (s : State) : exec (.inclusionSkipped t) s = Sys2Proof.Machine.execInclusionSkipped t s := rfl
theorem exec_rebuildChunk (stripe : Nat) (copyBad : Bool) (s : State) : exec (.rebuildChunk stripe copyBad) s = Sys2Proof.Machine.execRebuildChunk stripe copyBad s := rfl
theorem exec_girdleRebuilt (stripe : Nat) (s : State) : exec (.girdleRebuilt stripe) s = Sys2Proof.Machine.execGirdleRebuilt stripe s := rfl
theorem exec_girdleAudit (stripe : Nat) (chunk : Nat) (copyBad : Bool) (s : State) : exec (.girdleAudit stripe chunk copyBad) s = Sys2Proof.Machine.execGirdleAudit stripe chunk copyBad s := rfl
theorem exec_memoryTierScrub (site : Nat) (found : PageRead) (s : State) : exec (.memoryTierScrub site found) s = Sys2Proof.Machine.execMemoryTierScrub site found s := rfl
theorem exec_hbmPatrolScrub (stack : Nat) (raw : List Byte) (miscorrected : Option (List Byte)) (s : State) : exec (.hbmPatrolScrub stack raw miscorrected) s = Sys2Proof.Machine.execHbmPatrolScrub stack raw miscorrected s := rfl
theorem exec_hbmStackLost (stack : Nat) (cause : Nat) (s : State) : exec (.hbmStackLost stack cause) s = Sys2Proof.Machine.execHbmStackLost stack cause s := rfl
theorem exec_hbmRemapDone (s : State) : exec (.hbmRemapDone) s = Sys2Proof.Machine.execHbmRemapDone s := rfl
theorem exec_telemetry (s : State) : exec (.telemetry) s = Sys2Proof.Machine.execTelemetry s := rfl
theorem exec_oscCalibration (field : Nat) (trim : Nat) (s : State) : exec (.oscCalibration field trim) s = Sys2Proof.Machine.execOscCalibration field trim s := rfl
theorem exec_sensorCalibration (field : Nat) (s : State) : exec (.sensorCalibration field) s = Sys2Proof.Machine.execSensorCalibration field s := rfl
theorem exec_journalAppend (bytes : Nat) (s : State) : exec (.journalAppend bytes) s = Sys2Proof.Machine.execJournalAppend bytes s := rfl
theorem exec_journalPackageLost (pkg : Nat) (s : State) : exec (.journalPackageLost pkg) s = Sys2Proof.Machine.execJournalPackageLost pkg s := rfl
theorem exec_rimCoreLost (core : Nat) (s : State) : exec (.rimCoreLost core) s = Sys2Proof.Machine.execRimCoreLost core s := rfl
theorem exec_doorbell (path : Nat) (qp : Nat) (val : Word) (s : State) : exec (.doorbell path qp val) s = Sys2Proof.Machine.execDoorbell path qp val s := rfl
theorem exec_queueEnable (qp : Nat) (a : RegAcc) (s : State) : exec (.queueEnable qp a) s = Sys2Proof.Machine.execQueueEnable qp a s := rfl
theorem exec_completionRecordWrite (qp : Nat) (s : State) : exec (.completionRecordWrite qp) s = Sys2Proof.Machine.execCompletionRecordWrite qp s := rfl
theorem exec_evtEoi (a : RegAcc) (s : State) : exec (.evtEoi a) s = Sys2Proof.Machine.execEvtEoi a s := rfl
theorem exec_bankEoi (core : Nat) (a : RegAcc) (s : State) : exec (.bankEoi core a) s = Sys2Proof.Machine.execBankEoi core a s := rfl
theorem exec_evtRaise (a : RegAcc) (s : State) : exec (.evtRaise a) s = Sys2Proof.Machine.execEvtRaise a s := rfl
theorem exec_eventRingEnable (ring : Nat) (a : RegAcc) (s : State) : exec (.eventRingEnable ring a) s = Sys2Proof.Machine.execEventRingEnable ring a s := rfl
theorem exec_eventRingHeadWrite (ring : Nat) (a : RegAcc) (s : State) : exec (.eventRingHeadWrite ring a) s = Sys2Proof.Machine.execEventRingHeadWrite ring a s := rfl
theorem exec_routeWrite (source : Nat) (a : RegAcc) (s : State) : exec (.routeWrite source a) s = Sys2Proof.Machine.execRouteWrite source a s := rfl
theorem exec_aonEdge (bit : Nat) (s : State) : exec (.aonEdge bit) s = Sys2Proof.Machine.execAonEdge bit s := rfl
theorem exec_rcRead (a : RegAcc) (s : State) : exec (.rcRead a) s = Sys2Proof.Machine.execRcRead a s := rfl
theorem exec_registerWrite (a : RegAcc) (s : State) : exec (.registerWrite a) s = Sys2Proof.Machine.execRegisterWrite a s := rfl
theorem exec_deviceReset (a : RegAcc) (s : State) : exec (.deviceReset a) s = Sys2Proof.Machine.execDeviceReset a s := rfl
theorem exec_freqStepWrite (a : RegAcc) (s : State) : exec (.freqStepWrite a) s = Sys2Proof.Machine.execFreqStepWrite a s := rfl
theorem exec_mirrorGibWrite (a : RegAcc) (s : State) : exec (.mirrorGibWrite a) s = Sys2Proof.Machine.execMirrorGibWrite a s := rfl
theorem exec_bar4BaseWrite (a : RegAcc) (s : State) : exec (.bar4BaseWrite a) s = Sys2Proof.Machine.execBar4BaseWrite a s := rfl
theorem exec_hostWinBaseWrite (a : RegAcc) (s : State) : exec (.hostWinBaseWrite a) s = Sys2Proof.Machine.execHostWinBaseWrite a s := rfl
theorem exec_tileWindowAccess (a : WinAcc) (s : State) : exec (.tileWindowAccess a) s = Sys2Proof.Machine.execTileWindowAccess a s := rfl
theorem exec_bar4Access (a : WinAcc) (s : State) : exec (.bar4Access a) s = Sys2Proof.Machine.execBar4Access a s := rfl
theorem exec_diagSlotAccess (a : WinAcc) (s : State) : exec (.diagSlotAccess a) s = Sys2Proof.Machine.execDiagSlotAccess a s := rfl
theorem exec_powerOn (feed : Nat) (s : State) : exec (.powerOn feed) s = Sys2Proof.Machine.execPowerOn feed s := rfl
theorem exec_stageReached (info : StageInfo) (s : State) : exec (.stageReached info) s = Sys2Proof.Machine.execStageReached info s := rfl
theorem exec_pcieReset (kind : Nat) (s : State) : exec (.pcieReset kind) s = Sys2Proof.Machine.execPcieReset kind s := rfl
theorem exec_pcieLinkTrained (s : State) : exec (.pcieLinkTrained) s = Sys2Proof.Machine.execPcieLinkTrained s := rfl
theorem exec_p1Entry (s : State) : exec (.p1Entry) s = Sys2Proof.Machine.execP1Entry s := rfl
theorem exec_pstateChanged (s : State) : exec (.pstateChanged) s = Sys2Proof.Machine.execPstateChanged s := rfl
theorem exec_feedLost (feed : Nat) (overVolt : Bool) (energyJ : Nat) (watts : Nat) (s : State) : exec (.feedLost feed overVolt energyJ watts) s = Sys2Proof.Machine.execFeedLost feed overVolt energyJ watts s := rfl
theorem exec_feedRestored (feed : Nat) (s : State) : exec (.feedRestored feed) s = Sys2Proof.Machine.execFeedRestored feed s := rfl
theorem exec_preserve (s : State) : exec (.preserve) s = Sys2Proof.Machine.execPreserve s := rfl
theorem exec_fieldTrip (field : Nat) (cause : Nat) (s : State) : exec (.fieldTrip field cause) s = Sys2Proof.Machine.execFieldTrip field cause s := rfl
theorem exec_fieldUndervolt (field : Nat) (s : State) : exec (.fieldUndervolt field) s = Sys2Proof.Machine.execFieldUndervolt field s := rfl
theorem exec_regPhaseLost (rail : Nat) (phase : Nat) (s : State) : exec (.regPhaseLost rail phase) s = Sys2Proof.Machine.execRegPhaseLost rail phase s := rfl
theorem exec_voltageUpdate (field : Nat) (tiles : List VoltRead) (amps : Nat) (s : State) : exec (.voltageUpdate field tiles amps) s = Sys2Proof.Machine.execVoltageUpdate field tiles amps s := rfl
theorem exec_suspectedBondCrack (t : Nat) (excess : Nat) (s : State) : exec (.suspectedBondCrack t excess) s = Sys2Proof.Machine.execSuspectedBondCrack t excess s := rfl
theorem exec_humChanged (inserted : Option Hum) (s : State) : exec (.humChanged inserted) s = Sys2Proof.Machine.execHumChanged inserted s := rfl
theorem exec_humAlarm (s : State) : exec (.humAlarm) s = Sys2Proof.Machine.execHumAlarm s := rfl
theorem exec_humHealth (mf : Nat) (esrUohm : Nat) (energyJ : Nat) (days : Nat) (s : State) : exec (.humHealth mf esrUohm energyJ days) s = Sys2Proof.Machine.execHumHealth mf esrUohm energyJ days s := rfl
theorem exec_humChallenge (s : State) : exec (.humChallenge) s = Sys2Proof.Machine.execHumChallenge s := rfl
theorem exec_oscUnlock (field : Nat) (s : State) : exec (.oscUnlock field) s = Sys2Proof.Machine.execOscUnlock field s := rfl
theorem exec_oscInjectLost (field : Nat) (s : State) : exec (.oscInjectLost field) s = Sys2Proof.Machine.execOscInjectLost field s := rfl
theorem exec_oscRelock (field : Nat) (ok : Bool) (s : State) : exec (.oscRelock field ok) s = Sys2Proof.Machine.execOscRelock field ok s := rfl
theorem exec_tempSample (x : TempSample) (s : State) : exec (.tempSample x) s = Sys2Proof.Machine.execTempSample x s := rfl
theorem exec_sensorFault (t : Nat) (s : State) : exec (.sensorFault t) s = Sys2Proof.Machine.execSensorFault t s := rfl
theorem exec_throttleUpdate (x : DutySample) (s : State) : exec (.throttleUpdate x) s = Sys2Proof.Machine.execThrottleUpdate x s := rfl
theorem exec_rthUpdate (field : Nat) (s : State) : exec (.rthUpdate field) s = Sys2Proof.Machine.execRthUpdate field s := rfl
theorem exec_fieldOvertemp (t : Nat) (s : State) : exec (.fieldOvertemp t) s = Sys2Proof.Machine.execFieldOvertemp t s := rfl
theorem exec_coolantLost (which : Nat) (s : State) : exec (.coolantLost which) s = Sys2Proof.Machine.execCoolantLost which s := rfl
theorem exec_stepSyncPulse (cycle : Nat) (s : State) : exec (.stepSyncPulse cycle) s = Sys2Proof.Machine.execStepSyncPulse cycle s := rfl
theorem exec_stepSyncLost (s : State) : exec (.stepSyncLost) s = Sys2Proof.Machine.execStepSyncLost s := rfl
theorem exec_ppsIn (highNs : Nat) (s : State) : exec (.ppsIn highNs) s = Sys2Proof.Machine.execPpsIn highNs s := rfl
theorem exec_alertNAttention (lowNs : Nat) (s : State) : exec (.alertNAttention lowNs) s = Sys2Proof.Machine.execAlertNAttention lowNs s := rfl
theorem exec_ptpMessage (x : PtpSample) (s : State) : exec (.ptpMessage x) s = Sys2Proof.Machine.execPtpMessage x s := rfl
theorem exec_portDown (port : Nat) (fec : Bool) (s : State) : exec (.portDown port fec) s = Sys2Proof.Machine.execPortDown port fec s := rfl
theorem exec_portUp (port : Nat) (s : State) : exec (.portUp port) s = Sys2Proof.Machine.execPortUp port s := rfl
theorem exec_narlasData (p : NPkt) (s : State) : exec (.narlasData p) s = Sys2Proof.Machine.execNarlasData p s := rfl
theorem exec_ack (p : NPkt) (s : State) : exec (.ack p) s = Sys2Proof.Machine.execAck p s := rfl
theorem exec_nack (p : NPkt) (s : State) : exec (.nack p) s = Sys2Proof.Machine.execNack p s := rfl
theorem exec_probe (p : NPkt) (s : State) : exec (.probe p) s = Sys2Proof.Machine.execProbe p s := rfl
theorem exec_control (p : NPkt) (m : Ctl) (s : State) : exec (.control p m) s = Sys2Proof.Machine.execControl p m s := rfl
theorem exec_ackTimer (peer : Nat) (s : State) : exec (.ackTimer peer) s = Sys2Proof.Machine.execAckTimer peer s := rfl
theorem exec_pathRetransmit (peer : Nat) (path : Nat) (s : State) : exec (.pathRetransmit peer path) s = Sys2Proof.Machine.execPathRetransmit peer path s := rfl
theorem exec_peerUnreachable (peer : Nat) (s : State) : exec (.peerUnreachable peer) s = Sys2Proof.Machine.execPeerUnreachable peer s := rfl
theorem exec_peerLost (peer : Nat) (s : State) : exec (.peerLost peer) s = Sys2Proof.Machine.execPeerLost peer s := rfl
theorem exec_coordinatorUnreachable (s : State) : exec (.coordinatorUnreachable) s = Sys2Proof.Machine.execCoordinatorUnreachable s := rfl
theorem exec_assocKeyExchange (m : AssocMsg) (s : State) : exec (.assocKeyExchange m) s = Sys2Proof.Machine.execAssocKeyExchange m s := rfl
theorem exec_rekey (peer : Nat) (s : State) : exec (.rekey peer) s = Sys2Proof.Machine.execRekey peer s := rfl
theorem exec_waveHandoff (h : Handoff) (s : State) : exec (.waveHandoff h) s = Sys2Proof.Machine.execWaveHandoff h s := rfl
theorem exec_journalRecord (j : JRec) (s : State) : exec (.journalRecord j) s = Sys2Proof.Machine.execJournalRecord j s := rfl
theorem exec_journalAcknowledge (src : Nat) (stream : Nat) (num : Nat) (s : State) : exec (.journalAcknowledge src stream num) s = Sys2Proof.Machine.execJournalAcknowledge src stream num s := rfl
theorem exec_streamMigrated (stream : Nat) (target : Nat) (index : Nat) (s : State) : exec (.streamMigrated stream target index) s = Sys2Proof.Machine.execStreamMigrated stream target index s := rfl
theorem exec_weightChunk (src : Nat) (version : Nat) (offset : Nat) (data : List Byte) (s : State) : exec (.weightChunk src version offset data) s = Sys2Proof.Machine.execWeightChunk src version offset data s := rfl
theorem exec_prefixLeaseExpiry (index : Nat) (s : State) : exec (.prefixLeaseExpiry index) s = Sys2Proof.Machine.execPrefixLeaseExpiry index s := rfl
theorem exec_probeReply (peer : Nat) (path : Nat) (s : State) : exec (.probeReply peer path) s = Sys2Proof.Machine.execProbeReply peer path s := rfl
theorem exec_humAlarmReleased (s : State) : exec (.humAlarmReleased) s = Sys2Proof.Machine.execHumAlarmReleased s := rfl
theorem exec_loupeReferenceDone (s : State) : exec (.loupeReferenceDone) s = Sys2Proof.Machine.execLoupeReferenceDone s := rfl
theorem exec_patchCopyDone (s : State) : exec (.patchCopyDone) s = Sys2Proof.Machine.execPatchCopyDone s := rfl
theorem exec_previousKeyExpiry (peer : Nat) (s : State) : exec (.previousKeyExpiry peer) s = Sys2Proof.Machine.execPreviousKeyExpiry peer s := rfl
theorem exec_cableModuleDetected (port : Nat) (kind : Nat) (watts : Nat) (s : State) : exec (.cableModuleDetected port kind watts) s = Sys2Proof.Machine.execCableModuleDetected port kind watts s := rfl

/-- Every command answers a next state: it keeps the queue, and its cycle has been closed. -/
theorem exec_form (c : Instr) (s : State) :
    ∃ (sec : Sec) (d : Dev), exec c s = .next { pending := s.pending, sec := sec, dev := d.closeCycle } := by
  cases c <;> exact ⟨_, _, rfl⟩

/-- So does every step. -/
theorem step_form (s : State) : ∃ (q : List Instr) (sec : Sec) (d : Dev), step s = .next { pending := q, sec := sec, dev := d.closeCycle } := by
  unfold step
  split
  · rename_i c rest _
    obtain ⟨sec, d, h⟩ := exec_form c { s with pending := rest }
    exact ⟨_, sec, d, h⟩
  · split
    · rename_i d c _
      obtain ⟨sec, d, h⟩ := exec_form c { s with dev := d }
      exact ⟨_, sec, d, h⟩
    · exact ⟨_, _, _, rfl⟩

end Sys2Proof.Laws
end

