-- ==== Sys2Proof/Laws/Issue.lean ====
section
/-! SUPPORT. What a descriptor comes to at issue: nothing, what its body does, or an image fault. -/
namespace Sys2Proof.Laws
open Machine

/-- A descriptor that issues and whose body runs leaves what the body leaves. -/
theorem issue_run {d : Dev} {t op : Nat} {desc : Desc} {m : Met} {body : Bool → Nat → Dev → Issue} {e : Dev}
    (h : Issues d t m) (hb : body false (withOp op desc) d = .run e) : d.issue t op desc m body = e := by
  obtain ⟨h1, h2, h3, h4, h5, h6⟩ := h
  unfold Dev.issue Dev.countCorr
  have : (d.seatOf t).isNone = false := by cases hh : d.seatOf t <;> simp_all
  dsimp only
  rw [this, h2, h3, h6, if_neg (by simp), if_neg (by simp), if_neg (by simp)]
  unfold Dev.issueFetched
  dsimp only
  rw [if_neg (by omega)]
  change (match body false (withOp op desc) d with | .refuse c det => _ | .run d1 => _) = e
  rw [hb]
  dsimp only
  rw [h4]

/-- A descriptor that issues and whose body is refused is an image fault. -/
theorem issue_refuse {d : Dev} {t op : Nat} {desc : Desc} {m : Met} {body : Bool → Nat → Dev → Issue} {c det : Nat}
    (h : Issues d t m) (hb : body false (withOp op desc) d = .refuse c det) : d.issue t op desc m body = d.imageFault t c det := by
  obtain ⟨h1, h2, h3, h4, h5, h6⟩ := h
  unfold Dev.issue Dev.countCorr
  have : (d.seatOf t).isNone = false := by cases hh : d.seatOf t <;> simp_all
  dsimp only
  rw [this, h2, h3, h6, if_neg (by simp), if_neg (by simp), if_neg (by simp)]
  unfold Dev.issueFetched
  dsimp only
  rw [if_neg (by omega)]
  change (match body false (withOp op desc) d with | .refuse c det => _ | .run d1 => _) = _
  rw [hb]

/-- A descriptor of a tile whose sequencer takes none changes nothing. -/
theorem issue_off {d : Dev} {t op : Nat} {desc : Desc} {m : Met} {body : Bool → Nat → Dev → Issue}
    (h : d.seatOf t = none ∨ (d.tile t).ready = false) : d.issue t op desc m body = d := by
  unfold Dev.issue
  dsimp only
  rw [if_pos]
  rcases h with h | h <;> simp [h]

theorem issueOr_none {cs : List (Option (Nat × Nat))} {run : Unit → Dev} (h : firstFault cs = none) :
    issueOr cs run = .run (run ()) := by unfold issueOr; rw [h]

theorem issueOr_some {cs : List (Option (Nat × Nat))} {run : Unit → Dev} {f : Nat × Nat} (h : firstFault cs = some f) :
    issueOr cs run = .refuse f.1 f.2 := by unfold issueOr; rw [h]

/-- What a body runs to is what follows its checks. -/
theorem issueOr_run {cs : List (Option (Nat × Nat))} {run : Unit → Dev} {e : Dev} (h : issueOr cs run = .run e) :
    firstFault cs = none ∧ e = run () := by
  unfold issueOr at h
  split at h
  · cases h
  · rename_i hh; exact ⟨hh, by injection h with h; exact h.symm⟩

end Sys2Proof.Laws
end

