-- ==== Sys2Proof/Laws/Parts.lean ====
section
/-! SUPPORT. What is read after a write of one part of the device: a site, a stripe, a channel, a link, a reduction buffer. -/
namespace Sys2Proof.Laws
open Sys2Proof.Machine

theorem site_setSite (d : Dev) (p q : Nat) (x : Site) : (d.setSite p x).site q = if q = p then x else d.site q :=
  get_set ..
@[simp] theorem setSite_regs (d : Dev) (p : Nat) (x : Site) : (d.setSite p x).regs = d.regs := rfl
@[simp] theorem setSite_occ (d : Dev) (p : Nat) (x : Site) : (d.setSite p x).occ = d.occ := rfl
@[simp] theorem setSite_mem (d : Dev) (p : Nat) (x : Site) : (d.setSite p x).mem = d.mem := rfl
@[simp] theorem setSite_mesh (d : Dev) (p : Nat) (x : Site) : (d.setSite p x).mesh = d.mesh := rfl
@[simp] theorem setSite_img (d : Dev) (p : Nat) (x : Site) : (d.setSite p x).img = d.img := rfl
@[simp] theorem setSite_serve (d : Dev) (p : Nat) (x : Site) : (d.setSite p x).serve = d.serve := rfl

theorem stripe_setStripe (d : Dev) (n m : Nat) (x : Stripe) : (d.setStripe n x).stripe m = if m = n then x else d.stripe m :=
  get_set ..
@[simp] theorem setStripe_regs (d : Dev) (n : Nat) (x : Stripe) : (d.setStripe n x).regs = d.regs := rfl
@[simp] theorem setStripe_wafer (d : Dev) (n : Nat) (x : Stripe) : (d.setStripe n x).wafer = d.wafer := rfl
@[simp] theorem setStripe_mesh (d : Dev) (n : Nat) (x : Stripe) : (d.setStripe n x).mesh = d.mesh := rfl
@[simp] theorem setStripe_serve (d : Dev) (n : Nat) (x : Stripe) : (d.setStripe n x).serve = d.serve := rfl
@[simp] theorem setStripe_mem (d : Dev) (n : Nat) (x : Stripe) : (d.setStripe n x).mem = d.mem := rfl

theorem chan_setChan (d : Dev) (c e : Nat) (x : Chan) : (d.setChan c x).chan e = if e = c then x else d.chan e :=
  get_set ..
@[simp] theorem setChan_regs (d : Dev) (c : Nat) (x : Chan) : (d.setChan c x).regs = d.regs := rfl
@[simp] theorem setChan_wafer (d : Dev) (c : Nat) (x : Chan) : (d.setChan c x).wafer = d.wafer := rfl
@[simp] theorem setChan_serve (d : Dev) (c : Nat) (x : Chan) : (d.setChan c x).serve = d.serve := rfl
@[simp] theorem setChan_img (d : Dev) (c : Nat) (x : Chan) : (d.setChan c x).img = d.img := rfl
@[simp] theorem setChan_links (d : Dev) (c : Nat) (x : Chan) : (d.setChan c x).mesh.links = d.mesh.links := rfl
@[simp] theorem setChan_packets (d : Dev) (c : Nat) (x : Chan) : (d.setChan c x).mesh.packets = d.mesh.packets := rfl
@[simp] theorem setChan_tables (d : Dev) (c : Nat) (x : Chan) : (d.setChan c x).mesh.tables = d.mesh.tables := rfl

theorem link_setLink (d : Dev) (t dir u e : Nat) (l : Link) :
    (d.setLink t dir l).link u e = if 4 * u + e = 4 * t + dir then l else d.link u e :=
  get_set ..
@[simp] theorem setLink_regs (d : Dev) (t dir : Nat) (l : Link) : (d.setLink t dir l).regs = d.regs := rfl
@[simp] theorem setLink_wafer (d : Dev) (t dir : Nat) (l : Link) : (d.setLink t dir l).wafer = d.wafer := rfl
@[simp] theorem setLink_serve (d : Dev) (t dir : Nat) (l : Link) : (d.setLink t dir l).serve = d.serve := rfl
@[simp] theorem setLink_img (d : Dev) (t dir : Nat) (l : Link) : (d.setLink t dir l).img = d.img := rfl
@[simp] theorem setLink_chan (d : Dev) (t dir c : Nat) (l : Link) : (d.setLink t dir l).chan c = d.chan c := rfl
@[simp] theorem setLink_packets (d : Dev) (t dir : Nat) (l : Link) : (d.setLink t dir l).mesh.packets = d.mesh.packets := rfl
@[simp] theorem setLink_tables (d : Dev) (t dir : Nat) (l : Link) : (d.setLink t dir l).mesh.tables = d.mesh.tables := rfl

@[simp] theorem setRedBuf_chan (d : Dev) (b : RedBuf) (c : Nat) : (d.setRedBuf b).chan c = d.chan c := rfl
@[simp] theorem setRedBuf_wafer (d : Dev) (b : RedBuf) : (d.setRedBuf b).wafer = d.wafer := rfl
@[simp] theorem setRedBuf_regs (d : Dev) (b : RedBuf) : (d.setRedBuf b).regs = d.regs := rfl

/-- A tile's program changes its own site alone. -/
theorem onTile_site (d : Dev) (t q : Nat) (f : Site → Site) (h : some q ≠ d.seatOf t) : (d.onTile t f).site q = d.site q := by
  unfold Dev.onTile
  cases hs : d.seatOf t with
  | none => rfl
  | some p =>
    have : q ≠ p := fun e => h (by rw [hs, e])
    simp [site_setSite, this]

/-- The state that a link's passing leaves: its counter behind the slot used, its failures cleared, at most eight flits in replay and FIFO, and nothing else of the mesh. -/
theorem passLink_link (d : Dev) (t dir : Nat) (k : FlitKind) :
    ((d.passLink t dir k).link t dir).inRow = 0 ∧ ((d.passLink t dir k).link t dir).frame = (d.slotFor t dir k + 1) % 64 ∧
      ((d.passLink t dir k).link t dir).replay.length ≤ 8 ∧ ((d.passLink t dir k).link t dir).fifo.length ≤ 8 := by
  unfold Dev.passLink
  simp only [link_setLink, if_true]
  refine ⟨trivial, trivial, ?_, ?_⟩ <;> exact List.length_take_le ..

@[simp] theorem passLink_chan (d : Dev) (t dir c : Nat) (k : FlitKind) : (d.passLink t dir k).chan c = d.chan c := rfl
@[simp] theorem passLink_packets (d : Dev) (t dir : Nat) (k : FlitKind) : (d.passLink t dir k).mesh.packets = d.mesh.packets := rfl

end Sys2Proof.Laws
end

