-- ==== Sys2Proof/Laws/Rhoic.lean ====
section
/-! SUPPORT. What a Rhoic command comes to once it passes the common checks (12 R297-R312). -/
namespace Sys2Proof.Laws
open Sys2Proof.Machine

/-- A command that starts comes to what its own start says. -/
theorem rhoic_of_starts {d : Dev} {row : Row} {objs : List Obj} {r : Rhoic} (h : Starts d row objs r) (start : Dev → Start) :
    d.rhoic row objs r start = Dev.settle row.op objs ((d.fetched r).2.accept r) (d.fetched r).1 (start (d.fetched r).2) := by
  obtain ⟨h1, h2, h3⟩ := h
  unfold Dev.rhoic
  generalize hf : d.fetched r = p at *
  obtain ⟨k, e⟩ := p
  simp only [h1, Bool.not_true, Bool.false_eq_true, if_false] at h2 h3 ⊢
  rw [h2]
  simp only [h3, Bool.false_eq_true, if_false]

/-- A command of a pair that does not fetch changes nothing (12 R311). -/
theorem rhoic_of_off {d : Dev} {row : Row} {objs : List Obj} {r : Rhoic} (h : d.mayTake r = false) (start : Dev → Start) :
    d.rhoic row objs r start = d := by simp [Dev.rhoic, h]

/-- A refused command is answered and does nothing else (12 R312). -/
theorem rhoic_of_refused {d : Dev} {row : Row} {objs : List Obj} {r : Rhoic} {p : Reply} (h : d.mayTake r = true)
    (hp : (d.fetched r).2.refusal row r = some p) (start : Dev → Start) :
    d.rhoic row objs r start = (d.fetched r).2.reply r (d.fetched r).1.1 p := by
  unfold Dev.rhoic
  generalize hf : d.fetched r = q at *
  obtain ⟨k, e⟩ := q
  simp only [h, Bool.not_true, Bool.false_eq_true, if_false] at hp ⊢
  rw [hp]

/-- What the buffer output of a command comes to (12 R297). -/
theorem settle_bufOut (s : State) (op : Nat) (objs : List Obj) (r : Rhoic) (d : Dev) (a : Nat) (bs : List Byte) (p : Reply) :
    s.next (Dev.settle op objs (accepted s r) (s.dev.fetched r).1 (d.bufOut r a bs p)) = Delivers s r a bs p d := by
  unfold Dev.bufOut Delivers Completes
  cases d.isInline r a
  · simp only [Bool.false_eq_true, if_false]
    generalize d.cmdWrite r.qp a bs = w
    obtain ⟨st, det, e⟩ := w
    dsimp only
    split <;> rfl
  · rfl

end Sys2Proof.Laws
end

