-- ==== Sys2Proof/Tests/Slice0.lean ====
section
/-! SUPPORT. Tests: ill-formed commands are refused, single steps on small states give what the spec says, and witnesses that the hypotheses of the statements can be met. -/
namespace Sys2Proof.Tests
open Sys2Proof.Machine
set_option Elab.async false

/-- A packet from its opcode and (offset, value) pairs. -/
def pk (op : Nat) (fs : List (Nat × Nat)) : BitVec 512 :=
  BitVec.ofNat 512 (fs.foldl (fun n f => n + f.2 * 256 ^ f.1) op)

/-- A command on queue pair 0. -/
def m0 (op : Nat) (fs : List (Nat × Nat)) (inl : List Byte := []) : Rhoic := { qp := 0, pkt := pk op fs, inl := inl }

/-- A command on queue pair 1. -/
def h1 (op : Nat) (fs : List (Nat × Nat)) : Rhoic := { qp := 1, pkt := pk op ((2, 1) :: fs) }

/-- The block as it stands. -/
def st (d : Dev) : State := { State.reset with dev := d }

/-- A block at bring-up stage B7 with its PCIe link up. -/
def up : Dev := { Dev.reset with io := { Dev.reset.io with pcieUp := true } }.wr Reg.stage 7

/-- With queue pair 1 in use, of class host, on PCIe, with rings of 16 entries. -/
def up1 : Dev := ((((up.wr (Reg.qEnable 1) 1).wr (Reg.qClass 1) 2).wr (Reg.sqSize 1) 3).wr (Reg.cqSize 1) 3).wr (Reg.cqBase 1) 0x1030000000

/-- An image of one stage with one tile, one region and one stripe of two members. -/
def im0 : Image :=
  { modelId := 7, weightVersion := 3, beatCycles := 4096, hash := [1],
    tiles := [{ tile := 0, role := 0, progBase := 0x40000, progBytes := 0x400, dataTop := 0x40000, wOffset := 0, wBytes := 64, prog := [] }],
    regions := [{ num := 1, kind := 1, size := 4096, base := 0x1000000000 }] }

/-- With that image active. -/
def act (d : Dev) : Dev := { d with img := { d.img with active := some im0, everActive := true } }.wr Reg.imageState 1

/-- With an image loaded. -/
def lod (d : Dev) : Dev := { d with img := { d.img with loaded := some im0 } }

/-- With stream 5 as given. -/
def strm (d : Dev) (x : Stream) : Dev := { d with serve := { d.serve with streams := [(5, x)] } }

/-! Witnesses: every hypothesis of a statement, clause by clause, is met by a concrete state and operands. -/

/-- StepRunsFront and its tick: a command waits; none waits. -/
theorem test_meets_stepRunsFront :
    ({ State.reset with pending := [.telemetry] } : State).pending = .telemetry :: [] ∧ State.reset.pending = [] := by decide

/-- StepKeepsReported: the reset state is reported, and every step answers a next state (13 R322). -/
theorem test_meets_stepKeepsReported : Reported State.reset := ⟨rfl, rfl, rfl, rfl, rfl⟩

/-- WhatOnlySomeCommandsChange: a command that answers a state. -/
theorem test_meets_whatOnlySomeCommandsChange : ∃ t, exec .humAlarmReleased State.reset = .next t := ⟨_, rfl⟩

/-- QueriesDeliver: IDENTIFY, STATUS, FAULT_READ, INCLUSION_REPORT start on pair 0 or 1. -/
theorem test_meets_queriesDeliver :
    Starts up rowIdentify [] (m0 1 [(8, 0)]) ∧ Starts up rowStatus [] (m0 2 []) ∧ Starts up rowFaultRead [] (m0 0x72 [(12, 2)]) ∧
      (Starts (act up1) rowInclusionReport [] (h1 rowInclusionReport.op []) ∧
        (fetchedDev (st (act up1)) (h1 rowInclusionReport.op [])).rd Reg.imageState = 1) := by
  unfold Starts; decide +kernel

/-- QueriesDeliver: QUERY_USAGE of a tenant and of a stream, STREAM_READ of two of three tokens. -/
theorem test_meets_queriesDeliver_streams :
    let d := strm (act up1) { tenant := 4095, history := [1, 2, 3], appended := 3, committed := 2 }
    let r := h1 rowQueryUsage.op [(8, 4095)]
    let u := h1 rowQueryUsage.op [(8, 4095), (10, 1), (12, 5)]
    let g := h1 rowStreamRead.op [(8, 5), (12, 2), (16, 1)]
    (Starts d rowQueryUsage [.tenant (d.tenantArg r 8)] r ∧ arg r 10 1 = 0 ∧ (fetchedDev (st d) r).tenantArg r 8 < 4096) ∧
    (Starts d rowQueryUsage [.tenant (d.tenantArg u 8), .stream (arg u 12 2)] u ∧ arg u 10 1 = 1 ∧
      (fetchedDev (st d) u).tenantArg u 8 < 4096 ∧ ((fetchedDev (st d) u).stream? (arg u 12 2)).isSome = true) ∧
    (Starts d rowStreamRead [.stream (arg g 8 2)] g ∧ ((fetchedDev (st d) g).named g 5 false false).isRight = true ∧ 1 ≤ arg g 12 4 ∧
      arg g 16 8 + arg g 12 4 ≤ 3) := by
  unfold Starts; decide +kernel

/-- DramCopies: a length of 0, 64 bytes that read well, 64 bytes with an uncorrectable line at the start and behind one good line. -/
theorem test_meets_dramCopies :
    let good := h1 0x50 [(8, 0x1020000000), (16, 0x1020004000), (24, 64)]
    let two := h1 0x50 [(8, 0x1020000000), (16, 0x1020004000), (24, 128)]
    let none_ := h1 0x50 [(8, 0x1020000000), (16, 0x1020004000)]
    let bad (n : Nat) : Dev := { up1 with mem := { up1.mem with lineBad := [(n, false)] } }
    (Starts up1 rowReadDram [] none_ ∧ arg none_ 24 4 = 0 ∧ Starts up1 rowWriteDram [] { none_ with pkt := pk 0x51 [(2, 1), (8, 0x1020000000)] }) ∧
    (Starts up1 rowReadDram [] good ∧ (up1.cmdRead 1 0x1020000000 64).1 = St.success) ∧
    (Starts (bad 0x1020000000) rowReadDram [] good ∧ ((bad 0x1020000000).cmdRead 1 0x1020000000 64).1 = St.uncorrectable ∧ ((bad 0x1020000000).cmdRead 1 0x1020000000 64).2.2.1 = []) ∧
    (Starts (bad 0x1020000040) rowReadDram [] two ∧ ((bad 0x1020000040).cmdRead 1 0x1020000000 128).1 = St.uncorrectable ∧ ((bad 0x1020000040).cmdRead 1 0x1020000000 128).2.2.1 ≠ []) ∧
    (let w := h1 0x51 [(8, 0x1020000000), (16, 0x1020004000), (24, 64)]
     Starts up1 rowWriteDram [] w ∧ (up1.bufIn w 0x1020004000 64).1 = St.success ∧
      (up1.cmdWrite 1 0x1020000000 (List.replicate 64 1)).1 = St.success) := by
  unfold Starts; decide +kernel

/-- DramWriteStores: two bytes across a line at the end of plain memory, on a pair of class host. -/
theorem test_meets_dramWriteStores :
    up1.inWindow 1 0x102000003F 2 = true ∧ 0x102000003F + 2 ≤ up1.dramTop ∧ 0x102000003F < up1.dramTop ∧
      firstIn up1.protectedAt 0x102000003F 2 = none ∧ up1.partialPoison 0x102000003F 2 = false ∧ Mem.wf up1.mem.dram = true := by decide +kernel

/-- QueueCommands: pair 0, pair 1 in use, pair 16,383 free with rings that are allowed and that are not. -/
theorem test_meets_queueCommands :
    let c (q : Nat) (w : Nat) := m0 6 [(8, q), (16, w)]
    let del (q : Nat) := m0 7 [(8, q)]
    let ok := 3 * 2 ^ 48 + 3 * 2 ^ 52
    Starts up1 rowCreateQueue [] (c 0 ok) ∧ Starts up1 rowCreateQueue [] (c 16384 ok) ∧
    (Starts up1 rowCreateQueue [] (c 1 ok) ∧ entryReserved (c 1 ok) = none ∧ (fetchedDev (st up1) (c 1 ok)).qpOn 1 = true) ∧
    (Starts up1 rowCreateQueue [] (c 16383 ok) ∧ entryReserved (c 16383 ok) = none ∧ (fetchedDev (st up1) (c 16383 ok)).qpOn 16383 = false ∧
      ((fetchedDev (st up1) (c 16383 ok)).fillEntry 16383 (c 16383 ok)).ringsValid 16383 = true) ∧
    (Starts up1 rowCreateQueue [] (c 16383 0) ∧ entryReserved (c 16383 0) = none ∧
      ((fetchedDev (st up1) (c 16383 0)).fillEntry 16383 (c 16383 0)).ringsValid 16383 = false) ∧
    (Starts up1 rowDeleteQueue [] (del 0) ∧ Starts up1 rowDeleteQueue [] (del 16384)) ∧
    (Starts up1 rowDeleteQueue [] (del 1) ∧ (fetchedDev (st up1) (del 1)).pairInUse 1 = false) ∧
    (let d := strm up1 { queue := 1 }
     Starts d rowDeleteQueue [] (del 1) ∧ (fetchedDev (st d) (del 1)).pairInUse 1 = true) := by
  unfold Starts; decide +kernel

/-- Doorbells: a tail one below the ring size; a tail at it, a head at it, a head past the tail; a head over one unread record. -/
theorem test_meets_doorbells :
    let d := up1.wr (Reg.cqTail 1) 1
    7 ≤ d.rd Reg.stage ∧ d.io.pcieUp = true ∧ d.qpOn 2 = false ∧ d.qpOn 1 = true ∧ d.rd (Reg.qPath 1) = 0 ∧
      d.sqEntries 1 = 16 ∧ d.cqEntries 1 = 16 ∧ d.cqUnread 1 = 1 ∧
      (let v : Word := BitVec.ofNat 64 (15 + 2 ^ 32)
       bitsOf v.toNat 0 16 = 15 ∧ bitOf v.toNat 32 = true ∧ bitOf v.toNat 33 = false) ∧
      (let v : Word := BitVec.ofNat 64 (2 ^ 16 + 2 ^ 33)
       bitsOf v.toNat 16 16 = 1 ∧ bitOf v.toNat 32 = false ∧ bitOf v.toNat 33 = true ∧
        (1 + d.cqEntries 1 - d.rd (Reg.cqHead 1) % d.cqEntries 1) % d.cqEntries 1 ≤ d.cqUnread 1) ∧
      d.cqUnread 1 < (2 + d.cqEntries 1 - d.rd (Reg.cqHead 1) % d.cqEntries 1) % d.cqEntries 1 := by decide +kernel

/-- PairsInUse: ENABLE written 1 on pair 2 that is off, 0 on pair 1 that is on, and to pair 0. -/
theorem test_meets_pairsInUse :
    let on : RegAcc := { off := 0x100080, val := BitVec.ofNat 64 (2 ^ 60 + 3 * 2 ^ 48 + 3 * 2 ^ 52) }
    let out : RegAcc := { off := 0x100040 }
    (Takes up1 on 0x100080 ∧ up1.qpOn 2 = false ∧ Gives on 0x100080 (Reg.qEnable 2) 1) ∧
    (Takes up1 out 0x100040 ∧ up1.qpOn 1 = true ∧ Gives out 0x100040 (Reg.qEnable 1) 0) ∧ Takes up1 { off := 0x100000 } 0x100000 := by
  unfold Takes Gives; decide +kernel

/-- PairsInUse: no record waits; one waits on a ring with space; one waits on a ring that is full or out of use. -/
theorem test_meets_pairsInUse_records :
    let w (d : Dev) : Dev := { d with io := { d.io with qpWaiting := [(1, [[0]])] } }
    up1.waitingOn 1 = [] ∧
    ((w up1).waitingOn 1 = [[0]] ∧ (w up1).qpOn 1 = true ∧ (w up1).bit (Reg.errBase 1) = false ∧
      (w up1).cqUnread 1 + 1 < (w up1).cqEntries 1 ∧ (w up1).rd (Reg.qPath 1) ≠ 1 ∧ ((w up1).putGroup 1 [0]).isSome = true) ∧
    ((w (up1.wr (Reg.cqTail 1) 15)).waitingOn 1 = [[0]] ∧
      (w (up1.wr (Reg.cqTail 1) 15)).cqEntries 1 ≤ (w (up1.wr (Reg.cqTail 1) 15)).cqUnread 1 + 1) ∧
    (w (up1.wr (Reg.qEnable 1) 0)).qpOn 1 = false := by decide +kernel

/-- CommonRefusals: a pair that is not in use, one with a failed ring access, and a command that was fetched before; stage B6; a reserved header bit in either place; a reply pair that is not in use; a class that may not use the opcode; P2 and P3; a parameter byte that is not used; an opcode that is not listed. -/
theorem test_meets_commonRefusals :
    let r := h1 0x50 [(24, 64)]
    (up1.wr (Reg.qEnable 1) 0).mayTake r = false ∧ (up1.wr (Reg.errBase 1) 1).mayTake r = false ∧
    (up1.wr (Reg.qEnable 1) 0).mayTake { r with fetched := some (1, 0) } = true ∧
    (up1.wr Reg.stage 6).mayTake r = true ∧ ((up1.wr Reg.stage 6).fetched r).2.rd Reg.stage < 7 ∧ rowReadDram.op ≠ 1 ∧ rowReadDram.op ≠ 2 ∧
    7 ≤ (up1.fetched r).2.rd Reg.stage ∧ bitsOf (h1 0x450 []).pkt.toNat 10 6 ≠ 0 ∧
    (bitsOf (h1 0x40000050 []).pkt.toNat 10 6 = 0 ∧ bitsOf (h1 0x40000050 []).pkt.toNat 30 2 ≠ 0) ∧
    (headerReserved { r with pkt := pk 0x50 [(2, 9)] } = none ∧ (up1.fetched r).2.replyPair { r with pkt := pk 0x50 [(2, 9)] } = none) ∧
    (headerReserved r = none ∧ ((up1.fetched r).2.replyPair r).isSome = true ∧ bitOf rowRotateKey.classes ((up1.fetched r).2.classOf 1) = false) ∧
    (bitOf rowReadDram.classes ((up1.fetched r).2.classOf 1) = true ∧ ((up1.wr Reg.pstate 2).fetched r).2.acceptState = 2 ∧
      ((up1.wr Reg.pstate 3).fetched r).2.acceptState = 3 ∧ acceptedAsleep 0x50 = false) ∧
    ((up1.fetched r).2.acceptState < 2 ∧ paramReserved rowReadDram.params (h1 0x50 [(63, 1)]) = some 63) ∧
    up1.mayTake (h1 0xF0 []) = true := by decide +kernel

/-- FetchCounts: a command that is fetched now, from a ring that is not empty. -/
theorem test_meets_fetchCounts :
    let z := up.wr (Reg.sqBase 0) 0x200010000000
    (h1 1 []).fetched = none ∧ (h1 1 []).qp = 1 ∧ (up1.wr (Reg.sqTail 1) 1).rd (Reg.sqHead 1) ≠ (up1.wr (Reg.sqTail 1) 1).rd (Reg.sqTail 1) ∧
    (up1.wr Reg.pstate 1).rd Reg.pstate = 1 ∧ (up1.wr Reg.pstate 1).bit Reg.pstateBusy = false ∧
    (m0 1 []).fetched = none ∧ (m0 1 []).qp = 0 ∧ z.rd Reg.stage ≠ 0 ∧
    (z.ringStore (z.rd (Reg.sqBase 0) + 64 * z.rd (Reg.sqTail 0)) (leBytes 64 (m0 1 []).pkt.toNat)).isSome = true := by decide +kernel

/-- ModesAndPowerStates: modes with and without beats, with seeds missing; power states 4, on a segment, to the present state, to P0 from P1 and to P2. -/
theorem test_meets_modesAndPowerStates :
    let r := m0 3 [(8, 0x20), (9, 0x20)]
    let seedless : Dev := { act up with img := { (act up).img with active := some { im0 with
      consumers := [{ tile := 0, rng := 0, rngStream := 0, desc := 0, seed := 0 }] } } }
    let p (t : Nat) := m0 4 [(8, t)]
    (Starts seedless rowSetModeSplit [] r ∧ (fetchedDev (st seedless) r).hostMode 5 = false ∧ (fetchedDev (st seedless) r).seedsMissing ≠ 0) ∧
    (Starts up rowSetModeSplit [] (m0 3 [(8, 2), (9, 2)]) ∧ (fetchedDev (st up) (m0 3 [])).noBeats = true) ∧
    (Starts (act up) rowSetModeSplit [] (m0 3 [(8, 2), (9, 2)]) ∧ (fetchedDev (st (act up)) (m0 3 [])).noBeats = false) ∧
    Starts up rowSetPowerState [] (p 4) ∧
    (Starts (up.wr Reg.segment 1) rowSetPowerState [] (p 1) ∧ (fetchedDev (st (up.wr Reg.segment 1)) (p 1)).rd Reg.segment ≠ 0) ∧
    (Starts up rowSetPowerState [] (p 0) ∧ Starts up rowSetPowerState [] (p 2) ∧ (fetchedDev (st up) (p 2)).rd Reg.segment = 0 ∧
      (fetchedDev (st up) (p 2)).bit Reg.pstateBusy = false ∧ (fetchedDev (st up) (p 2)).jobs 0x04 = [] ∧
      (fetchedDev (st up) (p 2)).rd Reg.pstate = 0) ∧
    (Starts (up.wr Reg.pstate 2) rowSetPowerState [] (p 0) ∧ (fetchedDev (st (up.wr Reg.pstate 2)) (p 0)).rd Reg.pstate ≠ 0 ∧
      (fetchedDev (st (up.wr Reg.pstate 2)) (p 0)).bit Reg.pstateBusy = false) := by
  unfold Starts; decide +kernel

/-- ImagesLoadAndActivate: a range that reads well and holds no image (the header's magic fails); ACTIVATE_IMAGE without and with a loaded image. -/
theorem test_meets_imagesLoadAndActivate :
    let r := h1 0x10 [(8, 0x1020000000), (16, 64)]
    (Starts up1 rowLoadImage [] r ∧ arg r 8 8 + arg r 16 8 ≤ (fetchedDev (st up1) r).dramTop ∧
      ((fetchedDev (st up1) r).cmdRead 1 0x1020000000 64).1 = St.success ∧
      ((fetchedDev (st up1) r).loadSteps [] (List.replicate 64 0) 64).isLeft = true) ∧
    (Starts up1 rowActivateImage [] (h1 0x12 []) ∧ (fetchedDev (st up1) (h1 0x12 [])).img.loaded = none) ∧
    (let d := lod up1
     Starts d rowActivateImage [] (h1 0x12 []) ∧ (fetchedDev (st d) (h1 0x12 [])).img.loaded ≠ none ∧
      ((fetchedDev (st d) (h1 0x12 [])).jobs 0x11 = [] ∧ (fetchedDev (st d) (h1 0x12 [])).jobs 0x12 = [] ∧
       (fetchedDev (st d) (h1 0x12 [])).jobs 0x14 = [] ∧ (fetchedDev (st d) (h1 0x12 [])).jobs 0x70 = [])) := by
  unfold Starts; decide +kernel

/-- ImagesLoadAndActivate: IMAGE_ACTIVATED without a loaded image, with one that has to wait, with one that is ready. -/
theorem test_meets_imagesLoadAndActivate_activated :
    let ready : Dev := { lod up with img := { (lod up).img with activating := true } }
    (up.img.placed = false ∧ up.img.loaded = none ∧ (lod up).activationReady = false) ∧
      (ready.img.loaded = some im0 ∧ ready.activationReady = true ∧ (ready.placeOnTiles im0).firstBeatReady im0 = true) := by
  decide +kernel

/-- ImageActivated: in host-assisted sampling an image with a consumer that has no seed stands on the tiles, and goes on when it has one. -/
theorem test_meets_imageActivated_seeds :
    let im : Image := { im0 with consumers := [{ tile := 0, rng := 0, rngStream := 0, desc := 0, seed := 0 }] }
    let ready : Dev := { up.wr Reg.modeSplit 32 with img := { up.img with loaded := some im, activating := true } }
    let p := ready.placeOnTiles im
    let q : Dev := { p with img := { p.img with seeds := [(0, 5)] } }
    (ready.activationReady = true ∧ p.firstBeatReady im = false ∧ p.img.active = some im) ∧
      (q.img.active = some im ∧ q.img.placed = true ∧ q.firstBeatReady im = true) := by decide +kernel

/-- PatchMovesRegion: without an image, with a stopped one, with an active one for an unknown region, a base that is not aligned and one that fits; the end of the copy. -/
theorem test_meets_patchMovesRegion :
    let r (n b : Nat) := h1 rowPatch.op [(8, n), (16, b)]
    let d := act up1
    let e (n b : Nat) := fetchedDev (st d) (r n b)
    (Starts up1 rowPatch [] (r 1 0) ∧ (fetchedDev (st up1) (r 1 0)).rd Reg.imageState = 0 ∧
      (fetchedDev (st up1) (r 1 0)).jobs 0x11 = [] ∧ (fetchedDev (st up1) (r 1 0)).jobs 0x12 = []) ∧
    (Starts (d.wr Reg.imageState 2) rowPatch [] (r 1 0) ∧ (fetchedDev (st (d.wr Reg.imageState 2)) (r 1 0)).rd Reg.imageState = 2 ∧
      (fetchedDev (st (d.wr Reg.imageState 2)) (r 1 0)).jobs 0x11 = [] ∧ (fetchedDev (st (d.wr Reg.imageState 2)) (r 1 0)).jobs 0x12 = []) ∧
    (Starts d rowPatch [] (r 2 0) ∧ (e 2 0).rd Reg.imageState = 1 ∧ (e 2 0).jobs 0x11 = [] ∧ (e 2 0).jobs 0x12 = [] ∧
      (e 2 0).image.regions.find? (fun g => g.num == 2) = none) ∧
    (Starts d rowPatch [] (r 1 4097) ∧ ((e 1 4097).image.regions.find? (fun g => g.num == 1)).isSome = true) ∧
    (Starts d rowPatch [] (r 1 0x2000000000) ∧ 0x2000000000 + 4096 ≤ (e 1 0).dramTop ∧
      (e 1 0).overlapsTaken false 0x2000000000 4096 = false ∧ 0x2000000000 + 4096 ≤ Config.yieldBase) ∧
    (let c : Dev := { act up with img := { (act up).img with patching := some (1, 0x2000000000) } }
     c.img.active = some im0 ∧ c.drained = true ∧ (im0.regions.find? (fun h => h.num == 1)).isSome = true) := by
  unfold Starts; decide +kernel

/-- StageWeightsStarts: no image; a stopped one; source 2; peer 1,024 and the device itself; a version staged already; a version that a peer in reach is asked for. -/
theorem test_meets_stageWeightsStarts :
    let r (v src peer : Nat) := h1 rowStageWeights.op [(8, v), (12, src), (14, peer)]
    let d := act up1
    let e (x : Dev) (v src peer : Nat) := fetchedDev (st x) (r v src peer)
    let staged : Dev := ({ d with wts := { d.wts with staged := some { kind := 0, version := 9, extents := [], data := [], bytes := 0 } } }.wr
      Reg.stagedVersion 9).wr Reg.swapState 0
    Starts up1 rowStageWeights [] (r 9 0 5) ∧
    (Starts (d.wr Reg.imageState 2) rowStageWeights [] (r 9 0 5) ∧ (e (d.wr Reg.imageState 2) 9 0 5).rd Reg.imageState = 2) ∧
    (Starts d rowStageWeights [] (r 9 2 5) ∧ (e d 9 2 5).rd Reg.imageState = 1) ∧
    (Starts d rowStageWeights [] (r 9 0 1024) ∧ (e d 9 0 1024).hostMode 7 = false ∧ (e d 9 0 0).rd Reg.fabDevice = 0 ∧
      Starts d rowStageWeights [] (r 9 0 0)) ∧
    (Starts staged rowStageWeights [] (r 9 0 5) ∧ (e staged 9 0 5).jobs 0x13 = [] ∧ (e staged 9 0 5).jobs 0x12 = [] ∧
      (e staged 9 0 5).rd Reg.stagedVersion = 9 ∧ (e staged 9 0 5).rd Reg.swapState ≠ 4 ∧ (e staged 9 0 5).wts.staged ≠ none) ∧
    (Starts d rowStageWeights [] (r 9 0 1023) ∧ (e d 9 0 1023).wts.staged = none ∧ (e d 9 0 1023).peerGone 1023 = false) := by
  unfold Starts; decide +kernel

/-- StagingTakesBytes: another stage state; the last one, with either verdict of the signature, and no job or join at work. -/
theorem test_meets_stagingTakesBytes :
    up.rd Reg.stageState ≠ 3 ∧ (up.wr Reg.stageState 3).rd Reg.stageState = 3 ∧ (up.wr Reg.stageState 3).jobs 0x13 = [] ∧
      (up.wr Reg.stageState 3).fab.joining = none ∧
      (pkgSigned (up.wr Reg.stageState 3).wts.arrived = false ∨ pkgSigned (up.wr Reg.stageState 3).wts.arrived = true) := by
  refine ⟨by decide +kernel, by decide +kernel, by decide +kernel, by decide +kernel, ?_⟩
  cases pkgSigned (up.wr Reg.stageState 3).wts.arrived
  · exact .inl rfl
  · exact .inr rfl

/-- StagingTakesBytes: a chunk with nothing on its way; from another peer, of another version, at another offset; the next one. -/
theorem test_meets_stagingTakesBytes_chunks :
    let d : Dev := { up with wts := { up.wts with arriving := some (5, 0) } }.wr Reg.stagedVersion 9
    ([1] : List Byte) ≠ [] ∧ up.wts.arriving = none ∧ d.wts.arriving = some (5, 0) ∧ (5 ≠ 6) ∧ d.rd Reg.stagedVersion ≠ 8 ∧ 1 ≠ d.wts.arrivedLen ∧
      d.rd Reg.stagedVersion = 9 ∧ 0 = d.wts.arrivedLen ∧ d.rd Reg.stageState < 3 := by decide +kernel

/-- SwapsAndForwards: the commands on another segment, with no image, with a stopped one, with nothing staged, with the version staged. -/
theorem test_meets_swapsAndForwards :
    let r := h1 rowSwapWeights.op [(8, 9)]
    let d := act up1
    let ok := (d.wr Reg.stageState 4).wr Reg.stagedVersion 9
    let e (x : Dev) := fetchedDev (st x) r
    (Starts (d.wr Reg.segment 1) rowSwapWeights [] r ∧ (e (d.wr Reg.segment 1)).rd Reg.segment ≠ 0) ∧
    (Starts up1 rowSwapWeights [] r ∧ (e up1).rd Reg.segment = 0 ∧ (e up1).rd Reg.imageState = 0) ∧
    (Starts (d.wr Reg.imageState 2) rowSwapWeights [] r ∧ (e (d.wr Reg.imageState 2)).rd Reg.imageState = 2) ∧
    (Starts d rowSwapWeights [] r ∧ (e d).rd Reg.imageState = 1 ∧ (e d).jobs 0x11 = [] ∧ (e d).jobs 0x12 = [] ∧ (e d).jobs 0x14 = [] ∧
      (e d).jobs 0x70 = [] ∧ (e d).rd Reg.stageState ≠ 4) ∧
    (Starts ok rowSwapWeights [] r ∧ (e ok).rd Reg.stageState = 4 ∧ (e ok).rd Reg.stagedVersion = arg r 8 4 ∧ (e ok).rd Reg.swapState = 0 ∧
      (e ok).jobs 0x14 = []) := by
  unfold Starts; decide +kernel

/-- SwapsAndForwards: FORWARD_WEIGHTS to itself, with chunks of 0, of more than 64 MiB, and of 64 MiB of a version that is held; the copies. -/
theorem test_meets_swapsAndForwards_copies :
    let r (peer chunk : Nat) := h1 rowForwardWeights.op [(8, 9), (12, peer), (16, chunk)]
    let held : Dev := { act up1 with wts := { up1.wts with staged := some { kind := 0, version := 9, extents := [], data := [], bytes := 64 } } }
    let e (p c : Nat) := fetchedDev (st held) (r p c)
    (Starts held rowForwardWeights [] (r 0 0x100000) ∧ (e 0 0).hostMode 7 = false ∧ (e 0 0).rd Reg.fabDevice = 0) ∧
    (Starts held rowForwardWeights [] (r 1023 0) ∧ Starts held rowForwardWeights [] (r 1023 0x4100000)) ∧
    (Starts held rowForwardWeights [] (r 1023 0x4000000) ∧ (e 1023 0x4000000).jobs 0x63 = [] ∧
      ((e 1023 0x4000000).pkgFor 9).isSome = true ∧ (e 1023 0x4000000).peerGone 1023 = false) ∧
    ((up.wr Reg.swapState 3).rd Reg.swapState = 3 ∧ (up.wr Reg.swapState 3).wts.copied = false ∧ (up.wr Reg.swapState 3).drained = true ∧
      (up.wr Reg.swapState 3).rd Reg.segment = 0 ∧ up.rd Reg.swapState ≠ 3) ∧
    (up.wts.copyBack = false ∧ ({ up with wts := { up.wts with copyBack := true } } : Dev).wts.copyBack = true) := by
  unfold Starts; decide +kernel

/-- WeightCommandsComplete: a package whose last byte is there, for which either verdict of the signature is open; the first chunk of 127 bytes; the copies, on either segment; SWAP_WEIGHTS that starts (FORWARD_WEIGHTS: test_meets_swapsAndForwards_copies). -/
theorem test_meets_weightCommandsComplete :
    let chunk : Dev := { up with wts := { up.wts with arriving := some (5, 0) } }.wr Reg.stagedVersion 9
    let r := h1 rowSwapWeights.op [(8, 9)]
    let ok := ((act up1).wr Reg.stageState 4).wr Reg.stagedVersion 9
    let e := fetchedDev (st ok) r
    ((up.wr Reg.stageState 3).rd Reg.stageState = 3 ∧
      (pkgSigned (up.wr Reg.stageState 3).wts.arrived = true ∨ pkgSigned (up.wr Reg.stageState 3).wts.arrived = false)) ∧
    (List.replicate 127 (1 : Byte) ≠ [] ∧ chunk.wts.arriving = some (5, 0) ∧ chunk.rd Reg.stagedVersion = 9 ∧ chunk.wts.arrivedLen = 0 ∧
      chunk.rd Reg.stageState < 3 ∧ 0 + (List.replicate 127 (1 : Byte)).length < 128) ∧
    (Starts ok rowSwapWeights [] r ∧ e.rd Reg.segment = 0 ∧ e.rd Reg.imageState = 1 ∧ e.jobs 0x11 = [] ∧ e.jobs 0x12 = [] ∧
      e.jobs 0x14 = [] ∧ e.jobs 0x70 = [] ∧ e.rd Reg.stageState = 4 ∧ e.rd Reg.stagedVersion = arg r 8 4 ∧ e.rd Reg.swapState = 0) ∧
    ((up.wr Reg.swapState 3).rd Reg.swapState = 3 ∧ (up.wr Reg.swapState 3).wts.copied = false ∧ (up.wr Reg.swapState 3).drained = true) ∧
    ({ up with wts := { up.wts with copyBack := true } } : Dev).wts.copyBack = true := by
  refine ⟨⟨by decide +kernel, ?_⟩, ?_⟩
  · cases pkgSigned (up.wr Reg.stageState 3).wts.arrived
    · exact .inr rfl
    · exact .inl rfl
  · unfold Starts; decide +kernel

/-- SeedsAndBudgets: a tile that does not exist, generator 2, the other mode, a seed that is free and one that another consumer holds. -/
theorem test_meets_seedsAndBudgets :
    let r (t g n s : Nat) := h1 rowRegisterSeed.op [(8, t), (10, g), (12, n), (16, s)]
    let hosted := (act up1).wr Reg.modeSplit 0x20
    let held : Dev := { hosted with img := { hosted.img with seeds := [(7, 5)] } }
    (Starts up1 rowRegisterSeed [] (r 180 0 0 5) ∧ isLogical 180 = false) ∧
    (Starts up1 rowRegisterSeed [] (r 179 2 0 5) ∧ isLogical 179 = true) ∧
    (Starts up1 rowRegisterSeed [] (r 179 1 0 5) ∧ (fetchedDev (st up1) (r 179 1 0 5)).hostMode 5 = false) ∧
    (Starts hosted rowRegisterSeed [] (r 0 1 0 5) ∧ (fetchedDev (st hosted) (r 0 1 0 5)).hostMode 5 = true ∧
      (fetchedDev (st hosted) (r 0 1 0 5)).img.seeds = []) ∧
    (Starts held rowRegisterSeed [] (r 0 0 3 5) ∧ (fetchedDev (st held) (r 0 0 3 5)).img.seeds = [(7, 5)] ∧
      (fetchedDev (st held) (r 0 0 3 5)).hostMode 5 = true ∧ BitVec.ofNat 64 (arg (r 0 0 3 5) 16 8) = 5) := by
  unfold Starts; decide +kernel

/-- SeedsAndBudgets: tenant 4,096, priority 8, and every field at its limit. -/
theorem test_meets_seedsAndBudgets_budget :
    let r (t p : Nat) := h1 rowSetBudget.op [(8, t), (10, p), (12, 0xFFFFFF), (16, 1), (24, 1024), (26, 32768)]
    Starts up1 rowSetBudget [.tenant 4096] (r 4096 0) ∧ Starts up1 rowSetBudget [.tenant 4095] (r 4095 8) ∧
    (Starts up1 rowSetBudget [.tenant 4095] (r 4095 7) ∧ arg (r 4095 7) 8 2 = 4095 ∧ arg (r 4095 7) 10 1 = 7 ∧ arg (r 4095 7) 12 4 < 2 ^ 24 ∧
      1 ≤ arg (r 4095 7) 16 4 ∧ arg (r 4095 7) 24 2 ≤ 1024 ∧ arg (r 4095 7) 26 2 ≤ 32768) := by
  unfold Starts; decide +kernel

/-- OpenStream: no image ever active; a stopped one; reserved flags; no free entry is not written out (32,768 entries); tenant 4,096; the limit reached; admitted with room and without. -/
theorem test_meets_openStream :
    let r (t flags n : Nat) := h1 rowOpenStream.op [(8, t), (10, flags), (12, n)]
    let d := act up1
    let one (d : Dev) : Dev := { d with serve := { d.serve with tenants := [(4095, { maxStreams := 1 })] } }
    let e (x : Dev) (t flags n : Nat) := fetchedDev (st x) (r t flags n)
    (Starts up1 rowOpenStream [.tenant (up1.tenantArg (r 1 0 1) 8)] (r 1 0 1) ∧ (e up1 1 0 1).img.everActive = false) ∧
    (let x := d.wr Reg.imageState 2
     Starts x rowOpenStream [.tenant (x.tenantArg (r 1 0 1) 8)] (r 1 0 1) ∧ (e x 1 0 1).img.everActive = true ∧ (e x 1 0 1).rd Reg.imageState = 2) ∧
    (Starts d rowOpenStream [.tenant (d.tenantArg (r 1 32 1) 8)] (r 1 32 1) ∧ (e d 1 32 1).rd Reg.imageState ≠ 2 ∧ arg (r 1 32 1) 10 1 = 32 ∧
      (e d 1 32 1).hostMode 1 = false) ∧
    (Starts d rowOpenStream [.tenant (d.tenantArg (r 4096 0 1) 8)] (r 4096 0 1) ∧ (e d 4096 0 1).tenantArg (r 4096 0 1) 8 = 4096 ∧
      (e d 4096 0 1).fab.leaving = false ∧ (e d 4096 0 1).rd Reg.fabRole ≠ 1 ∧ (e d 4096 0 1).rd Reg.fabRole ≠ 2 ∧
      lowestIndex (e d 4096 0 1).serve.streams 32768 = some 0) ∧
    (Starts d rowOpenStream [.tenant (d.tenantArg (r 4095 0 1) 8)] (r 4095 0 1) ∧
      ((e d 4095 0 1).tenant 4095).maxStreams ≤ (e d 4095 0 1).openOf 4095) ∧
    (Starts (one d) rowOpenStream [.tenant ((one d).tenantArg (r 4095 0 16776960) 8)] (r 4095 0 16776960) ∧
      (e (one d) 4095 0 1).openOf 4095 < ((e (one d) 4095 0 1).tenant 4095).maxStreams ∧ arg (r 4095 0 16776960) 11 1 = 0 ∧
      arg (r 4095 0 16776960) 12 4 ≤ 16776960 ∧ tempOk (arg (r 4095 0 1) 32 4) = true ∧ arg (r 4095 0 1) 36 2 ≤ 1024 ∧ bitOf 0 3 = false ∧
      ((e (one d) 4095 0 1).streamRoom 0 1).isSome = true) := by
  unfold Starts; decide +kernel

/-- OpenStream: a tenant pair in host-assisted scheduling; no room for the structures of a stream. -/
theorem test_meets_openStream_refused :
    let r := h1 rowOpenStream.op [(8, 1), (12, 1)]
    let x := ((act up1).wr (Reg.qClass 1) 3).wr Reg.modeSplit 2
    (Starts x rowOpenStream [.tenant (x.tenantArg r 8)] r ∧ (fetchedDev (st x) r).hostMode 1 = true ∧ (fetchedDev (st x) r).classOf 1 = 3 ∧
      (fetchedDev (st x) r).rd Reg.imageState ≠ 2) ∧
    (let full : Dev := { act up1 with mem := { up1.mem with allocs := [{ base := 0, size := Config.dramEnd, kind := 3, owner := 9 }] } }
     (fetchedDev (st full) r).streamRoom 0 1 = none) := by
  unfold Starts; decide +kernel

/-- AppendAndGenerate: a stream that is FREE, a count of 0 and of 16,776,961, a generating stream, tokens that fit and that do not. -/
theorem test_meets_appendAndGenerate :
    let r (n : Nat) := h1 0x21 [(8, 5), (12, n), (24, 7)]
    let d := strm (act up1) { appended := 255, committed := 255, history := List.replicate 255 0 }
    let full := strm (act up1) { appended := 256, committed := 255 }
    let gen := strm (act up1) { state := .generating }
    let e (x : Dev) (n : Nat) := fetchedDev (st x) (r n)
    (Starts up1 rowAppendTokens [.stream 5] (r 1) ∧ ((e up1 1).named (r 1) 5 false true).isLeft = true) ∧
    (Starts d rowAppendTokens [.stream 5] (r 0) ∧ Starts d rowAppendTokens [.stream 5] (r 16776961) ∧
      ((e d 0).named (r 0) 5 false true).isRight = true) ∧
    (Starts gen rowAppendTokens [.stream 5] (r 1) ∧ ((e gen 1).named (r 1) 5 false true).isRight = true) ∧
    (Starts d rowAppendTokens [.stream 5] (r 1) ∧ ((e d 1).payload (r 1) 1 10 4).isRight = true ∧ 255 + (tokensOf [7, 0, 0, 0] 1).length ≤ 256 ∧
      (e d 1).image.tok = none) ∧
    (Starts full rowAppendTokens [.stream 5] (r 1) ∧ 256 < 256 + (tokensOf [7, 0, 0, 0] 1).length) := by
  unfold Starts; decide +kernel

/-- AppendAndGenerate: APPEND_TEXT with and without a tokeniser at hand, and in the other mode; GENERATE of 0, on a generating stream, on an empty one, on one token not yet committed and in prefill. -/
theorem test_meets_appendAndGenerate_text :
    let t (n : Nat) := h1 0x22 [(8, 5), (12, n), (24, 0x41)]
    let g (n : Nat) := h1 0x23 [(8, 5), (12, n)]
    let tokd : Dev := strm { act up1 with img := { (act up1).img with active := some { im0 with tok := some { vocab := [[0x41]], merges := [], stopTok := none } } } } {}
    let e (x : Dev) := fetchedDev (st x) (t 1)
    (Starts up1 rowAppendText [.stream 5] (t 1) ∧ (e up1).hostMode 0 = false ∧ ((e up1).named (t 1) 5 false true).isLeft = true) ∧
    (Starts tokd rowAppendText [.stream 5] (t 0) ∧ Starts tokd rowAppendText [.stream 5] (t 1048577)) ∧
    (Starts tokd rowAppendText [.stream 5] (t 1) ∧ ((e tokd).named (t 1) 5 false true) = .inr {} ∧ (e tokd).image.tok.isSome = true ∧
      ((e tokd).payload (t 1) 1 40 1).isRight = true ∧ ((e tokd).appendTo 5 {} (tokenise { vocab := [[0x41]], merges := [], stopTok := none } [0x41])).isRight = true) ∧
    (Starts (tokd.wr Reg.modeSplit 1) rowAppendText [.stream 5] (t 1) ∧ (e (tokd.wr Reg.modeSplit 1)).hostMode 0 = true) ∧
    (Starts up1 rowGenerate [.stream 5] (g 1) ∧ (fetchedDev (st up1) (g 1)).named (g 1) 5 false true = .inl (bad St.noImage)) ∧
    (Starts tokd rowGenerate [.stream 5] (g 0) ∧ (fetchedDev (st tokd) (g 1)).named (g 1) 5 false true = .inr {}) ∧
    (let x : Stream := { state := .generating }
     Starts (strm (act up1) x) rowGenerate [.stream 5] (g 1) ∧ (fetchedDev (st (strm (act up1) x)) (g 1)).named (g 1) 5 false true = .inr x) ∧
    (let x : Stream := { appended := 1, history := [3] }
     Starts (strm (act up1) x) rowGenerate [.stream 5] (g 1) ∧ (fetchedDev (st (strm (act up1) x)) (g 1)).named (g 1) 5 false true = .inr x ∧ x.live = .idle ∧ x.appended ≠ x.committed) ∧
    (let x : Stream := { appended := 2, history := [3, 4], state := .prefill }
     Starts (strm (act up1) x) rowGenerate [.stream 5] (g 1) ∧ (fetchedDev (st (strm (act up1) x)) (g 1)).named (g 1) 5 false true = .inr x ∧ x.live = .prefill) ∧
    (let x : Stream := { appended := 256, committed := 255 }
     Starts (strm (act up1) x) rowGenerate [.stream 5] (g 1) ∧ (fetchedDev (st (strm (act up1) x)) (g 1)).named (g 1) 5 false true = .inr x ∧
       x.live = .idle ∧ 256 * x.ptBlocks ≤ x.appended) := by
  unfold Starts; decide +kernel

/-- CancelCloseSet: streams that have ended, are idle, held, generating; one with and one without a wave in flight; parameters at their limits. -/
theorem test_meets_cancelCloseSet :
    let c := h1 0x24 [(8, 5)]
    let k := h1 0x25 [(8, 5)]
    let on (x : Stream) := strm (act up1) x
    let col : WCol := { stream := 5, position := 0, token := 0, rank := 0, kind := 0, slot := 0 }
    let wave : Wave := { draft := false, stage := 0, cols := [col], entry := 0, version := 0, modes := 0, reserve := [] }
    let w (d : Dev) : Dev := { d with serve := { d.serve with waves := [wave] } }
    (Starts (on { state := .ended }) rowCancel [.stream 5] c ∧ (fetchedDev (st (on { state := .ended })) c).named c 5 true false = .inr { state := .ended }) ∧
    (Starts (on {}) rowCancel [.stream 5] c ∧ (fetchedDev (st (on {})) c).named c 5 true false = .inr {}) ∧
    (Starts (on { state := .held, prev := .generating }) rowCancel [.stream 5] c ∧
      (fetchedDev (st (on { state := .held, prev := .generating })) c).named c 5 true false = .inr { state := .held, prev := .generating }) ∧
    (Starts (on { state := .generating }) rowCancel [.stream 5] c ∧
      (fetchedDev (st (on { state := .generating })) c).named c 5 true false = .inr { state := .generating }) ∧
    (Starts (on {}) rowCloseStream [.stream 5] k ∧ (fetchedDev (st (on {})) k).named k 5 true false = .inr {} ∧ (fetchedDev (st (on {})) k).inFlight 5 = false) ∧
    (Starts (w (on {})) rowCloseStream [.stream 5] k ∧ (fetchedDev (st (w (on {}))) k).inFlight 5 = true) ∧
    (let s (m : Nat) := h1 0x28 [(8, 5), (10, m), (36, 1024)]
     rowStreamSet.op = 0x28 ∧ Starts (on {}) rowStreamSet [.stream 5] (s 64) ∧ (Starts (on {}) rowStreamSet [.stream 5] (s 15) ∧
      (fetchedDev (st (on {})) (s 15)).named (s 15) 5 false false = .inr {} ∧ (fetchedDev (st (on {})) (s 15)).inRound 5 {} = false ∧
      tempOk (arg (s 15) 32 4) = true ∧ arg (s 15) 36 2 ≤ 1024)) := by
  unfold Starts; decide +kernel

/-- PrefixLives: access 3; nine tenants; no position, 255 and more than committed; a lease of 0 and of 86,401 s; a live handle and a free one. -/
theorem test_meets_prefixLives :
    let r (acc cnt n lease : Nat) := h1 rowDefinePrefix.op [(8, 5), (10, acc), (11, cnt), (12, n), (16, 77), (24, lease)]
    let x : Stream := { appended := 256, committed := 256, history := List.replicate 256 1 }
    let d := strm (act up1) x
    let p : Pfx := { handle := 77, owner := 0, access := 0, listed := [], positions := 256, tokens := [], expiry := 9, refs := 1, version := 3, epoch := 1, live := true }
    let live : Dev := { d with serve := { d.serve with prefixes := [(0, p)] } }
    let o := [Obj.stream 5, .handle (((d.stream? 5).map (·.tenant)).getD 0) 77]
    let e (q : Rhoic) := fetchedDev (st d) q
    (e (r 0 0 256 1)).named (r 0 0 256 1) 5 false true = .inr x ∧
    Starts d rowDefinePrefix o (r 3 0 256 1) ∧ Starts d rowDefinePrefix o (r 2 9 256 1) ∧
    (Starts d rowDefinePrefix o (r 2 8 0 1) ∧ Starts d rowDefinePrefix o (r 2 8 255 1) ∧ Starts d rowDefinePrefix o (r 2 8 512 1)) ∧
    (Starts d rowDefinePrefix o (r 0 0 256 0) ∧ Starts d rowDefinePrefix o (r 0 0 256 86401)) ∧
    (Starts live rowDefinePrefix o (r 0 0 256 1) ∧ (fetchedDev (st live) (r 0 0 256 1)).livePrefix 0 77 ≠ none) ∧
    (Starts d rowDefinePrefix o (r 0 0 256 86400) ∧ (e (r 0 0 256 86400)).livePrefix 0 77 = none ∧ (e (r 0 0 256 86400)).awayBelow 5 1 = false ∧
      lowestIndex (e (r 0 0 256 86400)).serve.prefixes 65536 = some 0 ∧ ((e (r 0 0 256 86400)).pfxRoom 0 256).isSome = true) ∧
    (let q := h1 rowReleasePrefix.op [(16, 77)]
     Starts live rowReleasePrefix [.handle (live.tenantArg q 8) 77] q ∧ (fetchedDev (st live) q).img.everActive = true ∧
      ((fetchedDev (st live) q).livePrefix ((fetchedDev (st live) q).tenantArg q 8) 77).isSome = true ∧
      Starts d rowReleasePrefix [.handle (d.tenantArg q 8) 77] q ∧ (e q).livePrefix ((e q).tenantArg q 8) 77 = none) := by
  unfold Starts; decide +kernel

/-- HostAssisted: SCHEDULE_WAVE in either mode, with type 2 and with four columns of four; PAGE_DROP in either mode, of kind 2, of a FREE stream, with and without beats. -/
theorem test_meets_hostAssisted :
    let r (k : Nat) (es : List (Nat × Nat)) := h1 0x2A ((8, k) :: es)
    let col (s : Nat) := s + 2 ^ 16 + 4 * 2 ^ 18
    let d := strm (act up1) {}
    let hs := d.wr Reg.modeSplit 4
    let four := r 1 [(16, col 5), (24, col 6), (32, col 7), (40, col 8)]
    let objs := (List.range 4).filterMap (fun k => if (schedEntry four k).2.1 = 0 then none else some (Obj.stream (schedEntry four k).1))
    (rowScheduleWave.op = 0x2A ∧ Starts d rowScheduleWave [] (r 0 []) ∧ (fetchedDev (st d) (r 0 [])).hostMode 2 = false) ∧
    (Starts hs rowScheduleWave [] (r 2 []) ∧ (fetchedDev (st hs) (r 2 [])).hostMode 2 = true ∧ (fetchedDev (st hs) (r 2 [])).img.everActive = true ∧
      (fetchedDev (st hs) (r 2 [])).rd Reg.imageState ≠ 2) ∧
    (Starts hs rowScheduleWave objs four ∧ objs.length = 4 ∧ (∀ k < 4, arg four (16 + 8 * k) 8 < 2 ^ 21) ∧
      (∀ k < 4, (schedEntry four k).2.1 ≠ 0 → 1 ≤ (schedEntry four k).2.2 ∧ (schedEntry four k).2.2 ≤ 4)) ∧
    (let p (k i : Nat) := h1 0x53 [(8, i), (10, k)]
     let hp := d.wr Reg.modeSplit 64
     let kept : Dev := { hp with serve := { hp.serve with ptes := [{ owner := 5, layer := 0, block := 0, state := 2 }] } }
     rowPageDrop.op = 0x53 ∧ Starts d rowPageDrop [.stream 5] (p 0 5) ∧ (fetchedDev (st d) (p 0 5)).hostMode 6 = false ∧
     Starts hp rowPageDrop [] (p 2 5) ∧ (fetchedDev (st hp) (p 2 5)).hostMode 6 = true ∧
     (Starts hp rowPageDrop [.stream 6] (p 0 6) ∧ (fetchedDev (st hp) (p 0 6)).stream? 6 = none) ∧
     (let o := strm hp { state := .ended }
      Starts o rowPageDrop [.stream 5] (p 0 5) ∧ Starts o rowPageMigrate [.stream 5] (h1 0x52 [(8, 5)]) ∧
        (fetchedDev (st o) (p 0 5)).stream? 5 = some { state := .ended }) ∧
     (Starts hp rowPageDrop [.stream 5] (p 0 5) ∧ (fetchedDev (st hp) (p 0 5)).stream? 5 ≠ none ∧ (fetchedDev (st hp) (p 0 5)).noBeats = false) ∧
     (let k := kept.wr Reg.imageState 2
      Starts k rowPageDrop [.stream 5] (p 0 5) ∧ (fetchedDev (st k) (p 0 5)).noBeats = true ∧ (fetchedDev (st k) (p 0 5)).unitBusy 5 0 = none)) := by
  unfold Starts; decide +kernel

/-- HostAssisted: PAGE_MIGRATE in the other mode, of a FREE stream, to a peer that is gone, of no page and of one page. -/
theorem test_meets_hostAssisted_migrate :
    let r (i n : Nat) := h1 0x52 [(8, i), (12, 9), (20, n)]
    let d := strm (act up1) {}
    let c (d : Dev) : Dev := { d with fab := { d.fab with table := [(9, { dev := 9, state := 2, role := 2 })] } }
    let hp := c (d.wr Reg.modeSplit 64)
    let gone : Dev := { hp with fab := { hp.fab with assocs := [(9, { reachable := false })] } }
    let page : Dev := { hp with serve := { hp.serve with ptes := [{ owner := 5, layer := 0, block := 0, state := 2, pins := 254 }] } }
    let e (x : Dev) (i n : Nat) := fetchedDev (st x) (r i n)
    rowPageMigrate.op = 0x52 ∧
    (Starts d rowPageMigrate [.stream 5] (r 5 1) ∧ (e d 5 1).classOf 1 = 2 ∧ (e d 5 1).hostMode 6 = false) ∧
    (Starts hp rowPageMigrate [.stream 6] (r 6 1) ∧ (e hp 6 1).hostMode 6 = true ∧ (e hp 6 1).stream? 6 = none) ∧
    (Starts gone rowPageMigrate [.stream 5] (r 5 1) ∧ (e gone 5 1).isCache 9 = true ∧ (e gone 5 1).peerGone 9 = true ∧ 0 + 1 ≤ ({} : Stream).ptBlocks) ∧
    (Starts hp rowPageMigrate [.stream 5] (r 5 1) ∧ (e hp 5 1).peerGone 9 = false ∧ (e hp 5 1).fab.moving = [] ∧ (e hp 5 1).movesOf (r 5 1) = []) ∧
    (Starts page rowPageMigrate [.stream 5] (r 5 1) ∧ (e page 5 1).movesOf (r 5 1) ≠ [] ∧
      (∀ m ∈ (e page 5 1).movesOf (r 5 1), ((e page 5 1).pte m.stream m.layer m.block).pins < 255)) := by
  unfold Starts; decide +kernel

/-- An image with a channel out of tile 0 and one into it, a tree with its root on tile 0, and one KV layer. -/
def im1 : Image :=
  let c : ChanRec := { src := 0, dst := 1, kind := 0, route := 0, bufferFlits := 8, rimTile := 0, stakeMask := 0, treeId := 0, node := 0, hopsOffset := 0, hopCount := 1, hops := [] }
  let n : NodeRec := { tile := 0, parent := 0xFFFF, slot := 0, kind := 0, device := 0 }
  { im0 with
    chans := [c, { c with src := 1, dst := 0 }]
    trees := [{ id := 0, tag := 0, cls := 0, wide := false, override := false, fields := 1, terms := 1, kTotal := 1, nodes := [n] }]
    kv := [{ layer := 0, r := 64, pageBytes := 4096, fmt := 4 }] }

/-- A site at its first descriptor. -/
def s0 : Site := { progBase := 0x40000, progBytes := 0x400, seqState := 1 }

/-- That image active, the site of tile 0 as given. -/
def tl (x : Site) : Dev :=
  { up with img := { up.img with active := some im1, everActive := true }, wafer := { up.wafer with sites := [(0, x)] } }.wr Reg.imageState 1

/-- A descriptor issues and runs. -/
def runs (i : Issue) : Bool := match i with
  | .run _ => true
  | .refuse _ _ => false

/-- Fields (bit, value) of a descriptor. -/
def ds (fs : List (Nat × Nat)) : Desc := BitVec.ofNat 128 (fs.foldl (fun n f => n + f.2 * 2 ^ f.1) 0)

/-- JoinLeaveRole: the commands of a device in no system, with and without an image, with index 1,024; a LEAVE mode of 1; roles 4 and 3. -/
theorem test_meets_joinLeaveRole :
    let j (i : Nat) := h1 rowJoin.op [(8, 0xABCD), (16, i)]
    let l (m : Nat) := h1 rowLeave.op [(8, m)]
    let o (k : Nat) := h1 rowSetRole.op [(8, k)]
    let e (x : Dev) (r : Rhoic) := fetchedDev (st x) r
    let mem : Dev := { act up1 with fab := { up1.fab with table := [(3, { dev := 3, state := 2 }), (4, { dev := 4, state := 2 })], }, }
    let memb := (mem.wr Reg.memberState 2).wr Reg.fabDevice 4
    (Starts memb rowJoin [] (j 5) ∧ (e memb (j 5)).rd Reg.memberState ≠ 0) ∧
    (Starts up1 rowJoin [] (j 5) ∧ (e up1 (j 5)).rd Reg.memberState = 0 ∧ (e up1 (j 5)).img.loaded = none ∧ (e up1 (j 5)).img.active = none) ∧
    (Starts (lod up1) rowJoin [] (j 1024) ∧ (e (lod up1) (j 1024)).img.loaded ≠ none) ∧
    (Starts (lod up1) rowJoin [] (j 1023) ∧ arg (j 1023) 16 2 = 1023 ∧ (e (lod up1) (j 1023)).jobs 0x60 = []) ∧
    (Starts memb rowLeave [] (l 1) ∧ arg (l 1) 8 1 ≠ 0) ∧
    (Starts memb rowLeave [] (l 0) ∧ (e memb (l 0)).jobs 0x61 = [] ∧ (e memb (l 0)).noBeats = false ∧ (e memb (l 0)).rd Reg.memberState = 2 ∧
      (e memb (l 0)).acting = some 3 ∧ (e memb (l 0)).me = 4) ∧
    Starts up1 rowSetRole [] (o 4) ∧
    (Starts up1 rowSetRole [] (o 3) ∧ (e up1 (o 3)).jobs 0x62 = [] ∧ (e up1 (o 3)).rd Reg.memberState ≠ 2 ∧ (e up1 (o 3)).noBeats = true ∧
      (e up1 (o 3)).fab.commitPending = none) ∧
    (Starts (act up1) rowSetRole [] (o 3) ∧ (e (act up1) (o 3)).noBeats = false) ∧
    (∀ j ∈ up.jobs 0x60, j.phase ≠ 0) := by
  unfold Starts; decide +kernel

/-- JoinLeaveRole: a JOIN without an answer waits. -/
theorem test_meets_joinLeaveRole_founds :
    let d : Dev := { up with io := { up.io with running := [{ op := 0x60, req := h1 0x60 [] }] } }
    ∃ j ∈ d.jobs 0x60, j.phase = 0 := by decide +kernel

/-- LoupeRuns: kind 2, a last layer below the first, one beyond the image, a position that is not committed, and the last committed one. -/
theorem test_meets_loupeRuns :
    let r (k a b p : Nat) := h1 rowLoupeRun.op [(8, 5), (10, k), (12, a), (14, b), (16, p)]
    let x : Stream := { appended := 9, committed := 9, history := List.replicate 9 1 }
    let d := strm (act up1) x
    let e (q : Rhoic) := fetchedDev (st d) q
    (e (r 0 0 0 8)).named (r 0 0 0 8) 5 false true = .inr x ∧
    Starts d rowLoupeRun [.stream 5] (r 2 0 0 8) ∧ Starts d rowLoupeRun [.stream 5] (r 1 1 0 8) ∧
    (Starts d rowLoupeRun [.stream 5] (r 1 0 1 8) ∧ (e (r 1 0 1 8)).image.stagesM1 < 1) ∧
    (Starts d rowLoupeRun [.stream 5] (r 1 0 0 9) ∧ x.committed ≤ 9) ∧
    (Starts d rowLoupeRun [.stream 5] (r 1 0 0 8) ∧ (∀ l ∈ (e (r 1 0 0 8)).image.loupeOut, ¬ (0 ≤ l ∧ l ≤ 0)) ∧ (e (r 1 0 0 8)).jobs 0x11 = [] ∧
      (e (r 1 0 0 8)).jobs 0x12 = [] ∧ (e (r 1 0 0 8)).jobs 0x14 = [] ∧ (e (r 1 0 0 8)).jobs 0x70 = [] ∧ (e (r 1 0 0 8)).awayBelow 5 1 = false ∧ (e (r 1 0 0 8)).holdsFull 5 1 = false ∧
      (e (r 1 0 0 8)).outBeyond (r 1 0 0 8) 0 0 = none) ∧
    (let j : Job := { op := 0x70, req := r 1 0 0 8 }
     let w : Dev := { d with io := { d.io with running := [j] } }
     w.drained = true ∧ w.jobs 0x70 = [j]) := by
  unfold Starts; decide +kernel

/-- LoupeRuns: a wave in flight. -/
theorem test_meets_loupeRuns_waves :
    ({ up with serve := { up.serve with waves := [{ draft := false, stage := 0, cols := [], entry := 0, version := 0, modes := 0, reserve := [] }] } } : Dev).drained = false := by
  decide +kernel

/-- SecurityCommands: ATTEST with a request in its buffer, HUM_AUTH, ROTATE_KEY of operation 3, of slot 8, and a first enrolment into slot 7. -/
theorem test_meets_securityCommands :
    let a := m0 0x80 [(24, 4)] [0x13, 0x84, 0, 0]
    let k (op slot n : Nat) := m0 0x81 [(8, op), (9, slot), (24, n)]
    (Starts up rowAttest [] a ∧ ((fetchedDev (st up) a).bufIn a (arg a 16 8) (arg a 24 4)).1 = St.success ∧
      (fetchedDev (st up) a).outBeyond a (arg a 32 8) (arg a 40 4) = none) ∧
    (Starts up rowHumAuth [] (m0 0x82 []) ∧ (fetchedDev (st up) (m0 0x82 [])).outBeyond (m0 0x82 []) 0 64 = none) ∧
    Starts up rowRotateKey [] (k 3 0 0) ∧ Starts up rowRotateKey [] (k 2 8 0) ∧
    (Starts up rowRotateKey [] (k 0 7 2608) ∧ arg (k 0 7 2608) 9 1 ≤ 7 ∧ (fetchedDev (st up) (k 0 7 2608)).pwr.packages ≠ [] ∧ Sec.reset.keys = [] ∧
      ((fetchedDev (st up) (k 0 7 2608)).bufIn (k 0 7 2608) 0 2608).1 = St.success) := by
  unfold Starts; decide +kernel

/-- SecurityCommands: ATTEST and HUM_AUTH with an output buffer that ends beyond DRAM. -/
theorem test_meets_securityCommands_beyond :
    let a := h1 0x80 [(32, 0x5FFFFFFFF0), (40, 64)]
    let b := h1 0x82 [(16, 0x5FFFFFFFF0)]
    (Starts up1 rowAttest [] a ∧ ((fetchedDev (st up1) a).outBeyond a (arg a 32 8) (arg a 40 4)).isSome = true) ∧
    Starts up1 rowHumAuth [] b ∧ ((fetchedDev (st up1) b).outBeyond b (arg b 16 8) 64).isSome = true := by
  unfold Starts; decide +kernel

/-- SecurityCommands: a request of operation 2 whose signature verifies, where the part holds a key and a firmware that is new enough. -/
theorem test_meets_securityCommands_raise :
    let sec : Sec := { Sec.reset with keys := [(0, [])], fw := [(0, { valid := true, svn := 1 })] }
    let r := m0 0x81 [(8, 2), (24, 4647)]
    Starts up rowRotateKey [] r ∧ sec.keys ≠ [] ∧ arg r 8 1 = 2 ∧ arg r 24 4 = 4647 ∧
      ((fetchedDev (st up) r).bufIn r 0 4647).1 = St.success ∧
      (rotateSigned sec 2 0 (List.replicate 4647 0) = true → (fetchedDev (st up) r).rotateRefusal sec 2 0 (List.replicate 4647 0) = none) := by
  refine ⟨by unfold Starts; decide +kernel, by simp, by decide +kernel, by decide +kernel, by decide +kernel, fun hs => ?_⟩
  have h0 : numAt (List.replicate 4647 (0 : Byte)) 0 8 = (fetchedDev (st up) (m0 0x81 [(8, 2), (24, 4647)])).pwr.chain.length := by decide +kernel
  have h1 : numAt (List.replicate 4647 (0 : Byte)) 16 4 = 0 := by decide +kernel
  generalize List.replicate 4647 (0 : Byte) = b at *
  simp [Dev.rotateRefusal, h0, h1, Sec.reset]
  exact hs

/-- MctpAnswers: the path is served at stage B1; a selector beyond the blocks and for all of them; a certificate of another slot. -/
theorem test_meets_mctpAnswers :
    ServesMctp (Dev.reset.wr Reg.stage 1) ∧ (Dev.reset.wr Reg.stage 1).pwr.aonOn = true ∧
      (let q (n : Nat) : List Byte := [0x13, 0xE0, 0, BitVec.ofNat 8 n]
       numAt (q 0) 3 1 = 0 ∧ numAt (q 0) 2 1 % 2 = 0 ∧ numAt (q 7) 3 1 = 7 ∧ 7 < numAt (q 8) 3 1 ∧ numAt (q 8) 3 1 ≠ 0xFF) ∧
      numAt [0x13, 0x82, 1] 2 1 % 16 ≠ 0 ∧ numAt [0x13, 0x82, 0] 2 1 % 16 = 0 ∧ (Config.spdmSelects [] = true ∨ Config.spdmSelects [] = false) := by
  refine ⟨by unfold ServesMctp; decide +kernel, by decide +kernel, by decide +kernel, by decide +kernel, by decide +kernel, ?_⟩
  cases Config.spdmSelects []
  · exact .inr rfl
  · exact .inl rfl

/-- ComputeDescriptorsRun: a product of 8 rows and one element in either mode. -/
theorem test_meets_computeDescriptorsRun :
    let d := tl s0
    let p := ds [(12, 1), (20, 4), (28, 8), (43, 1)]
    let q := ds [(10, 1), (12, 1), (20, 4), (28, 8), (43, 1), (85, 0x1000)]
    Issues d 0 {} ∧ runs (prodBody 0 false (withOp 0x01 p) d) = true ∧ runs (prodBody 0 true (withOp 0x02 q) d) = true := by
  unfold Issues; decide +kernel

/-- ComputeDescriptorsRun: a log product, a reduction at the root, a requantisation, a facet operation and a draw. -/
theorem test_meets_computeDescriptorsRun_more :
    let d := tl s0
    let l := ds [(9, 1), (79, 1), (47, 0x1000)]
    let r := ds [(6, 1), (58, 0x1000), (8, 1)]
    let q := ds [(6, 2), (10, 4), (73, 0x1000)]
    let f := ds [(6, 1), (12, 4), (16, 4), (20, 4), (64, 0x1000), (83, 0x2000)]
    Issues d 0 {} ∧
    firstFault (logStatic (d.tile 0).prog (logDesc (withOp 0x03 l)) (withOp 0x03 l) ++ [] ++
      [computeHazard (d.tile 0) (logRanges (logDesc (withOp 0x03 l))) none]) = none ∧ (logDesc (withOp 0x03 l)).accOpen = true ∧
    ((d.treeRec 0).bind fun x => d.nodeAt x 0).isSome = true ∧ runs (redBody 0 (withOp 0x08 r) d) = true ∧
    firstFault (reqStatic (d.tile 0) (reqDesc (withOp 0x09 q)) (withOp 0x09 q) ++
      [computeHazard (d.tile 0) (reqDesc (withOp 0x09 q)).ranges (reqDesc (withOp 0x09 q)).chans]) = none ∧
    (firstFault (facetStatic (d.tile 0) (facetDesc (withOp 0x0A f)) (withOp 0x0A f) ++
      [computeHazard (d.tile 0) (facetDesc (withOp 0x0A f)).ranges none]) = none ∧ (facetDesc (withOp 0x0A f)).arg = false) := by
  unfold Issues; decide +kernel

/-- ComputeDescriptorsRun: a draw that no check refuses. -/
theorem test_meets_computeDescriptorsRun_sample :
    let d := tl s0
    let n := withOp 0x0B (ds [(64, 0x3000), (45, 0x2000), (26, 0x1000)])
    let p := sampleDesc n
    firstFault ([reserved? n [(84, 44)]] ++ (p.ranges.map fun (r : Nat × Nat) => computeRange (d.tile 0).prog r.1 r.2) ++
      [computeHazard (d.tile 0) p.ranges none]) = none := by decide +kernel

/-- TransferDescriptorsRun: each transfer with room for it. -/
theorem test_meets_transferDescriptorsRun :
    let d := tl s0
    Issues d 0 {} ∧ runs (sendBody 0 (withOp 0x10 (ds [(37, 64)])) d) = true ∧
    (runs (recvBody 0 (withOp 0x11 (ds [(6, 1), (37, 64)])) d) = true ∧ (d.chan 1).posted = none ∧ (d.chan 1).held = []) ∧
    (runs (dramBody 0 (withOp 0x12 (ds [(33, 64), (53, 0x1000000000)])) false d) = true ∧ (d.tile 0).queued 0 false < 8) ∧
    (runs (dramBody 0 (withOp 0x13 (ds [(33, 64), (53, 0x1000000000)])) true d) = true ∧ (d.tile 0).queued 0 true < 8) ∧
    (runs (fetchBody 0 (withOp 0x14 (ds [])) d) = true ∧ ((d.tile 0).col 0).valid = false) ∧
    runs (storeBody 0 (withOp 0x15 (ds [(45, 0xFFFFF)])) d) = true ∧
    runs (residBody 0 (withOp 0x16 (ds [(34, 1)])) true d) = true ∧ runs (residBody 0 (withOp 0x17 (ds [(34, 1)])) false d) = true := by
  unfold Issues; decide +kernel

/-- TransferDescriptorsRun: with eight reads and eight writes of the queue outstanding, and a SEND and a RECV of the channel open. -/
theorem test_meets_transferDescriptorsRun_wait :
    let k (i : Nat) (op : Nat) (w : Bool) : Nat × Tok := (8 + i, { mkTok op 0x8000 0 false 0 0 0 w 0 with seq := i })
    let r := tl { s0 with tokens := (List.range 8).map fun i => k i 0x12 false }
    let w := tl { s0 with tokens := (List.range 8).map fun i => k i 0x13 true }
    let o := tl { s0 with tokens := [k 0 0x10 false] }
    let p : Posted := { tile := 0, token := 9, loc := 0x8000, bytes := 64, got := 0, arrived := false }
    let c := (tl s0).setChan 1 { posted := some p }
    (Issues r 0 {} ∧ runs (dramBody 0 (withOp 0x12 (ds [(33, 64), (53, 0x1000000000)])) false r) = true ∧ (r.tile 0).queued 0 false = 8 ∧
      runs (fetchBody 0 (withOp 0x14 (ds [])) r) = true ∧ runs (residBody 0 (withOp 0x16 (ds [(34, 1)])) true r) = true) ∧
    (Issues w 0 {} ∧ runs (dramBody 0 (withOp 0x13 (ds [(33, 64), (53, 0x1000000000)])) true w) = true ∧ (w.tile 0).queued 0 true = 8 ∧
      runs (storeBody 0 (withOp 0x15 (ds [(45, 0xFFFFF)])) w) = true ∧ runs (residBody 0 (withOp 0x17 (ds [(34, 1)])) false w) = true) ∧
    (Issues o 0 {} ∧ runs (sendBody 0 (withOp 0x10 (ds [(37, 64)])) o) = true ∧
      (o.tile 0).tokens.any (fun k => k.2.op == 0x10 && k.2.chan == 0 && !k.2.done) = true) ∧
    (Issues c 0 {} ∧ runs (recvBody 0 (withOp 0x11 (ds [(6, 1), (37, 64)])) c) = true ∧ (c.chan 1).posted.isSome = true) := by
  unfold Issues; decide +kernel

/-- SequencerCommands: a done, an outstanding and a free token; formats, the end of a section, an unlisted opcode. -/
theorem test_meets_sequencerCommands :
    let k (b : Bool) : Tok := { mkTok 0x12 0x8000 64 true 0 0x1000000000 64 false 0 with done := b }
    let d (b : Bool) := tl { s0 with tokens := [(63, k b)] }
    let n := withOp 0x20 (ds [(6, 63)])
    Issues (d true) 0 {} ∧ Issues (d false) 0 {} ∧ reserved? n [(12, 116)] = none ∧ bitsOf n 6 6 = 63 ∧
      AMap.find ((d true).tile 0).tokens 63 = some (k true) ∧ AMap.find ((d false).tile 0).tokens 63 = some (k false) ∧
      AMap.find ((tl s0).tile 0).tokens 63 = none ∧ reserved? (withOp 0x21 (ds [])) [(6, 122)] = none ∧
      reserved? (withOp 0x3F (ds [])) [(6, 122)] = none ∧ listedOpcode ((ds [(0, 4)]).toNat % 64) = false := by
  unfold Issues; decide +kernel

/-- SequencerCommands: a token that is unknown, done, behind another of its queue, and one whose data moves; a waiting sequencer and one that does not wait. -/
theorem test_meets_sequencerCommands_tokens :
    let k (b : Bool) (i : Nat) : Tok := { mkTok 0x12 0x8000 64 true 0 0x1000000000 64 false 0 with done := b, seq := i }
    let d (b : Bool) := tl { s0 with tokens := [(5, k b 3)] }
    let two := tl { s0 with tokens := [(5, k false 3), (6, k false 2)] }
    AMap.find ((tl s0).tile 0).tokens 5 = none ∧
    (AMap.find ((d true).tile 0).tokens 5 = some (k true 3) ∧ (k true 3).done = true) ∧
    (AMap.find (two.tile 0).tokens 5 = some (k false 3) ∧ (two.tile 0).earlierInQueue (k false 3) = true) ∧
    (AMap.find ((d false).tile 0).tokens 5 = some (k false 3) ∧ ((d false).tile 0).earlierInQueue (k false 3) = false ∧
      (d false).moved 0 5 (k false 3) = true ∧ (d false).readBad (k false 3) none = none ∧ (k false 3).op ≠ 0x11) ∧
    ((tl s0).tile 0).seqState ≠ 2 ∧
    (((tl { s0 with seqState := 2 }).tile 0).seqState = 2 ∧ (tl { s0 with seqState := 2 }).serve.faulted.contains (0, 1) = false) := by
  decide +kernel

/-- ComputeFrames: a facet operation that is not an arg form, and a log product that opens its entries. -/
theorem test_meets_computeFrames :
    let d := tl s0
    let f := withOp 0x0A (ds [(6, 1), (12, 4), (16, 4), (20, 4), (64, 0x1000), (83, 0x2000)])
    let l := withOp 0x03 (ds [(9, 1), (79, 1), (47, 0x1000)])
    Issues d 0 {} ∧
    (firstFault (facetStatic (d.tile 0) (facetDesc f) f ++ [computeHazard (d.tile 0) (facetDesc f).ranges none]) = none ∧ (facetDesc f).arg = false) ∧
    (firstFault (logStatic (d.tile 0).prog (logDesc l) l ++ [] ++ [computeHazard (d.tile 0) (logRanges (logDesc l)) none]) = none ∧
      (logDesc l).accOpen = true) := by
  unfold Issues; decide +kernel

/-- An image whose channel 0, staked to slots 5 and 9, leads from tile 257 two hops east, and the flits of its buffers; a packet for tile 258 at tile 257. -/
def msh (fs : List ChFlit) (ps : List Packet) : Dev :=
  let c : ChanRec := { src := 257, dst := 259, kind := 0, route := 0, bufferFlits := 2, rimTile := 0, stakeMask := 2 ^ 5 + 2 ^ 9, treeId := 0,
                       node := 0, hopsOffset := 0, hopCount := 0, hops := [] }
  let d : Dev := { up with img := { up.img with active := some { im0 with chans := [c] }, everActive := true } }.wr Reg.imageState 1
  { d.setChan 0 { flight := fs } with mesh := { (d.setChan 0 { flight := fs }).mesh with packets := ps } }

/-- MeshCommands: a port at the edge of the array; a link that is down, one with a flit being retried; the fifth bad flit in a row and the first; no flit that can be sent. -/
theorem test_meets_meshCommands :
    let d := msh [{ bytes := [1] }] []
    let k := FlitKind.channel 0
    let behind := d.setLink 257 1 { retrying := some k }
    neighbour 0 0 = none ∧ neighbour 258 3 = some 257 ∧ opposite 3 = 1 ∧ (∀ c r, d.flitChan (.packet 0) = some (c, r) → d.chanRoute c r ≠ []) ∧
      ((d.setLink 257 1 { down := true }).link 257 1).down = true ∧
      ((behind.link 257 1).retrying = some k ∧ k ≠ .packet 0 ∧ behind.sends 257 1 k = true) ∧
      ((d.link 257 1).down = false ∧ (d.link 257 1).retrying = none ∧ d.stranded 257 k = none) ∧
      (5 ≤ ((d.setLink 257 1 { inRow := 4 }).link 257 1).inRow + 1 ∧ (d.link 257 1).inRow + 1 < 5 ∧ (d.link 257 1).retries = []) ∧
      d.sends 257 1 (.packet 7) = false := by
  refine ⟨by decide +kernel, by decide +kernel, by decide +kernel, fun _ _ h => ?_, ?_⟩
  · simp [Dev.flitChan] at h
  · decide +kernel

/-- MeshCommands: a staked flit on its way and one at the end of its route; a packet on its way; one that no table takes on. -/
theorem test_meets_meshCommands_flits :
    let d := msh [{ bytes := [1] }, { bytes := [2] }] []
    let e := msh [{ bytes := [1], hop := 1 }] []
    let p : Packet := { id := 8192, cls := 4, src := 257, dst := 259, request := true, router := 257, port := 4 }
    let q := msh [] [p]
    let cut : Dev := { q with mesh := { q.mesh with tables := { routers := [259] } } }
    (d.sends 257 1 (.channel 0) = true ∧ ((d.chanRec 0).bind fun r => d.sendsAt 0 r 257 1) = some 0 ∧
      ((d.chanRec 0).map fun r => (d.chanRoute 0 r).length) = some 2 ∧ d.slotFor 257 1 (.channel 0) = 5) ∧
    (e.sends 258 1 (.channel 0) = true ∧ ((e.chanRec 0).bind fun r => e.sendsAt 0 r 258 1) = some 1) ∧
    (q.sends 257 1 (.packet 8192) = true ∧ q.mesh.packets.find? (fun q => q.id == 8192) = some p ∧ q.stranded 257 (.packet 8192) = none) ∧
    cut.stranded 257 (.packet 8192) = some p := by decide +kernel

/-- A router output: a response goes before a request (07 R181). -/
theorem test_mesh_class_order :
    let p : Packet := { id := 8192, cls := 4, src := 257, dst := 259, request := true, router := 257, port := 4 }
    let d := msh [] [p, { p with id := 9, cls := 3, request := false }]
    d.sends 257 1 (.packet 8192) = false ∧ d.sends 257 1 (.packet 9) = true := by decide +kernel

/-- The tables around a lost router: east of 257 is out, so the route to 259 goes round it (07 R182). -/
theorem test_mesh_detour :
    ((({ routers := [258] } : Tables).route 257 259).map fun hs => (hs.getLast?, hs.any fun h => h.1 == 258 || neighbour h.1 h.2 == some 258)) =
      some (some (3, 2), false) := by decide +kernel

/-- MeshCommands: the neighbours of tile 257, and its links. -/
theorem test_meets_meshCommands_links :
    let d := tl s0
    ∀ dir < 4, ∃ u ∈ (neighbour 257 dir).toList, (d.link u (opposite dir)).down = false := by decide +kernel

/-- MeshCommands: a tile without a site, one lost already, one that works. -/
theorem test_meets_meshCommands_tiles :
    let d := tl s0
    d.physOf 180 = none ∧
      5 ∈ ({ d with wafer := { d.wafer with lostTiles := [5] } } : Dev).wafer.lostTiles ∧ d.physOf 0 = some 0 ∧ 0 ∉ d.wafer.lostTiles := by decide +kernel

/-- BeatCommands: before the boundary and at it; issue held by a fault, with a tile at work and with every tile done; no frequency change and one to a higher step. -/
theorem test_meets_beatCommands :
    let d : Dev := { act up with serve := { (act up).serve with between := false } }
    let f (x : Site) : Dev := (tl x).hold 4
    let q : Dev := { up with serve := { up.serve with freqTo := some 64 } }.wr Reg.freqNow 64
    (d.boundaryDue (d.nextBoundary - 1) = false ∧ d.boundaryDue d.nextBoundary = true) ∧
    d.held 4 = false ∧ ((f s0).wafer.sites.all fun e => (f s0).tileDone e.2) = false ∧
    ((f {}).held 4 = true ∧ ((f {}).wafer.sites.all fun e => (f {}).tileDone e.2) = true ∧ (f {}).img.stop = none) ∧
    up.serve.freqTo = none ∧ (q.serve.freqTo = some 64 ∧ q.imgActive = false ∧ q.rd Reg.freqNow ≤ 64) := by decide +kernel

/-- An image whose tile 0 runs one product, with a stripe of two members and one girdle tile. -/
def im2 : Image :=
  let prog := leBytes 4 (2 ^ 26) ++ List.replicate 60 0 ++ leBytes 16 (1 + 2 ^ 12 + 4 * 2 ^ 20 + 8 * 2 ^ 28 + 2 ^ 43) ++ leBytes 16 0x3F
  let r : TileRec := { tile := 0, role := 0, progBase := 0x40000, progBytes := 96, dataTop := 0x40000, wOffset := 0, wBytes := 4096, prog := prog }
  { im0 with
    tiles := [r, { r with tile := 1 }, { r with tile := 2, role := 2 }]
    stripes := [{ stripe := 0, stage := 0, wFmt := 0, treeId := 0, members := [(0, 0), (1, 0)], girdle := [(2, 0)] }] }

/-- With that image active. -/
def act2 (d : Dev) : Dev := { d with img := { d.img with active := some im2, everActive := true } }.wr Reg.imageState 1

/-- A sample of one row of descriptor 0 of `im2`, whose partial is `v`. -/
def smp (v : Int) : Sample :=
  { beat := 0, desc := 0, row := 0, rows := 1, col := 0, weights := [], sram := [], stride := 0, parts := [some (v, 0)] }

/-- InclusionCommands: a tile that is due, one that is not, one with a sample outstanding of 4,095 and of 4,096 beats; a sample that passes, one that the first checker, the second and neither finds right. -/
theorem test_meets_inclusionCommands :
    let due : Dev := { act2 up with img := { (act2 up).img with prodBeats := [(0, 4096)] } }
    let out (b : Nat) : Dev := { due with img := { due.img with samples := [(0, { smp 0 with beat := b })] } }
    let n := ((due.recOf 0).map fun r => r.descAt 0).getD 0
    ((due.recOf 0).isSome = true ∧ due.imgActive = true ∧ due.sampleDue 0 = true ∧ due.inRecovery 0 = false ∧ due.works 0 = true ∧
      AMap.find due.img.samples 0 = none ∧ ((due.recOf 0).bind fun r => r.products[AMap.get 0 due.img.sampleTurn 0 % r.products.length]?).isSome = true) ∧
    (up.imgActive = false ∧ (act2 up).sampleDue 0 = false ∧ (AMap.find (out 0).img.samples 0).isSome = true) ∧
    AMap.find (out 0).img.samples 0 = some (smp 0) ∧ (out 0).beat < 0 + 4096 ∧
    (((out 0).wr Reg.beatNumber 4096).beat = 4096) ∧
    n % 64 = 1 ∧ (smp 605).passes n [605] = true ∧ (smp 0).passes n [1] = false ∧ sameErrors 1 [1] [1] = true ∧ sameErrors 1 [1] [0] = false := by
  decide +kernel

/-- GirdleCommands: a stripe without a loss; one in rebuild with a chunk left, with none left, and during the copy step of a swap; an audit of chunk 0 and of a chunk that is not next. -/
theorem test_meets_girdleCommands :
    let d := act2 up
    let lost (s : Stripe) : Dev := { d with img := { d.img with stripes := [(0, s)] }, wafer := { d.wafer with rebuilding := [0] } }
    let a := lost { state := 1, lost := some 0, target := 1 }
    let b := lost { state := 1, lost := some 0, target := 1, nextChunk := 1 }
    d.rebuildOf 0 = none ∧ ((a.rebuildOf 0).map fun e => e.2.2.2.2.chunks) = some 1 ∧ (a.stripe 0).nextChunk < 1 ∧ a.rd Reg.swapState ≠ 3 ∧
    ((b.rebuildOf 0).map fun e => e.2.2.2.2.chunks) = some 1 ∧ 1 ≤ (b.stripe 0).nextChunk ∧ (a.wr Reg.swapState 3).rd Reg.swapState = 3 ∧
    ((d.stripeRec 0).map fun x => (x.members.head?.bind d.stripeProd).map fun p => p.chunks) = some (some 1) ∧
    (d.imgActive = true ∧ (d.stripe 0).state = 0 ∧ (d.stripe 0).lost = none ∧ 0 = (d.stripe 0).audited ∧ 1 ≠ (d.stripe 0).audited) := by decide +kernel

/-- MemoryUpkeep: stages and power states; a stack that stands and one that does not, the first loss and the second; the remap at work and not; the telemetry ring. -/
theorem test_meets_memoryUpkeep :
    let d : Dev := { up with wafer := { up.wafer with scrubNext := [(3, 511)] } }.wr (Reg.stackState 11) 1
    (AMap.get 0 d.wafer.scrubNext 3 = 511 ∧ 7 ≤ d.rd Reg.stage ∧ d.rd Reg.pstate < 2 ∧ 511 ≠ 0) ∧ (Dev.reset.rd Reg.stage < 7) ∧
    (d.rd (Reg.stackState 11) ≠ 2 ∧ decodeLine (d.rd Reg.eccMode) ((List.replicate 72 (0 : Byte) ++ List.replicate 72 0).take 72) none = .clean) ∧
    (d.rd (Reg.stackState 10) ≠ 1 ∧ d.rd (Reg.stackState 11) = 1 ∧ d.rd Reg.lostStack = 15 ∧ (d.wr Reg.lostStack 0).rd Reg.lostStack ≠ 15) ∧
    (d.rd Reg.remapState ≠ 1 ∧ (d.wr Reg.remapState 1).rd Reg.remapState = 1) ∧ (d.wr Reg.telemBase 0x1020000000).rd Reg.telemBase ≠ 0 := by decide +kernel

/-- JournalAndCores: packages 0 and 1, both, one and none; core 15 up with its standby and without, and a core that does not exist. -/
theorem test_meets_journalAndCores :
    let one : Dev := { up with pwr := { up.pwr with packages := [1] } }
    let d := up.wr Reg.rimCoresUp 0xFFFF
    7 ≤ up.rd Reg.stage ∧ up.rd Reg.pstate < 2 ∧ up.pwr.packages ≠ [] ∧ 2 ∉ up.pwr.packages ∧
    (0 ∈ up.pwr.packages ∧ (up.pwr.packages.filter fun q => q != 0) ≠ []) ∧ (1 ∈ one.pwr.packages ∧ (one.pwr.packages.filter fun q => q != 1) = []) ∧
    (bitOf (d.rd Reg.rimCoresUp) 15 = true ∧ bitOf (d.rd Reg.rimCoresUp - 2 ^ 15) ((15 + 8) % 16) = true) ∧
    (bitOf ((up.wr Reg.rimCoresUp 0x8000).rd Reg.rimCoresUp) 15 = true ∧ bitOf (0x8000 - 2 ^ 15) 7 = false ∧
      bitOf ((up.wr Reg.rimCoresUp 0x8000).rd Reg.rimCoresUp) 0 = false) := by decide +kernel

/-- EventControllerWrites: EOI of ring 4,095 that is not active, active with nothing unread, active with a record unread. -/
theorem test_meets_eventControllerWrites :
    let a : RegAcc := { off := 0x10008, val := 4095 }
    let on := up.wr (Reg.ringActive 4095) 1
    Takes up a 0x10008 ∧ Gives a 0x10008 Reg.evtEoi 4095 ∧ up.bit (Reg.ringActive 4095) = false ∧
    (on.bit (Reg.ringActive 4095) = true ∧ on.rd (Reg.ringHead 4095) = on.rd (Reg.ringTail 4095)) ∧
    (on.wr (Reg.ringTail 4095) 1).rd (Reg.ringHead 4095) ≠ (on.wr (Reg.ringTail 4095) 1).rd (Reg.ringTail 4095) ∧
    (let b : RegAcc := { off := 0x14F10, val := 48, who := .rimCore 15 }
     Takes up b 0x14F10 ∧ Gives b 0x14F10 (Reg.bankEoi 15) 48 ∧ b.who = .rimCore 15 ∧ ({ b with who := .pcie } : RegAcc).who ≠ .rimCore 15) ∧
    (let c (n : Nat) : RegAcc := { off := 0x10018, val := BitVec.ofNat 64 (n + 7 * 2 ^ 16) }
     Takes up (c 128) 0x10018 ∧ Gives (c 128) 0x10018 Reg.raiseSource 128 ∧ Gives (c 511) 0x10018 Reg.raiseSource 511 ∧
      Gives (c 127) 0x10018 Reg.raiseSource 127 ∧ Gives (c 511) 0x10018 Reg.raiseDetail 7) := by
  unfold Takes Gives; decide +kernel

/-- EventControllerWrites: ENABLE of ring 4,095 written 0 and 1, with an entry that is allowed and with size 2; HEAD; a route of source 511; an edge. -/
theorem test_meets_eventControllerWrites_rings :
    let off := 0x20000 + 32 * 4095
    let a (v : Nat) : RegAcc := { off := off, val := BitVec.ofNat 64 v }
    let on := up.wr (Reg.ringEnable 4095) 1
    (Takes on (a 0) off ∧ on.bit (Reg.ringEnable 4095) = true ∧ Gives (a 0) off (Reg.ringEnable 4095) 0) ∧
    (Takes up (a (32 + 3 * 2 ^ 48 + 2 ^ 54)) off ∧ up.bit (Reg.ringEnable 4095) = false ∧ Gives (a (32 + 3 * 2 ^ 48 + 2 ^ 54)) off (Reg.ringEnable 4095) 1 ∧
      Gives (a (32 + 3 * 2 ^ 48 + 2 ^ 54)) off (Reg.ringBase 4095) 32 ∧ Gives (a (32 + 3 * 2 ^ 48 + 2 ^ 54)) off (Reg.ringSize 4095) 3 ∧
      Gives (a (32 + 3 * 2 ^ 48 + 2 ^ 54)) off (Reg.ringTarget 4095) 0 ∧ Gives (a (2 * 2 ^ 48 + 2 ^ 54)) off (Reg.ringSize 4095) 2) ∧
    (let h : RegAcc := { off := off + 8, size := 4, val := BitVec.ofNat 64 (9 * 2 ^ 16) }
     Takes on h (off + 8) ∧ Gives h (off + 8) (Reg.ringHead 4095) 9) ∧
    (let w : RegAcc := { off := 0x12000 + 8 * 511, val := BitVec.ofNat 64 (4095 + 4096) }
     Takes up w (0x12000 + 8 * 511) ∧ Gives w (0x12000 + 8 * 511) (Reg.routeRing 511) 4095 ∧ Gives w (0x12000 + 8 * 511) (Reg.routeEn 511) 1) ∧
    up.pwr.aonOn = true ∧ ({ up with pwr := { up.pwr with aonOn := false } } : Dev).pwr.aonOn = false ∧ bitOf (up.rd Reg.aonLatch) 5 = false := by
  unfold Takes Gives; decide +kernel

/-- RegisterCommands: the words with a rule of their own, each with a value. -/
theorem test_meets_registerCommands :
    let a (off v : Nat) : RegAcc := { off := off, val := BitVec.ofNat 64 v }
    (Takes up (a 0x1010 0xA501) 0x1010 ∧ Gives (a 0x1010 0xA501) 0x1010 Reg.deviceReset 1 ∧ Gives (a 0x1010 0xA501) 0x1010 Reg.resetKey 0xA5) ∧
    (Takes up (a 0x201000 16) 0x201000 ∧ Gives (a 0x201000 16) 0x201000 Reg.freqStep 16 ∧ Gives (a 0x201000 65) 0x201000 Reg.freqStep 65) ∧
    (Takes up (a 0x500008 64) 0x500008 ∧ Gives (a 0x500008 64) 0x500008 Reg.mirrorGib 64 ∧ Gives (a 0x500008 64) 0x500008 Reg.eccMode 0 ∧
      up.mirrorBusy = false ∧ 64 % 3 ≠ 0) ∧
    (Takes up (a 0x2008 320) 0x2008 ∧ Gives (a 0x2008 320) 0x2008 Reg.bar4BaseGib 320 ∧ (320 + 64) * 2 ^ 30 ≤ up.dramTop ∧ ¬ (321 + 64) * 2 ^ 30 ≤ up.dramTop) ∧
    (Takes up (a 0x2000 0x5000) 0x2000 ∧ Gives (a 0x2000 0x5000) 0x2000 Reg.hostWinBase 5 ∧ up.hostRings = false) ∧
    (Dev.reset.io.pcieUp = false ∧ up.io.pcieUp = true ∧ accessOk { off := 2, size := 4 } = false ∧ up.reaches .pcie = true ∧ accessOk { off := 4, size := 4 } = true) := by
  unfold Takes Gives; decide +kernel

/-- AccessTypesHold: a field of each access type among the words, covered and not covered. -/
theorem test_meets_accessTypesHold :
    Reg.ringHead 4095 ∈ Reg.wordFields (0x20008 + 32 * 4095) ∧ (Reg.ringHead 4095).acc = .rw ∧ (Reg.ringTail 4095).acc = .ro ∧
      (Reg.errDoorbell 16383) ∈ Reg.wordFields (0x100030 + 64 * 16383) ∧ (Reg.errDoorbell 16383).acc = .w1c ∧ Reg.evtSpuriousEoi.acc = .rc ∧
      Reg.evtEoi.acc = .wo ∧ ({ off := 0x20008 + 32 * 4095, b0 := 0, b1 := 8, v := 1 } : WordWrite).covers (Reg.ringHead 4095) = true ∧
      ({ off := 0x20008 + 32 * 4095, b0 := 4, b1 := 8, v := 1 } : WordWrite).covers (Reg.ringHead 4095) = false ∧
      (∀ h ∈ Reg.wordFields (0x20008 + 32 * 4095), fldKey h ≠ fldKey (Reg.ringBase 4095)) := by decide +kernel

/-- ReservedBitsIgnored: bit 63 of the word of `EVT_ENABLE`; two writes that differ there; a word that holds no field. -/
theorem test_meets_reservedBitsIgnored :
    (∀ f ∈ Reg.wordFields 0x10000, 63 < f.lo ∨ f.lo + f.width ≤ 63) ∧
      (let w (v : Nat) : WordWrite := { off := 0x10000, b0 := 0, b1 := 8, v := v }
       (w 1).off % 8 = 0 ∧ ∀ f ∈ Reg.wordFields 0x10000, (w 1).value f = (w (1 + 2 ^ 63)).value f) ∧ Reg.wordFields 0x20018 = [] := by decide +kernel

/-- WindowAccesses: the link down, the part at stage B6, the first plain byte and a protected one behind BAR4. -/
theorem test_meets_windowAccesses :
    let d := up.wr Reg.bar4BaseGib 64
    Dev.reset.io.pcieUp = false ∧ d.io.pcieUp = true ∧ (d.wr Reg.stage 6).rd Reg.stage < 7 ∧ 7 ≤ d.rd Reg.stage ∧
      (64 * 2 ^ 30 + 1 ≤ d.dramTop ∧ firstIn d.protectedAt (64 * 2 ^ 30) 1 = none ∧ d.badLine (64 * 2 ^ 30) 1 = none) ∧
      firstIn up.protectedAt 0 1 ≠ none := by decide +kernel

/-- BringUp at stage B2: the chain of a part whose factory repair map bypasses no site verifies, the firmware is not below its floor, the coolant is just enough. -/
theorem test_meets_bringUpRecords :
    let at2 := Dev.reset.wr Reg.stage 2
    let d : Dev := { at2 with pwr := { at2.pwr with chain := [makeRecord [] [] 1 []] } }
    d.stallOf { inlet := 550, flow := 120 } Sec.reset = none ∧ d.belowFloor [] = false ∧ coolEnough { inlet := 550, flow := 120 } = true := by
  intro at2 d
  have hv : d.verifiedChain [] = [makeRecord [] [] 1 []] := by
    have h : d.verifiedChain [] = verifiedFrom [] (fun n => d.pwr.packages.all fun p => ([] : List (Nat × Nat)).contains (p, n)) [] [makeRecord [] [] 1 []] := rfl
    rw [h, verifiedFrom_made _ _ _ _ _ _ (by rfl)]; simp [verifiedFrom]
  have hf : d.chainFails [] = false := by simp [Dev.chainFails, hv, chainFits, makeRecord, factoryTables, tablesFrom]
  have hs : d.rd Reg.stage = 2 := by decide +kernel
  have hb : d.belowFloor [] = false := by
    simp [Dev.belowFloor, Dev.keysAtB2, hv, Sec.takeKeys, makeRecord]
  exact ⟨by simp [Dev.stallOf, hs, hb, hf, stallCauses], hb, by decide⟩

/-- BringUp: power there and not; a dark, a stalled and a finished part; stages 1 and 2 with and without what they need. -/
theorem test_meets_bringUp :
    let dark : Dev := { Dev.reset with pwr := { Dev.reset.pwr with aonOn := false } }
    let at2 := Dev.reset.wr Reg.stage 2
    Dev.reset.pwr.aonOn = true ∧ dark.pwr.aonOn = false ∧ (Dev.reset.wr Reg.stalled 1).bit Reg.stalled = true ∧ 7 ≤ up.rd Reg.stage ∧
      (Dev.reset.rd Reg.pstate = 0 ∧ Dev.reset.bit Reg.stalled = false ∧ Dev.reset.rd Reg.stage < 7 ∧ Dev.reset.stallOf {} Sec.reset = none) ∧
      (Dev.reset.stallOf { stall := 1 } Sec.reset = some 1 ∧ 1 < 256) ∧
      at2.rd Reg.stage = 2 := by
  decide +kernel

/-- LinkAndReset: power there and not; stages 5 and 6; a field that a reset keeps and one that it does not. -/
theorem test_meets_linkAndReset :
    ({ up with pwr := { up.pwr with aonOn := false } } : Dev).pwr.aonOn = false ∧ up.pwr.aonOn = true ∧ (up.wr Reg.stage 5).rd Reg.stage < 6 ∧
      6 ≤ (up.wr Reg.stage 6).rd Reg.stage ∧ up.rd Reg.pstate < 4 ∧ keptByDeviceReset (fldKey Reg.aonLatch) = true ∧
      keptByDeviceReset (fldKey Reg.modeSplit) = false ∧ fldKey Reg.modeSplit ≠ fldKey Reg.stage := by decide +kernel

/-- PowerStateCommands: P1 entry with each condition missing and with all; the end of a wake and of a transition whose barrier stands; coolant. -/
theorem test_meets_powerStateCommands :
    let d := (up.wr Reg.p1Delay 1).wr Reg.rimCoresUp 0xFFFF
    let b (t : Nat) : Dev := { act d with pwr := { d.pwr with transition := some (t, true) } }.wr Reg.pstateBusy 1 |>.wr Reg.pstateTarget t
    (up.wr Reg.p1Delay 0).rd Reg.p1Delay = 0 ∧
    (7 ≤ d.rd Reg.stage ∧ d.rd Reg.pstate = 0 ∧ d.bit Reg.pstateBusy = false ∧ d.rd Reg.p1Delay ≠ 0 ∧ d.drained = true ∧ d.hasWork = false ∧
      d.issueStands = false ∧ d.jobs 0x04 = [] ∧ d.img.activating = false) ∧
    d.coresDead = false ∧ ((b 0).bit Reg.pstateBusy = true ∧ (b 0).rd Reg.pstateTarget = 0 ∧ (b 0).coresDead = false) ∧
    ((b 3).rd Reg.pstateTarget ≠ 0 ∧ (b 3).noBeats = false ∧ (b 3).pwr.transition = some (3, true) ∧ (b 3).drained = true) ∧
    ((d.wr Reg.stage 2).rd Reg.stage < 3 ∧ 3 ≤ (d.wr Reg.stage 3).rd Reg.stage) := by decide +kernel

/-- With a hold-up module that is genuine. -/
def humIn : Dev := { up with pwr := { up.pwr with hum := some {} } }

/-- FeedsAndPreserve: a feed present and lost, the other with it and without; a ride-through, with a feed and with none; no power. -/
theorem test_meets_feedsAndPreserve :
    let one : Dev := { up with pwr := { up.pwr with feeds := [(0, true), (1, false)] } }
    let ride : Dev := { up with pwr := { up.pwr with feeds := [(0, false), (1, false)], ride := some (1, 0) } }
    (up.pwr.aonOn = true ∧ AMap.get false up.pwr.feeds (1 % 2) = true ∧ ((AMap.insert (1 % 2) false up.pwr.feeds).any fun x => x.2) = true) ∧
    (AMap.get false one.pwr.feeds (1 % 2) = false ∧ one.pwr.ride = none ∧ AMap.get false one.pwr.feeds (0 % 2) = true ∧
      ((AMap.insert (0 % 2) false one.pwr.feeds).any fun x => x.2) = false ∧ (one.wr Reg.stage 6).rd Reg.stage < 7 ∧ (one.wr Reg.stage 6).pwr = one.pwr) ∧
    (AMap.get false ride.pwr.feeds (1 % 2) = false ∧ ride.pwr.ride = some (1, 0) ∧ 7 ≤ ride.rd Reg.stage ∧ ride.pwr.packages ≠ [] ∧
      (ride.pwr.feeds.any fun x => x.2) = false) ∧
    ({ up with pwr := { up.pwr with aonOn := false } } : Dev).pwr.aonOn = false := by decide +kernel

/-- HoldUpModule: none and one present, a ride-through, an alarm held, P4. -/
theorem test_meets_holdUpModule :
    let ride : Dev := { humIn with pwr := { humIn.pwr with ride := some (1, 0) } }
    (up.pwr.aonOn = true ∧ up.pwr.hum = none ∧ 1 ≤ up.rd Reg.stage) ∧ (humIn.pwr.hum = some {} ∧ humIn.pwr.ride = none) ∧
    (ride.pwr.hum = some {} ∧ ride.pwr.ride = some (1, 0)) ∧ ({ humIn with pwr := { humIn.pwr with humAlarm := true } } : Dev).pwr.humAlarm = true ∧
    (7 ≤ humIn.rd Reg.stage ∧ humIn.pwr.hum ≠ none ∧ humIn.pwr.humAlarm = false ∧ (humIn.pwr.feeds.any fun x => x.2) = true ∧ 1199 < 1200 ∧
      humIn.pwr.humReplace = false) ∧
    Dev.reset.rd Reg.stage < 1 ∧ humIn.rd Reg.pstate < 4 ∧ ({} : Hum).genuine = true ∧ ({ genuine := false } : Hum).genuine = false := by decide +kernel

/-- FieldsAndOscillators: a field on and off, the last one and one that does not exist; a rail, a phase lost already; a field unlocked, injected and coupled, with its neighbours and without. -/
theorem test_meets_fieldsAndOscillators :
    let off := up.wr (Reg.fieldState 35) 1
    let lk := (up.wr (Reg.lockState 35) 1).wr (Reg.lockState 34) 1
    let b : Dev := { act up with serve := { (act up).serve with between := false } }
    (up.fieldOn 35 = true ∧ 3 ≤ up.rd Reg.stage ∧ up.rd Reg.pstate < 4 ∧ off.fieldOn 35 = false ∧ ¬ (off.rd Reg.pstate = 2 ∧ 1 = 1)) ∧
    (isRail 36 = false ∧ (35, 15) ∉ up.pwr.phaseLost ∧ up.phasesLeft 35 16 0 32 = 16 ∧
      (35, 15) ∈ ({ up with pwr := { up.pwr with phaseLost := [(35, 15)] } } : Dev).pwr.phaseLost) ∧
    (1300 ≤ AMap.get 0 ({ up with pwr := { up.pwr with vlHalf := [(35, 1300)] } } : Dev).pwr.vlHalf 35 ∧ up.rd Reg.pstate < 2 ∧
      up.treeVolts 0 [{ tile := 0, mv := 700 }, { tile := 1, mv := 690 }, { tile := 30, mv := 600 }] = [700, 690]) ∧
    (up.sensed 0 = true ∧ up.sensed 255 = false) ∧
    (lk.locked 35 = true ∧ (up.wr (Reg.lockState 35) 0).locked 35 = false ∧ lk.rd (Reg.lockState 35) = 1 ∧
      ((fieldNeighbours 35).any fun m => lk.rd (Reg.lockState m) == 1) = true ∧ (lk.wr (Reg.lockState 35) 2).rd (Reg.lockState 35) ≠ 1) ∧
    ((b.wr (Reg.lockState 35) 0).rd (Reg.lockState 35) = 0 ∧ (b.wr (Reg.lockState 35) 0).fieldOn 35 = true ∧ (b.wr (Reg.lockState 35) 0).noBeats = false) := by
  decide +kernel

/-- ThermalCommands: a sample without a tile, of 94.9 °C and of 95 °C; the sensor of a tile that works and of none; a field on, with and without power to measure. -/
theorem test_meets_thermalCommands :
    let x (t : Nat) : TempSample := { field := 0, tiles := [{ tile := 0, t := t }], inlet := 400, outlet := 450, flow := 150, dp := 0 }
    let ts (t : Nat) := ((x t).tiles.filter fun r => fieldOf r.tile == (x t).field && up.sensed r.tile).map fun r => r.t
    3 ≤ up.rd Reg.stage ∧ up.rd Reg.pstate < 4 ∧ ts 949 ≠ [] ∧ maxOf (ts 949) < 950 ∧ 950 ≤ maxOf (ts 950) ∧ (up.wr Reg.stage 2).rd Reg.stage < 3 ∧
      7 ≤ up.rd Reg.stage ∧ up.sensed 0 = true ∧ up.sensed 180 = false ∧ up.fieldOn 35 = true ∧ (up.wr (Reg.fieldW 35) 99).rd (Reg.fieldW 35) < 100 ∧
      950 ≤ (up.wr (Reg.hotT 35) 950).rd (Reg.hotT 35) ∧ (up.wr Reg.pstate 2).rd Reg.pstate = 2 := by decide +kernel

/-- PinCommands: a device that follows, at a beat, and one that does not; pulses at the limits; a clock offset of 101 ns, locked. -/
theorem test_meets_pinCommands :
    let d : Dev := { act up with serve := { (act up).serve with between := false, syncMode := 2 } }
    let e := (up.wr (Reg.linkUp 15) 1).wr Reg.ptpLocked 1
    up.serve.syncMode ≠ 2 ∧ (d.serve.syncMode = 2 ∧ d.imgActive = true ∧ d.serve.between = false ∧ d.rd Reg.pstate = 0 ∧ d.serve.syncLast = none) ∧
    ((up.wr Reg.timeSrc 1).rd Reg.timeSrc = 1 ∧ (up.wr Reg.timeSrc 0).rd Reg.timeSrc ≠ 1 ∧ up.pwr.aonOn = true ∧ 7 ≤ up.rd Reg.stage) ∧
    (up.alertDrives = false ∧ (up.wr Reg.errStall 1).alertDrives = true) ∧
    (e.portLive 15 = true ∧ up.portLive 15 = false ∧ 100 < (-101 : Int).natAbs ∧ e.rd Reg.ptpLocked = 1) := by decide +kernel

/-- PortCommands: port 15 up, down and lost, with a module that fits, one that does not and an empty cage, at stages B5 and B6. -/
theorem test_meets_portCommands :
    let d := up.wr (Reg.linkUp 15) 1
    let c : Dev := { up with fab := { up.fab with modules := [(15, (2, 4))] } }
    6 ≤ d.rd Reg.stage ∧ (up.wr Reg.stage 5).rd Reg.stage < 6 ∧ d.bit (Reg.linkUp 15) = true ∧ up.bit (Reg.linkUp 15) = false ∧ d.rd Reg.pstate < 4 ∧
      up.cageFits 15 = true ∧ c.cageFits 15 = false ∧ up.portLive 15 = false ∧ d.portLive 15 = true ∧ moduleFits (1, 15) = true ∧ moduleFits (1, 16) = false ∧
      moduleFits (2, 4) = false ∧ moduleFits (3, 0) = false := by decide +kernel

/-- A packet of a type from device 1, as its header says. -/
def np (type : Nat) : NPkt := { hdr := BitVec.ofNat 256 (1 + 16 * type + 2 ^ 16) }

/-- A device that knows device 1 and has a key with it. -/
def net (a : Assoc) : Dev :=
  ({ up with fab := { up.fab with table := [(0, { dev := 0, state := 2 }), (1, { dev := 1, state := 2 })], assocs := [(1, a)] } }.wr (Reg.linkUp 0) 1).wr Reg.memberState 2

/-- NarlasReception: a port that is down; a packet of each type that passes and one that does not; data that has come already. -/
theorem test_meets_narlasReception :
    let d := net { keyed := true }
    let e := net { keyed := true, rxNext := 1 }
    6 ≤ d.rd Reg.stage ∧ d.rd Reg.pstate < 4 ∧ d.bit (Reg.linkUp ((np 0).port % 16)) = true ∧ up.bit (Reg.linkUp 0) = false ∧
      (∀ t < 5, d.rxBad t false (np t) = false ∧ d.rxBad t true { np t with tagOk := false } = true) ∧
      (e.rxBad 0 false (np 0) = false ∧ bitsOf (np 0).hdr.toNat 208 32 ≥ e.rd Reg.fabEpoch ∧ (e.assoc (srcOf (np 0))).seen (bitsOf (np 0).hdr.toNat 64 32) = true) := by
  decide +kernel

/-- NarlasTimers: nothing and something to acknowledge, a path up with a packet on it for the second and the third expiry, a path down with a third reply, a peer gone. -/
theorem test_meets_narlasTimers :
    let sent : Sent := { psn := 0, path := 0, body := { cls := 1, flow := 0, msg := 0, offset := 0, last := true, tenant := none, bytes := [] } }
    let d := net { keyed := true, unacked := 1, sent := [sent] }
    let p (x : Path) : Dev := net { keyed := true, sent := [sent], paths := [(0, x)] }
    let gone := net { keyed := true, reachable := false }
    (((net {}).assoc 1).unacked = 0 ∧ (d.assoc 1).unacked ≠ 0 ∧ (List.range 64).find? (fun k => d.pathUp (d.assoc 1) k) = some 0) ∧
    (((d.assoc 1).path 0).up = true ∧ ((d.assoc 1).sent.any fun y => y.path == 0) = true ∧ ((d.assoc 1).path 0).expiries < 2 ∧
      2 ≤ (((p { expiries := 2 }).assoc 1).path 0).expiries) ∧
    ((((p { up := false, probed := true, replies := 2 }).assoc 1).path 0).up = false ∧ (p { up := false, probed := true, replies := 2 }).portLive (planeOf 0) = true ∧
      2 ≤ (((p { up := false, probed := true, replies := 2 }).assoc 1).path 0).replies ∧ (((p { up := false, probed := true }).assoc 1).path 0).replies < 2) ∧
    (gone.peerGone 1 = true ∧ gone.rd Reg.memberState = 2 ∧ gone.acting = some gone.me ∧ (entryOf gone.latestTable 1).state = 2 ∧ d.peerGone 1 = false) := by decide +kernel

/-- NarlasTimers: among three members the coordinator is gone and another acts in its place. -/
theorem test_meets_narlasTimers_coordinator :
    let t : List (Nat × Member) := (List.range 3).map fun i => (i, { dev := i, state := 2 })
    let f (gone : Nat) (me : Nat) : Dev :=
      ({ up with fab := { up.fab with table := t, assocs := [(gone, { reachable := false })] } }.wr Reg.memberState 2).wr Reg.fabDevice me
    ((f 2 0).acting = some (f 2 0).me ∧ (f 2 0).peerGone 2 = true ∧ (f 2 0).majority = true ∧ (f 2 0).coord = some (f 2 0).me ∧ up.coord = none) ∧
    ((f 0 2).coord = some 0 ∧ 0 ≠ (f 0 2).me ∧ (f 0 2).peerGone 0 = true ∧ (f 0 2).rd Reg.memberState = 2 ∧ (f 0 2).acting = some 1 ∧ 1 ≠ (f 0 2).me) := by
  decide +kernel

/-- AssociationKeys: peers above and below, a key in place and none, a key before it. -/
theorem test_meets_associationKeys :
    let d := (net { keyed := true, prevKey := true }).wr Reg.fabDevice 0
    6 ≤ d.rd Reg.stage ∧ 1 ≠ d.me ∧ d.me < 1 ∧ 0 < (d.wr Reg.fabDevice 1).me ∧ (d.assoc 1).keyed = true ∧ (d.assoc 2).keyed = false ∧ (d.assoc 1).prevKey = true ∧
      (d.assoc 2).prevKey = false := by decide +kernel

/-- ServingOverFabric: the first segment and another; a record in order and one out of order; a stream with a partner that waits for its acknowledgement; one that moves. -/
theorem test_meets_servingOverFabric :
    let j (n : Nat) : JRec := { src := 1, stream := 5, num := n, entry := 0, toks := [] }
    let d : Dev := { up with fab := { up.fab with kept := [(1 * 32768 + 5, (j 3, [], 0))] } }
    let r : List Nat := [9]
    let s := strm up { partner := some 1, journalNum := 4, journalSent := true, journalQ := [(r, [])] }
    up.rd Reg.segment = 0 ∧ (up.wr Reg.segment 1).rd Reg.segment ≠ 0 ∧ (AMap.find d.fab.kept (1 * 32768 + 5)).isSome = true ∧ (j 5).num ≠ 3 + 1 ∧
      (∀ o, AMap.find d.fab.kept (1 * 32768 + 5) = some o → (j 4).num = o.1.num + 1) ∧ up.stream? 5 = none ∧ (s.stream? 5).isSome = true := by decide +kernel

/-- IdentityAndFloorHold: a part with an identity and a key that takes a step. -/
theorem test_meets_identityAndFloorHold :
    let c : Sec := { Sec.reset with deviceKey := [1], keys := [(0, [1]), (5, [2])] }
    let s : State := { State.reset with sec := c, pending := [.stepSyncLost] }
    s.sec.deviceKey ≠ [] ∧ (s.sec.keys.map fun (k : Nat × List Byte) => k.1).Pairwise (· < ·) ∧ s.sec.keys ≠ [] ∧ (∃ t, step s = .next t) ∧
      ∃ t, step { s with pending := [.stageReached {}], dev := s.dev.wr Reg.stage 2 } = .next t ∧ (s.dev.wr Reg.stage 2).rd Reg.stage = 2 := by
  refine ⟨by decide +kernel, by decide +kernel, by decide +kernel, ⟨_, rfl⟩, _, rfl, by decide +kernel⟩

/-- TableLookups: five slice values, a weight byte in each range. -/
theorem test_meets_tableLookups : ([1, -2, 3, -4, 5] : List Int).length = 5 ∧ 121 ≤ 242 ∧ 120 ≤ 120 ∧ 243 ≤ 255 := by decide

/-- BlockScaleIsSmallest: a block of zeros; one of a finite value for which a scale is large enough; one of a value too large for every scale. -/
theorem test_meets_blockScaleIsSmallest :
    (∀ neg m k, FV.fin neg m k ∈ [FV.fin true 0 0] → m = 0) ∧
    (FV.fin false 1 3 ∈ [FV.fin false 1 3] ∧ ∀ neg m k, FV.fin neg m k ∈ [FV.fin false 1 3] →
      -8 ≤ rneShift (signedOf neg m) (k - 1) ∧ rneShift (signedOf neg m) (k - 1) ≤ 7) ∧
    (rneShift (signedOf false 1) (131 - 127) = 16 ∧ ∀ e ∈ List.range 256, 7 < rneShift (signedOf false 1) (131 - ((e : Int) - 128))) := by
  refine ⟨?_, ⟨by simp, ?_⟩, by decide +kernel⟩
  · intro neg m k h; simp at h; exact h.2.1
  · intro neg m k h; simp at h; obtain ⟨rfl, rfl, rfl⟩ := h; decide

/-- Well-formedness refuses what names no part: one ill-formed command for each check, beside one that it accepts. -/
theorem test_wellFormed_refuses :
    let ok := WellFormed.instr
    let a : RegAcc := { off := 0x3FFFFF8 }
    let p : NPkt := { hdr := 0 }
    (ok (.identify { qp := 16383, pkt := 0 }) = true ∧ ok (.identify { qp := 16384, pkt := 0 }) = false ∧
      ok (.identify { qp := 0, pkt := 0, inl := List.replicate 4097 0 }) = false) ∧
    (ok (.beatWatchdog (191 * 256 + 179)) = true ∧ ok (.beatWatchdog 180) = false ∧ ok (.beatWatchdog (192 * 256)) = false) ∧
    (ok (.memoryTierScrub (191 * 256 + 191) .clean) = true ∧ ok (.memoryTierScrub 192 .clean) = false ∧ ok (.memoryTierScrub (192 * 256) .clean) = false) ∧
    (ok (.rcRead a) = true ∧ ok (.rcRead { a with size := 2 }) = false ∧ ok (.rcRead { a with off := 4 }) = false ∧ ok (.rcRead { a with off := 0x4000000 }) = false) ∧
    (ok (.bar4Access { addr := 0, len := 1 }) = true ∧ ok (.bar4Access { addr := 0, len := 0 }) = false ∧ ok (.bar4Access { addr := 0, data := some [], len := 4 }) = false) ∧
    (ok (.ack { p with port := 15 }) = true ∧ ok (.ack { p with port := 16 }) = false) ∧
    (ok (.hbmPatrolScrub 11 (List.replicate 72 0) none) = true ∧ ok (.hbmPatrolScrub 11 (List.replicate 71 0) none) = false ∧
      ok (.hbmPatrolScrub 12 (List.replicate 72 0) none) = false) := by decide +kernel

/-- Well-formedness refuses each number out of its range. -/
theorem test_wellFormed_ranges :
    let a : RegAcc := { off := 0 }
    ([.tokenDone 0 64 none, .linkDown 0 4, .livenessFlit 0 4 true, .flitReceive { tile := 0, dir := 4, kind := .channel 0 }, .hbmStackLost 12 0, .oscCalibration 36 0,
      .sensorCalibration 36, .journalPackageLost 2, .rimCoreLost 16, .doorbell 64 0 0, .doorbell 0 16384 0, .queueEnable 16384 a, .completionRecordWrite 16384,
      .bankEoi 16 a, .eventRingEnable 4096 a, .eventRingHeadWrite 4096 a, .routeWrite 512 a, .aonEdge 6, .powerOn 2, .feedLost 2 false 0 0, .feedRestored 2,
      .fieldTrip 36 0, .fieldUndervolt 36, .regPhaseLost 132 0, .regPhaseLost 0 16, .voltageUpdate 36 [] 0, .stageReached { part := { bypass := [(0, 7)] } }, .oscUnlock 36, .oscInjectLost 36, .oscRelock 36 true,
      .rthUpdate 36, .fieldOvertemp 180, .coolantLost 2, .portDown 16 false, .portUp 16, .ackTimer 1024, .pathRetransmit 0 64, .peerLost 1024, .rekey 1024,
      .journalAcknowledge 0 32768 0, .streamMigrated 32768 0 0, .weightChunk 1024 0 0 [], .probeReply 0 64, .cableModuleDetected 16 0 0] : List Instr).all
        (fun c => !WellFormed.instr c) = true := by decide +kernel

/-- The table gives the rows no bits: no word spells a command (block model). -/
theorem test_decodeTableWord : decodeTableWord 64 5 = none ∧ (State.reset.withFetchWord 64 5).pending = [] := ⟨rfl, rfl⟩

/-- The block that a step answers. -/
def devOf (o : Host.Outcome State Fault Refusal) : Dev := match o with
  | .next t => t.dev
  | _ => Dev.reset

/-- An empty queue: one tick of the clock (log entry 16). -/
theorem test_idle_ticks : (devOf (step State.reset)).tick = State.reset.dev.tick + 1 := by decide +kernel

/-- 02 R46: the weight byte 242 holds five trits 1, 0 five trits −1, 122 the trit 1 in its least significant place. -/
theorem test_trits : trits 242 = [1, 1, 1, 1, 1] ∧ trits 0 = [-1, -1, -1, -1, -1] ∧ dot (trits 122) [1, 0, 0, 0, 0] = 1 := by decide

/-- 02 R56: 15 / 2 is 7.5 and rounds to 8 at even, so 15 takes the scale 2; −8 fits as it is. -/
theorem test_blockScale : blockScale [FV.fin false 15 0] = 2 ∧ blockScale [FV.fin true 8 0] = 0 := by decide +kernel

/-- 13 R326: an EOI of a ring that is not active is counted. -/
theorem test_evtEoi : (devOf (exec (.evtEoi { off := 0x10008, val := 7 }) (st up))).rd Reg.evtSpuriousEoi = 1 := by decide +kernel

/-- 00 R6: a counter that a read clears is 0 after it. -/
theorem test_rcRead : (devOf (exec (.rcRead { off := Reg.evtSpuriousEoi.off, size := 8 }) (st (up.wr Reg.evtSpuriousEoi 9)))).rd Reg.evtSpuriousEoi = 0 := by decide +kernel

/-- 20 R445, 17 R393: a field that trips is off and UNLOCKED with its clock off. -/
theorem test_fieldTrip : let u := devOf (exec (.fieldTrip 35 0) (st up))
    u.rd (Reg.fieldState 35) = 1 ∧ u.rd (Reg.lockState 35) = 3 ∧ u.rd (Reg.errTrip 35) = 1 := by decide +kernel

/-- 17 R390: a phase lost from a field's regulator leaves 15 of 16. -/
theorem test_regPhaseLost : (devOf (exec (.regPhaseLost 3 2) (st up))).rd (Reg.vlPhases 3) = 15 := by decide +kernel

/-- 13 R331: an edge on bit 3 sets it in the latch. -/
theorem test_aonEdge : (devOf (exec (.aonEdge 3) (st up))).rd Reg.aonLatch = 8 := by decide +kernel

/-- 19 R419: while the link is down BAR4 reaches nothing; before stage B7 it reads zeros. -/
theorem test_bar4 :
    (devOf (exec (.bar4Access { addr := 0, len := 4 }) (st Dev.reset))).io.outbox = [] ∧
    (devOf (exec (.bar4Access { addr := 0, len := 4 }) (st (up.wr Reg.stage 6)))).io.outbox = [.pcieData [0, 0, 0, 0]] := by decide +kernel

/-- 18 R415: a sensor that reads 95.0 °C sets the duty of its field to 8. -/
theorem test_tempSample :
    let x : TempSample := { field := 0, tiles := [{ tile := 0, t := 950 }], inlet := 400, outlet := 450, flow := 150, dp := 0 }
    (devOf (exec (.tempSample x) (st up))).rd (Reg.duty 0) = 8 := by decide +kernel

/-- 14 R347: the second stack that is lost is not remapped. -/
theorem test_hbmStackLost : (devOf (exec (.hbmStackLost 3 0) (st (up.wr Reg.lostStack 2)))).rd Reg.lostStack = 2 := by decide +kernel

/-- 23 R483: a pulse on STEP_SYNC_IN is latched as bit 0. -/
theorem test_stepSyncPulse : (devOf (exec (.stepSyncPulse 5) (st up))).rd Reg.aonLatch = 1 := by decide +kernel

end Sys2Proof.Tests
end

section
/-! PROOFS. Reserved bits and offsets of the register map (00 R7, 22 R471): reads of them give 0, writes of them do nothing. -/
namespace Sys2Proof.Proofs
open Sys2Proof.Machine

/-! Reads: a word is the union of its fields, each in its own bits. -/

theorem bitOf_eq_testBit (n i : Nat) : bitOf n i = n.testBit i := by
  rw [Bool.eq_iff_iff]
  simp only [bitOf, Nat.testBit_eq_decide_div_mod_eq, beq_iff_eq, decide_eq_true_eq]

/-- The bits that a field of `w` bits at `lo` contributes to a word lie in [lo, lo + w). -/
theorem testBit_fieldBits_outside {i lo w : Nat} (x : Nat) (h : i < lo ∨ lo + w ≤ i) :
    (x % 2 ^ w * 2 ^ lo).testBit i = false := by
  rw [Nat.testBit_mul_two_pow, Nat.testBit_mod_two_pow]
  rcases h with h | h
  · simp [show ¬ lo ≤ i by omega]
  · simp [show ¬ i - lo < w by omega]

theorem mem_wordFields_of_mem_liveFields {d : Dev} {off : Nat} {f : Fld} (h : f ∈ d.liveFields off) :
    f ∈ Reg.wordFields off := by
  unfold Dev.liveFields at h
  split at h
  · cases h
  · exact h

theorem liveFields_of_reserved (d : Dev) {off : Nat} (h : Reg.wordFields off = []) : d.liveFields off = [] :=
  List.eq_nil_iff_forall_not_mem.2 fun _ hf => List.ne_nil_of_mem (mem_wordFields_of_mem_liveFields hf) h

/-- A bit outside every field of a word reads 0. -/
theorem regWord_bit_outside (d : Dev) {off i : Nat}
    (h : ∀ f ∈ Reg.wordFields off, i < f.lo ∨ f.lo + f.width ≤ i) : bitOf (d.regWord off) i = false := by
  rw [bitOf_eq_testBit]
  refine List.foldlRecOn (motive := fun n : Nat => n.testBit i = false) _ _ (Nat.zero_testBit i) ?_
  intro n hn f hf
  split
  · exact hn
  · rw [Nat.testBit_or, hn, testBit_fieldBits_outside _ (h f (mem_wordFields_of_mem_liveFields hf)), Bool.or_self]

theorem regWord_of_reserved (d : Dev) {off : Nat} (h : Reg.wordFields off = []) : d.regWord off = 0 := by
  simp [Dev.regWord, liveFields_of_reserved d h]

theorem regReadPart_of_reserved (d : Dev) {off : Nat} (h : Reg.wordFields off = []) (b0 b1 : Nat) :
    (d.regReadPart off b0 b1).2 = d := by
  have hrc : d.clearRc off (8 * b0) (8 * b1) = d := by simp [Dev.clearRc, liveFields_of_reserved d h]
  simp [Dev.regReadPart, hrc]

/-! The map: an effect that handles the fields `fs` for a write at `off` sees no bits of the word but those of its fields. -/

/-- Of the fields `fs`, those at `off` are among the fields that the map gives the word there. -/
def MapLists (off : Nat) (fs : List Fld) : Prop := ∀ f ∈ fs, f.off = off → f ∈ Reg.wordFields off

theorem MapLists.of_subset {off : Nat} {fs gs : List Fld} (h : MapLists off fs) (hs : gs ⊆ fs) : MapLists off gs :=
  fun f hf => h f (hs hf)

theorem entryAt_eq_some {off base stride count n : Nat} (h : Reg.entryAt off base stride count = some n) :
    base ≤ off ∧ off < base + stride * count ∧ n = (off - base) / stride := by
  unfold Reg.entryAt at h
  split at h
  · next hin => exact ⟨hin.1, hin.2, (Option.some.inj h).symm⟩
  · cases h

theorem entryAt_of_not_mem {off base stride count : Nat} (h : off < base ∨ base + stride * count ≤ off) :
    Reg.entryAt off base stride count = none :=
  if_neg (by omega)

/-- Above the identity block the map lists every candidate that lies at the offset. -/
theorem mapLists_candidates {off : Nat} {fs : List Fld} (h8 : off % 8 = 0) (h : 0xA0 ≤ off)
    (hc : Reg.candidates off = fs) : MapLists off fs := by
  intro f hf ho
  have hid : ¬ (0x10 ≤ off ∧ off < 0xA0) := by omega
  simp [Reg.wordFields, h8, hid, hc, hf, ho]

theorem mapLists_queueFields {off q : Nat} (h8 : off % 8 = 0) (h : Reg.entryAt off 0x100000 64 16384 = some q) :
    MapLists off (Reg.queueFields q) := by
  obtain ⟨hlo, hhi, -⟩ := entryAt_eq_some h
  exact mapLists_candidates h8 (by omega) (by simp (disch := omega) only [Reg.candidates, entryAt_of_not_mem, h])

theorem mapLists_ringFields {off r : Nat} (h8 : off % 8 = 0) (h : Reg.entryAt off 0x20000 32 4096 = some r) :
    MapLists off (Reg.ringFields r) := by
  obtain ⟨hlo, hhi, -⟩ := entryAt_eq_some h
  exact mapLists_candidates h8 (by omega) (by simp (disch := omega) only [Reg.candidates, entryAt_of_not_mem, h])

theorem mapLists_bankFields {off k : Nat} (h8 : off % 8 = 0) (h : Reg.entryAt off 0x14000 256 16 = some k) :
    MapLists off (Reg.bankFields k) := by
  obtain ⟨hlo, hhi, -⟩ := entryAt_eq_some h
  exact mapLists_candidates h8 (by omega) (by simp (disch := omega) only [Reg.candidates, entryAt_of_not_mem, h])

theorem mapLists_msixFields {off v : Nat} (h8 : off % 8 = 0) (h : Reg.entryAt off 0x18000 16 2048 = some v) :
    MapLists off [Reg.msixAddr v, Reg.msixData v, Reg.msixMask v] := by
  obtain ⟨hlo, hhi, -⟩ := entryAt_eq_some h
  exact mapLists_candidates h8 (by omega) (by simp (disch := omega) only [Reg.candidates, entryAt_of_not_mem, h])

theorem mapLists_portFields {off p : Nat} (h8 : off % 8 = 0) (h : Reg.entryAt off 0x400100 16 16 = some p) :
    MapLists off (Reg.portFields p) := by
  obtain ⟨hlo, hhi, -⟩ := entryAt_eq_some h
  exact mapLists_candidates h8 (by omega) (by simp (disch := omega) only [Reg.candidates, entryAt_of_not_mem, h])

theorem mapLists_vminTarget {off n : Nat} (h8 : off % 16 = 8) (h : Reg.entryAt off 0x200108 16 36 = some n) :
    MapLists off [Reg.vminTarget n] := by
  obtain ⟨hlo, hhi, hn⟩ := entryAt_eq_some h
  have hp : Reg.entryAt off 0x200100 16 36 = some n := by
    unfold Reg.entryAt
    rw [if_pos (by omega), hn]
    exact congrArg some (by omega)
  have hc : Reg.candidates off = Reg.fieldPower n := by
    simp (disch := omega) only [Reg.candidates, entryAt_of_not_mem, hp]
  exact (mapLists_candidates (by omega) (by omega) hc).of_subset (by simp [Reg.fieldPower])

/-- Every entry of the MSI-X table has a field in each of its two words. -/
theorem wordFields_msix_ne_nil {off v : Nat} (h8 : off % 8 = 0) (h : Reg.entryAt off 0x18000 16 2048 = some v) :
    Reg.wordFields off ≠ [] := by
  obtain ⟨hlo, hhi, hv⟩ := entryAt_eq_some h
  have hl := mapLists_msixFields h8 h
  have hoff : off = (Reg.msixAddr v).off ∨ off = (Reg.msixData v).off := by
    simp only [Reg.msixAddr, Reg.msixData]; omega
  rcases hoff with ho | ho
  · exact List.ne_nil_of_mem (hl _ (by simp) ho.symm)
  · exact List.ne_nil_of_mem (hl _ (by simp) ho.symm)

/-- The fields of the words that stand once and whose write has an effect of its own (`Dev.storeWord`). -/
def ownEffectFields : List Fld :=
  [Reg.deviceReset, Reg.resetKey, Reg.evtEoi, Reg.raiseSource, Reg.raiseDetail, Reg.aonLatch, Reg.mirrorGib, Reg.eccMode,
    Reg.hostWinBase, Reg.bar4BaseGib, Reg.freqStep, Reg.rideThresh, Reg.beatWatchdog, Reg.migratePages, Reg.timeSrc,
    Reg.segPrev, Reg.segNext, Reg.segment]

theorem mem_wordFields_of_ownEffect : ∀ f ∈ ownEffectFields, f ∈ Reg.wordFields f.off := by decide +kernel

/-- The offsets of their words. -/
def ownEffectWords : List Nat :=
  [0x1010, 0x10008, 0x10018, 0x10020, 0x500008, 0x2000, 0x2008, 0x201000, 0x200018, 0x600108, 0x400018]

theorem wordFields_ownEffect_ne_nil : ∀ o ∈ ownEffectWords, Reg.wordFields o ≠ [] := by decide +kernel

theorem mapLists_of_ownEffect {fs : List Fld} (hs : fs ⊆ ownEffectFields) (off : Nat) : MapLists off fs :=
  fun f hf ho => ho ▸ mem_wordFields_of_ownEffect f (hs hf)

/-! Writes that differ in reserved bits only. -/

theorem off_of_covers {w : WordWrite} {f : Fld} (h : w.covers f = true) : f.off = w.off := by
  simp only [WordWrite.covers, Bool.and_eq_true, beq_iff_eq] at h
  exact h.1.1

/-- Two writes of one word, in the same bytes and by the same core, that give its fields the same values. -/
structure SameFields (w u : WordWrite) : Prop where
  off : w.off = u.off
  b0 : w.b0 = u.b0
  b1 : w.b1 = u.b1
  core : w.core = u.core
  value : ∀ f ∈ Reg.wordFields w.off, w.value f = u.value f

namespace SameFields
variable {w u : WordWrite} {fs : List Fld} (h : SameFields w u)
include h

theorem covers (f : Fld) : w.covers f = u.covers f := by
  simp [WordWrite.covers, h.off, h.b0, h.b1]

theorem value_of_covers (hl : MapLists w.off fs) {f : Fld} (hf : f ∈ fs) (hc : u.covers f = true) :
    w.value f = u.value f :=
  h.value f (hl f hf (off_of_covers ((h.covers f).trans hc)))

/-- A test of a field that the write covers answers the same for both writes. -/
theorem covers_and_iff (hl : MapLists w.off fs) {f : Fld} (hf : f ∈ fs) (p : Nat → Prop) :
    (w.covers f = true ∧ p (w.value f)) ↔ (u.covers f = true ∧ p (u.value f)) := by
  rw [h.covers]
  exact and_congr_right fun hc => by rw [h.value_of_covers hl hf hc]

/-- What a write does by a field that it covers is the same for both writes. -/
theorem ite_covers_congr {α : Type} (hl : MapLists w.off fs) {f : Fld} (hf : f ∈ fs) (g : Nat → α) (x : α) :
    (if w.covers f = true then g (w.value f) else x) = if u.covers f = true then g (u.value f) else x := by
  rw [h.covers]
  exact ite_congr rfl (fun hc => by rw [h.value_of_covers hl hf hc]) fun _ => rfl

theorem storeRw (hl : MapLists w.off fs) (d : Dev) : d.storeRw w fs = d.storeRw u fs :=
  List.foldl_rel (r := Eq) rfl fun f hf d _ hd => by
    subst hd
    rw [h.covers]
    exact ite_congr rfl (fun hc => by rw [h.value_of_covers hl hf hc.2]) fun _ => rfl

theorem storeW1 (hl : MapLists w.off fs) (d : Dev) : d.storeW1 w fs = d.storeW1 u fs :=
  List.foldl_rel (r := Eq) rfl fun f hf d _ hd => by
    subst hd
    rw [h.covers]
    cases hc : u.covers f with
    | false => rfl
    | true => rw [h.value_of_covers hl hf hc]

theorem storePlain (d : Dev) : d.storePlain w = d.storePlain u := by
  have hl : MapLists w.off (Reg.wordFields w.off) := fun f hf _ => hf
  unfold Dev.storePlain
  rw [← h.off]
  simp only [h.storeRw hl, h.storeW1 hl]

theorem storeQueue {q : Nat} (hl : MapLists w.off (Reg.queueFields q)) (d : Dev) :
    d.storeQueue q w = d.storeQueue q u := by
  have hen : Reg.qEnable q ∈ Reg.queueFields q := by simp [Reg.queueFields]
  have hrest : MapLists w.off ((Reg.queueFields q).filter fun f => f != Reg.qEnable q) :=
    hl.of_subset List.filter_sublist.subset
  have h0 := h.covers_and_iff hl hen (· = 0)
  have h1 (e : Dev) := h.covers_and_iff hl hen (fun v => v = 1 ∧ e.ringsValid q)
  simp only [Dev.storeQueue, h.storeW1 hl, h.storeRw hrest, h0, h1]

theorem storeRing {r : Nat} (hl : MapLists w.off (Reg.ringFields r)) (d : Dev) :
    d.storeRing r w = d.storeRing r u := by
  have hen : Reg.ringEnable r ∈ Reg.ringFields r := by simp [Reg.ringFields]
  have hhd : Reg.ringHead r ∈ Reg.ringFields r := by simp [Reg.ringFields]
  have hcfg : MapLists w.off [Reg.ringBase r, Reg.ringSize r, Reg.ringTarget r, Reg.ringVector r] :=
    hl.of_subset (by simp [Reg.ringFields])
  have h0 := h.covers_and_iff hl hen (· = 0)
  have h1 (e : Dev) := h.covers_and_iff hl hen
    (fun v => v = 1 ∧ 3 ≤ e.rd (Reg.ringSize r) ∧ e.rd (Reg.ringTarget r) ≠ 3 ∧ e.rd (Reg.ringBase r) % 32 = 0)
  have hmove (e : Dev) := h.ite_covers_congr hl hhd (e.moveHead r) e
  simp only [Dev.storeRing, h.storeW1 hl, h.storeRw hcfg, h0, h1, hmove]

theorem storePlane {p : Nat} (hl : MapLists w.off (Reg.portFields p)) (d : Dev) :
    d.storePlane p w = d.storePlane p u := by
  have hpre : MapLists w.off [Reg.planePrefix p] := hl.of_subset (by simp [Reg.portFields])
  simp only [Dev.storePlane, h.storeW1 hl, h.storeRw hpre]

/-- A field with an effect of its own takes the same value from both writes. -/
theorem value_ownEffect {f : Fld} (ho : w.off = f.off) (hf : f ∈ ownEffectFields := by simp [ownEffectFields]) :
    w.value f = u.value f :=
  h.value f (ho ▸ mem_wordFields_of_ownEffect f hf)

theorem storeVmin {n : Nat} (hl : MapLists w.off [Reg.vminTarget n]) (d : Dev) :
    d.storeVmin n w = d.storeVmin n u := by
  unfold Dev.storeVmin
  rw [h.covers]
  cases hc : u.covers (Reg.vminTarget n) with
  | false => simp
  | true => rw [h.value_of_covers hl List.mem_cons_self hc]

theorem storeFabCfg (d : Dev) : d.storeFabCfg w = d.storeFabCfg u := by
  have hl {fs : List Fld} (hs : fs ⊆ ownEffectFields) (e : Dev) : e.storeRw w fs = e.storeRw u fs :=
    h.storeRw (mapLists_of_ownEffect hs _) e
  have hm := hl (fs := [Reg.migratePages]) (by simp [ownEffectFields])
  have ht := hl (fs := [Reg.timeSrc]) (by simp [ownEffectFields])
  have hs := hl (fs := [Reg.segPrev, Reg.segNext, Reg.segment]) (by simp [ownEffectFields])
  simp only [Dev.storeFabCfg, hm, ht, hs]

theorem storeReset (ho : w.off = 0x1010) (d : Dev) : d.storeReset w = d.storeReset u := by
  simp only [Dev.storeReset, h.covers, h.value_ownEffect (f := Reg.deviceReset) ho, h.value_ownEffect (f := Reg.resetKey) ho]

theorem storeHbmCtrl (ho : w.off = 0x500008) (d : Dev) : d.storeHbmCtrl w = d.storeHbmCtrl u := by
  simp only [Dev.storeHbmCtrl, h.covers, h.value_ownEffect (f := Reg.eccMode) ho, h.value_ownEffect (f := Reg.mirrorGib) ho]

theorem storeHostWin (ho : w.off = 0x2000) (d : Dev) : d.storeHostWin w = d.storeHostWin u := by
  simp only [Dev.storeHostWin, h.covers, h.value_ownEffect (f := Reg.hostWinBase) ho]

theorem storeBar4 (ho : w.off = 0x2008) (d : Dev) : d.storeBar4 w = d.storeBar4 u := by
  simp only [Dev.storeBar4, h.covers, h.value_ownEffect (f := Reg.bar4BaseGib) ho]

theorem storeFreq (ho : w.off = 0x201000) (d : Dev) : d.storeFreq w = d.storeFreq u := by
  simp only [Dev.storeFreq, h.covers, h.value_ownEffect (f := Reg.freqStep) ho]

theorem storeRide (ho : w.off = 0x200018) (d : Dev) : d.storeRide w = d.storeRide u := by
  simp only [Dev.storeRide, h.covers, h.value_ownEffect (f := Reg.rideThresh) ho]

theorem storeWatchdog (ho : w.off = 0x600108) (d : Dev) : d.storeWatchdog w = d.storeWatchdog u := by
  simp only [Dev.storeWatchdog, h.covers, h.value_ownEffect (f := Reg.beatWatchdog) ho]

/-- Two writes that give the fields of the word the same values have the same effect. -/
theorem storeWord (h8 : w.off % 8 = 0) (d : Dev) : d.storeWord w = d.storeWord u := by
  unfold Dev.storeWord
  rw [← h.off, ← h.core]
  refine ite_congr rfl (fun ho => h.storeReset ho d) fun _ => ?_
  cases hq : Reg.entryAt w.off 0x100000 64 16384 with
  | some q => exact h.storeQueue (mapLists_queueFields h8 hq) d
  | none =>
  cases hr : Reg.entryAt w.off 0x20000 32 4096 with
  | some r => exact h.storeRing (mapLists_ringFields h8 hr) d
  | none =>
  cases hk : Reg.entryAt w.off 0x14000 256 16 with
  | some k =>
    refine ite_congr rfl (fun _ => ?_) fun _ => rfl
    rw [h.storePlain]
    exact h.ite_covers_congr (mapLists_bankFields h8 hk) (by simp [Reg.bankFields]) (d.bankEoi k) _
  | none =>
  cases Reg.entryAt w.off 0x18000 16 2048 with
  | some v => exact congrArg (Dev.unmask · v) (h.storePlain d)
  | none =>
  cases hp : Reg.entryAt w.off 0x400100 16 16 with
  | some p => exact h.storePlane (mapLists_portFields h8 hp) d
  | none =>
  cases hn : Reg.entryAt w.off 0x200108 16 36 with
  | some n =>
    exact ite_congr rfl (fun h16 => h.storeVmin (mapLists_vminTarget h16 hn) d) fun _ => h.storePlain d
  | none =>
  refine ite_congr rfl (fun ho => by rw [h.covers, h.value_ownEffect ho]) fun _ => ?_
  refine ite_congr rfl (fun ho => by
    rw [h.covers, h.covers, h.value_ownEffect (f := Reg.raiseSource) ho, h.value_ownEffect (f := Reg.raiseDetail) ho]) fun _ => ?_
  refine ite_congr rfl (fun ho => by rw [h.covers, h.value_ownEffect ho]) fun _ => ?_
  refine ite_congr rfl (fun ho => h.storeHbmCtrl ho d) fun _ => ?_
  refine ite_congr rfl (fun ho => h.storeHostWin ho d) fun _ => ?_
  refine ite_congr rfl (fun ho => h.storeBar4 ho d) fun _ => ?_
  refine ite_congr rfl (fun ho => h.storeFreq ho d) fun _ => ?_
  refine ite_congr rfl (fun ho => h.storeRide ho d) fun _ => ?_
  refine ite_congr rfl (fun ho => h.storeWatchdog ho d) fun _ => ?_
  exact ite_congr rfl (fun _ => h.storeFabCfg d) fun _ => h.storePlain d

end SameFields

/-! Writes of a word that holds no field. -/

/-- A write at a reserved offset covers no field that the map would list. -/
theorem covers_of_reserved {w : WordWrite} {fs : List Fld} (h : Reg.wordFields w.off = []) (hl : MapLists w.off fs) :
    ∀ f ∈ fs, w.covers f = false := by
  intro f hf
  cases hc : w.covers f with
  | false => rfl
  | true => exact absurd h (List.ne_nil_of_mem (hl f hf (off_of_covers hc)))

section
variable {w : WordWrite} {fs : List Fld} (hc : ∀ f ∈ fs, w.covers f = false)
include hc

theorem storeRw_of_uncovered (d : Dev) : d.storeRw w fs = d :=
  List.foldlRecOn (motive := (· = d)) fs _ rfl fun e he f hf => by simp [hc f hf, he]

theorem storeW1_of_uncovered (d : Dev) : d.storeW1 w fs = d :=
  List.foldlRecOn (motive := (· = d)) fs _ rfl fun e he f hf => by simp [hc f hf, he]

end

theorem storeQueue_of_uncovered {w : WordWrite} {q : Nat} (hc : ∀ f ∈ Reg.queueFields q, w.covers f = false) (d : Dev) :
    d.storeQueue q w = d := by
  have hen := hc (Reg.qEnable q) (by simp [Reg.queueFields])
  have hrw (e : Dev) : e.storeRw w ((Reg.queueFields q).filter fun f => f != Reg.qEnable q) = e :=
    storeRw_of_uncovered (fun f hf => hc f (List.mem_filter.1 hf).1) e
  simp [Dev.storeQueue, storeW1_of_uncovered hc, hrw, hen]

theorem storeRing_of_uncovered {w : WordWrite} {r : Nat} (hc : ∀ f ∈ Reg.ringFields r, w.covers f = false) (d : Dev) :
    d.storeRing r w = d := by
  have hen := hc (Reg.ringEnable r) (by simp [Reg.ringFields])
  have hhd := hc (Reg.ringHead r) (by simp [Reg.ringFields])
  have hcfg : [Reg.ringBase r, Reg.ringSize r, Reg.ringTarget r, Reg.ringVector r] ⊆ Reg.ringFields r := by
    simp [Reg.ringFields]
  have hrw (e : Dev) : e.storeRw w [Reg.ringBase r, Reg.ringSize r, Reg.ringTarget r, Reg.ringVector r] = e :=
    storeRw_of_uncovered (fun f hf => hc f (hcfg hf)) e
  simp [Dev.storeRing, storeW1_of_uncovered hc, hrw, hen, hhd]

theorem storePlane_of_uncovered {w : WordWrite} {p : Nat} (hc : ∀ f ∈ Reg.portFields p, w.covers f = false) (d : Dev) :
    d.storePlane p w = d := by
  have hpre : [Reg.planePrefix p] ⊆ Reg.portFields p := by simp [Reg.portFields]
  have hrw (e : Dev) : e.storeRw w [Reg.planePrefix p] = e :=
    storeRw_of_uncovered (fun f hf => hc f (hpre hf)) e
  simp [Dev.storePlane, storeW1_of_uncovered hc, hrw]

theorem storePlain_of_reserved {w : WordWrite} (h : Reg.wordFields w.off = []) (d : Dev) : d.storePlain w = d := by
  simp [Dev.storePlain, Dev.storeRw, Dev.storeW1, h]

/-- A write of a word that holds no field changes nothing. -/
theorem storeWord_of_reserved {w : WordWrite} (h8 : w.off % 8 = 0) (h : Reg.wordFields w.off = []) (d : Dev) :
    d.storeWord w = d := by
  have plain := storePlain_of_reserved h d
  have own : ∀ o ∈ ownEffectWords, w.off ≠ o := fun o ho e => wordFields_ownEffect_ne_nil o ho (e ▸ h)
  simp only [ownEffectWords, List.forall_mem_cons] at own
  unfold Dev.storeWord
  rw [if_neg own.1]
  cases hq : Reg.entryAt w.off 0x100000 64 16384 with
  | some q => exact storeQueue_of_uncovered (covers_of_reserved h (mapLists_queueFields h8 hq)) d
  | none =>
  cases hr : Reg.entryAt w.off 0x20000 32 4096 with
  | some r => exact storeRing_of_uncovered (covers_of_reserved h (mapLists_ringFields h8 hr)) d
  | none =>
  cases hk : Reg.entryAt w.off 0x14000 256 16 with
  | some k =>
    have hc := covers_of_reserved h (mapLists_bankFields h8 hk) (Reg.bankEoi k) (by simp [Reg.bankFields])
    simp [hc, plain]
  | none =>
  cases hv : Reg.entryAt w.off 0x18000 16 2048 with
  | some v => exact absurd h (wordFields_msix_ne_nil h8 hv)
  | none =>
  cases hp : Reg.entryAt w.off 0x400100 16 16 with
  | some p => exact storePlane_of_uncovered (covers_of_reserved h (mapLists_portFields h8 hp)) d
  | none =>
  cases hn : Reg.entryAt w.off 0x200108 16 36 with
  | some n =>
    refine (ite_congr rfl (fun h16 => ?_) fun _ => plain).trans (ite_self d)
    have hc := covers_of_reserved h (mapLists_vminTarget h16 hn) (Reg.vminTarget n) List.mem_cons_self
    simp [Dev.storeVmin, hc]
  | none =>
  simp [own, plain]

/-- Settles O43: each bit of a word comes from a field; of a write's word only the fields that it covers reach the effect. -/
theorem reservedBitsIgnored : Obligations.ReservedBitsIgnored := by
  intro d
  refine ⟨fun off i hi => regWord_bit_outside d hi, ?_, ?_⟩
  · intro w u hoff hb0 hb1 hcore h8 hv
    exact SameFields.storeWord ⟨hoff, hb0, hb1, hcore, hv⟩ h8 d
  · intro off h8 h
    refine ⟨regWord_of_reserved d h, regReadPart_of_reserved d h, ?_⟩
    rintro w rfl
    exact storeWord_of_reserved h8 h d

end Sys2Proof.Proofs
end

section
/-! PROOFS. The weft array's table lookups (03 R62, R63): why half a table serves every weight byte. -/
namespace Sys2Proof.Proofs
open Sys2Proof.Machine

/-! Balanced digits: those of a negated number are the number's own, negated. -/

/-- A balanced digit is the residue of least magnitude, which `Int.bmod` gives. -/
theorem balanced_succ (n : Nat) (d : Int) :
    balanced (n + 1) d = d.bmod 3 :: balanced n ((d - d.bmod 3) / 3) := by
  have ht : (if d % 3 = 2 then -1 else d % 3) = d.bmod 3 := by
    rw [Int.bmod_def]; split <;> split <;> omega
  simp only [balanced, ht]

theorem balanced_neg (n : Nat) (d : Int) : balanced n (-d) = (balanced n d).map (- ·) := by
  induction n generalizing d with
  | zero => rfl
  | succ n ih =>
    have hdigit : (-d).bmod 3 = -d.bmod 3 := by
      rw [Int.bmod_def, Int.bmod_def]; split <;> split <;> omega
    have hdvd : 3 ∣ d - d.bmod 3 := Int.dvd_self_sub_bmod
    have hrest : (-d - -d.bmod 3) / 3 = -((d - d.bmod 3) / 3) := by omega
    rw [balanced_succ, balanced_succ, List.map_cons, hdigit, hrest, ih]

/-! Table entries: the sum of products is odd in the number whose digits select the slice values. -/

theorem dot_map_neg (xs ys : List Int) : dot (xs.map (- ·)) ys = -dot xs ys := by
  induction xs generalizing ys with
  | nil => simp [dot]
  | cons x xs ih =>
    cases ys with
    | nil => simp [dot]
    | cons y ys => simp only [List.map_cons, dot, ih, Int.neg_mul, Int.neg_add]

theorem dot_balanced_neg (n : Nat) (d : Int) (ys : List Int) :
    dot (balanced n (-d)) ys = -dot (balanced n d) ys := by
  rw [balanced_neg, dot_map_neg]

/-- An odd function of the number is zero at 0. -/
theorem dot_balanced_zero (n : Nat) (ys : List Int) : dot (balanced n 0) ys = 0 := by
  have hodd : dot (balanced n 0) ys = -dot (balanced n 0) ys := dot_balanced_neg n 0 ys
  omega

/-! Weight bytes. -/

theorem trits_of_valid {b : Nat} (h : b ≤ 242) : trits b = balanced 5 ((b : Int) - 121) :=
  if_neg (by omega)

/-- An invalid code reads as code 121 (02 R47). -/
theorem trits_of_invalid {b : Nat} (h : 243 ≤ b) : trits b = trits 121 :=
  if_pos h

/-- Settles O59: a valid byte's trits are the balanced digits of its code less 121, and negating that number negates the entry. -/
theorem tableLookups : Obligations.TableLookups := by
  intro b a _
  refine ⟨fun _ hb => ?_, fun hb => ?_, dot_balanced_zero 5 a, dot_balanced_zero 5 a, trits_of_invalid⟩
  · rw [trits_of_valid hb]
  · rw [trits_of_valid (by omega), ← Int.neg_sub, dot_balanced_neg]

end Sys2Proof.Proofs
end

section
/-! PROOFS. The doorbell (12 R305): a head that makes room lets a waiting delivery into the ring, which the serving loop notes. -/
namespace Sys2Proof.Proofs
open Sys2Proof.Machine

/-- A device at stage B7 with its PCIe link up. Its queue pair 1 is in use on PCIe, of class host, with rings that 12 R304 allows; of the 16 entries of its completion ring 15 are unread, so it is full (12 R302). -/
def fullRingDev : Dev :=
  (((((({ Dev.reset with io := { Dev.reset.io with pcieUp := true } }.wr Reg.stage 7).wr (Reg.qEnable 1) 1).wr
    (Reg.qClass 1) 2).wr (Reg.sqSize 1) 3).wr (Reg.cqSize 1) 3).wr (Reg.cqBase 1) 0x1030000000).wr (Reg.cqTail 1) 15

/-- The record of stream 5's delivery of token 9 (12 R300). -/
def tokenDelivery : List Rec := deliveryRecs 0 5 0 9 false false 0 []

/-- That device once its stream 5, which answers on pair 1, has delivered a token: the record waits for room (12 R311). -/
def deliveryWaitsDev : Dev :=
  { fullRingDev with serve := { fullRingDev.serve with streams := [(5, { queue := 1 })] } }.queueRecs 5 tokenDelivery

/-- The doorbell value that moves `CQ_HEAD` to 8 and leaves `SQ_TAIL` (12 R305). -/
def headToEight : Word := BitVec.ofNat 64 (8 * 2 ^ 16 + 2 ^ 33)

/-- The deliveries of a stream that no ring has taken (17 R400). -/
def unwrittenOf (d : Dev) (i : Nat) : Option (List (List Rec)) := (AMap.find d.serve.streams i).map (·.unwritten)

theorem unwrittenOf_closeCycle (d : Dev) (i : Nat) : unwrittenOf d.closeCycle i = unwrittenOf d i := by
  rw [unwrittenOf, (SameButRecords.closeCycle d).serve, unwrittenOf]

theorem unwrittenOf_deliveryWaitsDev : unwrittenOf deliveryWaitsDev 5 = some [tokenDelivery] := by decide +kernel

/-- With the head at 8 the ring takes the record that waited. -/
theorem unwrittenOf_effDoorbell_headToEight :
    unwrittenOf (effDoorbell 0 1 headToEight deliveryWaitsDev) 5 = some [] := by decide +kernel

/-- The doorbell is one that 12 R305 takes: the pair is in use and on PCIe, `SQ_VALID` is 0, and the head lies in the ring and does not pass the tail. -/
theorem headToEight_takes :
    deliveryWaitsDev.qpOn 1 = true ∧ deliveryWaitsDev.rd (Reg.qPath 1) = 0 ∧ bitOf headToEight.toNat 32 = false ∧
      bitsOf headToEight.toNat 16 16 < deliveryWaitsDev.cqEntries 1 ∧
      (bitsOf headToEight.toNat 16 16 + deliveryWaitsDev.cqEntries 1 -
        deliveryWaitsDev.rd (Reg.cqHead 1) % deliveryWaitsDev.cqEntries 1) % deliveryWaitsDev.cqEntries 1 ≤
        deliveryWaitsDev.cqUnread 1 := by decide +kernel

/-- Refutes O9: its second clause has every doorbell that is not refused leave the serving loop as it is, but one that makes room in a full completion ring writes the delivery that waits there (12 R311), and stream 5 no longer keeps it as unwritten (17 R400). -/
theorem not_doorbells : ¬ Obligations.Doorbells := by
  intro h
  obtain ⟨hon, hpath, hsv, hring, hpass⟩ := headToEight_takes
  obtain ⟨-, hmoves, -⟩ := h { State.reset with dev := deliveryWaitsDev } 0 1 headToEight (by decide +kernel)
    (fun _ => by decide +kernel) (by decide)
  obtain ⟨t, hexec, -, -, -, hserve, -⟩ := hmoves (by
    rintro (hoff | hother | ⟨hsv', -⟩ | ⟨-, hbeyond | hpasses⟩)
    · exact Bool.noConfusion (hoff.symm.trans hon)
    · exact hother hpath
    · exact Bool.noConfusion (hsv.symm.trans hsv')
    · exact absurd hring (Nat.not_lt.2 hbeyond)
    · exact absurd hpasses (Nat.not_lt.2 hpass))
  rw [Laws.exec_doorbell, execDoorbell, Laws.next_eq] at hexec
  cases hexec
  have hkept : unwrittenOf (effDoorbell 0 1 headToEight deliveryWaitsDev).closeCycle 5 = unwrittenOf deliveryWaitsDev 5 := by
    rw [unwrittenOf, hserve, unwrittenOf]
  rw [unwrittenOf_closeCycle, unwrittenOf_effDoorbell_headToEight, unwrittenOf_deliveryWaitsDev] at hkept
  exact absurd hkept (by simp)

end Sys2Proof.Proofs
end

section
/-! PROOFS. Every step ends in a closed cycle, and a closed cycle reports the state as it is (13 R322, 20 R445, 23 R484). -/
namespace Sys2Proof.Proofs
open Sys2Proof.Machine Sys2Proof.Laws

/-- The fields that report the state: recording an occurrence leaves them to `updateDegraded` alone. -/
def reportFields : List Fld := [Reg.degraded, Reg.degradedUnprotected, Reg.svcRequest, Reg.errService]

/-- `e` reads the same as `d` in the fields that report the state. -/
def SameReports (d e : Dev) : Prop := ∀ f ∈ reportFields, e.rd f = d.rd f

namespace SameReports

theorem refl (d : Dev) : SameReports d d := fun _ _ => rfl

theorem trans {d e f : Dev} (h : SameReports d e) (k : SameReports e f) : SameReports d f :=
  fun g hg => (k g hg).trans (h g hg)

theorem ite {c : Prop} [Decidable c] {d e f : Dev} (h : SameReports d e) (k : SameReports d f) :
    SameReports d (if c then e else f) := by split <;> assumption

theorem of_regs {d e : Dev} (h : e.regs = d.regs) : SameReports d e := fun _ _ => by unfold Dev.rd; rw [h]

/-- A write of a field whose word is none of those that report. -/
theorem wr (d : Dev) (f : Fld) (v : Nat) (hlo : f.lo < 64)
    (hoff : f.off ≠ 0x300020 ∧ f.off ≠ 0x1000 ∧ f.off ≠ 0x300038) : SameReports d (d.wr f v) := by
  intro g hg
  refine rd_wr_of_ne d f g v ?_
  simp only [reportFields, List.mem_cons, List.not_mem_nil, or_false] at hg
  rcases hg with rfl | rfl | rfl | rfl <;>
    simp only [fldKey, Reg.degraded, Reg.degradedUnprotected, Reg.svcRequest, Reg.errService] <;> omega

theorem setW1c (d : Dev) (f : Fld) (n : Nat) (b : Bool) (i : Nat) (hlo : f.lo < 64)
    (hoff : f.off ≠ 0x300020 ∧ f.off ≠ 0x1000 ∧ f.off ≠ 0x300038) : SameReports d (d.setW1c f n b i) := by
  unfold Dev.setW1c
  dsimp only
  split
  · exact wr d f _ hlo hoff
  · exact (wr d f _ hlo hoff).trans (of_regs rfl)

theorem sendIrq (d : Dev) (r : Nat) : SameReports d (d.sendIrq r) := by
  unfold Dev.sendIrq Dev.sendMsix
  dsimp only
  split
  · split
    · exact wr d _ _ (by simp [Reg.msixPba]) (by simp only [Reg.msixPba]; omega)
    · exact of_regs rfl
  · split
    · exact of_regs rfl
    · exact refl d

theorem logFault (d : Dev) (o : Occ) : SameReports d (d.logFault o).2 := by
  unfold Dev.logFault
  dsimp only
  split
  · exact (of_regs rfl).trans (wr _ Reg.coalesced _ (by decide) (by decide))
  · refine trans (((of_regs rfl).trans (wr _ Reg.faultNewest _ (by decide) (by decide))).trans
      (wr _ Reg.faultOldest _ (by decide) (by decide))) (wr _ _ _ ?_ ?_) <;>
      (repeat' split) <;> decide

theorem loseRecord (d : Dev) (r : Nat) (o : Occ) (hr : r < 4096) : SameReports d (d.loseRecord r o) := by
  have hlost : SameReports d (d.bump (Reg.ringLost r)) :=
    wr d _ _ (by simp [Reg.ringLost]) (by simp only [Reg.ringLost]; omega)
  have hover : (Reg.ringOverflow r).off ≠ 0x300020 ∧ (Reg.ringOverflow r).off ≠ 0x1000 ∧
      (Reg.ringOverflow r).off ≠ 0x300038 := by simp only [Reg.ringOverflow]; omega
  unfold Dev.loseRecord
  dsimp only
  split
  · exact (hlost.trans (of_regs rfl)).trans ((wr _ _ 1 (by simp [Reg.ringOverflow]) hover).trans
      (wr _ (Reg.srcCount 80) _ (by decide) (by decide)))
  · exact (hlost.trans (of_regs rfl)).trans (setW1c _ _ _ _ _ (by simp [Reg.ringOverflow]) hover)

theorem regs_of_ringStore {d e : Dev} {a : Nat} {bs : List Byte} (h : d.ringStore a bs = some e) : e.regs = d.regs := by
  unfold Dev.ringStore at h
  by_cases hdram : a + bs.length ≤ d.dramTop
  · rw [if_pos hdram] at h
    by_cases hbad : ((firstIn d.protectedAt a bs.length).isSome || d.partialPoison a bs.length) = true
    · rw [if_pos hbad] at h; cases h
    · rw [if_neg hbad] at h; rw [← Option.some.inj h]; rfl
  · rw [if_neg hdram] at h
    by_cases hhost : 0x800000000000 ≤ a ∧ a + bs.length ≤ 0x1000000000000
    · rw [if_pos hhost] at h
      revert h
      cases d.hostAddr (a + bs.length - 1) with
      | none => intro h; cases h
      | some x => intro h; rw [← Option.some.inj h]
    · rw [if_neg hhost] at h
      by_cases hrim : 0x200010000000 ≤ a ∧ a + bs.length ≤ 0x200012000000
      · rw [if_pos hrim] at h; rw [← Option.some.inj h]
      · rw [if_neg hrim] at h; cases h

theorem deliver (d : Dev) (r : Nat) (o : Occ) (idx : Nat) (hr : r < 4096) : SameReports d (d.deliver r o idx) := by
  have htail : (Reg.ringTail r).off ≠ 0x300020 ∧ (Reg.ringTail r).off ≠ 0x1000 ∧ (Reg.ringTail r).off ≠ 0x300038 := by
    simp only [Reg.ringTail]; omega
  have hact : (Reg.ringActive r).off ≠ 0x300020 ∧ (Reg.ringActive r).off ≠ 0x1000 ∧ (Reg.ringActive r).off ≠ 0x300038 := by
    simp only [Reg.ringActive]; omega
  unfold Dev.deliver
  dsimp only
  split
  · exact loseRecord d r o hr
  · split
    · split
      · exact loseRecord d r o hr
      · exact (loseRecord d r o hr).trans (of_regs rfl)
    · rename_i e hst
      have stored : ∀ x v, SameReports d (Dev.wr { e with io := x } (Reg.ringTail r) v) :=
        fun x v => ((of_regs (regs_of_ringStore hst)).trans (of_regs rfl)).trans (wr _ _ _ (by simp [Reg.ringTail]) htail)
      exact ite ((stored _ _).trans ((wr _ _ 1 (by simp [Reg.ringActive]) hact).trans (sendIrq _ r))) (stored _ _)

theorem process (d : Dev) (o : Occ) : SameReports d (d.process o) := by
  have hcount : SameReports d (d.bump (Reg.srcCount (o.source % 512))) :=
    wr d _ _ (by simp [Reg.srcCount]) (by simp only [Reg.srcCount]; omega)
  have hlog : SameReports d (if admitted o then (d.bump (Reg.srcCount (o.source % 512))).logFault o
      else (0xFFFFFFFF, d.bump (Reg.srcCount (o.source % 512)))).2 := by
    split
    · exact hcount.trans (logFault _ o)
    · exact hcount
  unfold Dev.process
  dsimp only
  revert hlog
  generalize (if admitted o then (d.bump (Reg.srcCount (o.source % 512))).logFault o
      else (0xFFFFFFFF, d.bump (Reg.srcCount (o.source % 512)))) = p
  obtain ⟨idx, e⟩ := p
  intro hlog
  dsimp only at hlog ⊢
  split
  · exact hlog
  · split
    · split
      · rename_i hr
        simp only [Bool.and_eq_true, decide_eq_true_eq] at hr
        exact hlog.trans (deliver _ _ o _ hr.1)
      · exact hlog
    · split
      · exact hlog.trans (deliver _ _ o _ (Nat.mod_lt _ (by decide)))
      · exact hlog

theorem drain (d : Dev) (work : List Occ) (fuel : Nat) : SameReports d (d.drain work fuel) := by
  induction fuel generalizing d work with
  | zero => exact refl d
  | succ n ih =>
    unfold Dev.drain
    split
    · exact refl d
    · exact (((of_regs rfl).trans (process { d with occ := [] } _)).trans (of_regs rfl)).trans (ih _ _)

end SameReports

/-! What the end of a cycle reports. -/

/-- What `DEGRADED` is made of stands in no record. -/
theorem degradedBits_of_sameButRecords {d e : Dev} (h : SameButRecords d e) : e.degradedBits = d.degradedBits := by
  have hfree : e.reserveFree = d.reserveFree := by
    funext n; simp only [Dev.reserveFree, Dev.isRetired, Dev.table, h.img, h.wafer]
  have hlost : ((List.range 16).any fun p => e.bit (Reg.portLost p)) = (List.range 16).any fun p => d.bit (Reg.portLost p) := by
    rw [Bool.eq_iff_iff, List.any_eq_true, List.any_eq_true]
    refine exists_congr fun p => and_congr_right fun hp => ?_
    rw [h.bit _ (plain_of _ (by simp [Reg.portLost]) (by have := List.mem_range.1 hp; simp only [Reg.portLost]; omega))]
  simp only [Dev.degradedBits, Dev.noRide, Dev.imgActive, hfree, h.img, h.pwr, h.fab, h.tick, h.wafer,
    h.regs Reg.stage rfl, h.regs Reg.lostStack rfl, h.regs Reg.rimCoresUp rfl, h.regs Reg.imageState rfl,
    h.bit Reg.humPresent rfl, h.bit Reg.humAuthOk rfl, hlost]

theorem degradedBits_lt (d : Dev) : d.degradedBits < 2 ^ 10 := by
  have hb : ∀ b, b2n b ≤ 1 := by decide
  unfold Dev.degradedBits
  split
  · decide
  · have := hb (d.img.stripes.any fun p => p.2.state == 2)
    have := hb d.noRide
    have := hb (AMap.get false d.pwr.feeds 0 != AMap.get false d.pwr.feeds 1)
    have := hb (d.rd Reg.lostStack != 0xF)
    have := hb (((List.range 16).any fun p => d.bit (Reg.portLost p)) ||
      d.fab.upSince.any fun e => d.tick - e.2 < Config.ticksPerSecond)
    have := hb (d.rd Reg.rimCoresUp != 0xFFFF)
    have := hb (d.pwr.packages.length == 1)
    have := hb (!d.wafer.lostFields.isEmpty)
    have := hb (d.imgActive && (List.range 36).any fun n => (d.reserveFree n).length < 15)
    have := hb d.pwr.doubleFault
    omega

theorem svcOf_lt (bits : Nat) (b : Bool) : svcOf bits b < 2 ^ 2 := by
  have hb : ∀ b, b2n b ≤ 1 := by decide
  unfold svcOf
  have := hb (bitOf bits 0 || bitOf bits 3 || bitOf bits 5 || bitOf bits 6 || bitOf bits 7 || bitOf bits 8 || bitOf bits 9)
  have := hb (bitOf bits 1 || b)
  omega

/-- What `updateDegraded` leaves in the three registers that follow from the state of the part. -/
theorem rd_updateDegraded (d : Dev) :
    d.updateDegraded.rd Reg.degraded = d.degradedBits ∧ d.updateDegraded.rd Reg.degradedUnprotected = d.degradedBits % 2 ∧
      d.updateDegraded.rd Reg.svcRequest = svcOf d.degradedBits d.pwr.humReplace := by
  have hw : ∀ (f g : Fld) (e : Dev) v, fldKey f ≠ fldKey g → (e.wr g v).rd f = e.rd f := fun f g e v h => rd_wr_of_ne e g f v h
  have hd : d.degradedBits % 2 ^ 10 = d.degradedBits := Nat.mod_eq_of_lt (degradedBits_lt d)
  have hs : svcOf d.degradedBits d.pwr.humReplace % 2 ^ 2 = svcOf d.degradedBits d.pwr.humReplace :=
    Nat.mod_eq_of_lt (svcOf_lt _ _)
  have key : ∀ e : Dev, (∀ f, fldKey f ≠ fldKey Reg.errService →
      e.rd f = (((d.wr Reg.degraded d.degradedBits).wr Reg.degradedUnprotected (d.degradedBits % 2)).wr Reg.svcRequest
        (svcOf d.degradedBits d.pwr.humReplace)).rd f) →
      e.rd Reg.degraded = d.degradedBits ∧ e.rd Reg.degradedUnprotected = d.degradedBits % 2 ∧
        e.rd Reg.svcRequest = svcOf d.degradedBits d.pwr.humReplace := by
    intro e he
    rw [he _ (by decide), he _ (by decide), he _ (by decide)]
    refine ⟨?_, ?_, (rd_wr _ _ _).trans hs⟩
    · rw [hw _ _ _ _ (by decide), hw _ _ _ _ (by decide), rd_wr]; exact hd
    · rw [hw _ _ _ _ (by decide), rd_wr]; exact Nat.mod_eq_of_lt (by simp only [Reg.degradedUnprotected]; omega)
  unfold Dev.updateDegraded
  dsimp only
  split
  · exact key _ fun f hf => rd_setW1c_of_ne _ _ _ _ _ _ hf
  · exact key _ fun _ _ => rfl

theorem sameReports_closeCycle (d : Dev) : SameReports d.updateDegraded d.closeCycle := by
  have halert : ∀ e : Dev, SameReports e { e.updateAlert with occ := [] } := by
    intro e; unfold Dev.updateAlert; split <;> exact SameReports.of_regs rfl
  exact ((SameReports.of_regs rfl).trans (SameReports.drain { d.updateDegraded with occ := [] } _ _)).trans (halert _)

theorem alertLow_updateAlert (d : Dev) : d.updateAlert.io.alertLow = d.updateAlert.alertDrives := by
  unfold Dev.updateAlert
  split
  · rename_i h; exact h.symm
  · rfl

/-- A device that has closed its cycle reports the state as it is. -/
theorem reported_closeCycle (q : List Instr) (sec : Sec) (d : Dev) : Reported { pending := q, sec := sec, dev := d.closeCycle } := by
  have hsame := SameButRecords.closeCycle d
  have hrep := sameReports_closeCycle d
  obtain ⟨hdeg, hunp, hsvc⟩ := rd_updateDegraded d
  have hbits := degradedBits_of_sameButRecords hsame
  refine ⟨rfl, ?_, ?_, ?_, alertLow_updateAlert _⟩
  · rw [hbits, hrep Reg.degraded (by simp [reportFields]), hdeg]
  · rw [hbits, hrep Reg.degradedUnprotected (by simp [reportFields]), hunp]
  · rw [hbits, hsame.pwr, hrep Reg.svcRequest (by simp [reportFields]), hsvc]

/-- Settles O3: every step ends in a closed cycle, whose end evaluates the reports. -/
theorem stepKeepsReported : Obligations.StepKeepsReported := by
  intro s t _ hstep
  obtain ⟨q, sec, d, h⟩ := step_form s
  rw [h] at hstep
  cases hstep
  exact reported_closeCycle q sec d

theorem run_succ (M : Host.Core) (k : Nat) (s t : M.State) (h : M.step s = .next t) : M.run (k + 1) s = M.run k t := by
  simp [Host.Core.run, h]

/-- Settles O4, by induction on the number of steps: each answers a state. -/
theorem everyRunIsSafe : Obligations.EveryRunIsSafe := by
  intro k
  induction k with
  | zero => exact fun s => ⟨s, rfl⟩
  | succ k ih =>
    intro s
    obtain ⟨q, sec, d, h⟩ := step_form s
    obtain ⟨t, ht⟩ := ih { pending := q, sec := sec, dev := d.closeCycle }
    exact ⟨t, (run_succ core k s _ h).trans ht⟩

end Sys2Proof.Proofs
end

section
/-! PROOFS. The step and reset (12 R306, 19 R419), and what the part holds for good: which commands change it and how far (21 R451-R457). -/
namespace Sys2Proof.Proofs
open Sys2Proof.Machine Sys2Proof.Laws

/-- Settles O1: both forms of a step are the branches of `step`. -/
theorem stepRunsFront : Obligations.StepRunsFront := by
  refine ⟨fun s c rest h => ?_, fun s h => ?_⟩
  · unfold step; rw [h]
  · unfold step; rw [h]; dsimp only
    obtain ⟨d, _ | c⟩ := s.dev.idle <;> rfl

/-- Settles O2: every register at reset reads its reset value, and the reports of a part before stage B7 are empty. -/
theorem resetState : Obligations.ResetState := by
  have hpair : ∀ q, State.reset.dev.qpOn q = decide (q = 0) := by
    intro q
    have hq : Dev.reset.rd (Reg.qEnable q) = if q = 0 then 1 else 0 := rd_reset _
    by_cases h : q = 0
    · subst h; rfl
    · simp [State.reset, Dev.qpOn, Dev.bit, hq, h]
  exact ⟨⟨rd_reset, rfl, rfl, rfl, rfl, hpair, fun r => rfl, rfl, rfl, rfl, rfl, rfl, rfl, rfl, rfl⟩, rfl, rfl, rfl, rfl, rfl⟩

/-! Who changes what the part holds for good. -/

/-- Where the held state of a command's outcome comes from: it is kept, or it is what one of the three kinds makes of it. -/
inductive SecFrom (c : Instr) (s : State) (sec : Sec) : Prop where
  | kept (h : sec = s.sec)
  | stage (i : StageInfo) (hc : c = .stageReached i) (h : sec = (stageReached i s.sec s.dev).1)
  | rotate (r : Rhoic) (hc : c = .rotateKey r) (h : sec = s.dev.rotatedSec r s.sec)
  | update (b : List Byte) (hc : c = .pldmFirmwareUpdate b) (h : sec = updatedFw s.sec s.dev b)

/-- Every command but the three kinds ends with `State.next`, which keeps the held state. -/
theorem exec_secFrom (c : Instr) (s : State) :
    ∃ (sec : Sec) (d : Dev), exec c s = .next { pending := s.pending, sec := sec, dev := d.closeCycle } ∧ SecFrom c s sec := by
  cases c with
  | stageReached i => exact ⟨_, _, rfl, .stage i rfl rfl⟩
  | rotateKey r => exact ⟨_, _, rfl, .rotate r rfl rfl⟩
  | pldmFirmwareUpdate b => exact ⟨_, _, rfl, .update b rfl rfl⟩
  | _ => exact ⟨_, _, rfl, .kept rfl⟩

/-- Settles O5: the outcome of a command holds the queue it was given, and what the part holds for good changes by the three kinds alone. -/
theorem whatOnlySomeCommandsChange : Obligations.WhatOnlySomeCommandsChange := by
  intro c s t h
  obtain ⟨sec, d, hex, hfrom⟩ := exec_secFrom c s
  rw [hex] at h
  cases h
  refine ⟨rfl, fun hne => ?_⟩
  cases hfrom with
  | kept hk => exact absurd hk hne
  | stage i hc _ => exact .inl ⟨i, hc⟩
  | rotate r hc _ => exact .inr (.inl ⟨r, hc⟩)
  | update b hc _ => exact .inr (.inr ⟨b, hc⟩)

/-! The key slots as a map in order. -/

/-- The numbers of the valid key slots rise. -/
def KeysInOrder (m : List (Nat × List Byte)) : Prop := (m.map fun (k : Nat × List Byte) => k.1).Pairwise (· < ·)

theorem keysInOrder_cons {p : Nat × List Byte} {m : List (Nat × List Byte)} :
    KeysInOrder (p :: m) ↔ (∀ q ∈ m, p.1 < q.1) ∧ KeysInOrder m := by
  simp [KeysInOrder, List.pairwise_map]

theorem mem_insert {p : Nat × List Byte} {k : Nat} {v : List Byte} {m : List (Nat × List Byte)} (h : p ∈ AMap.insert k v m) :
    p.1 = k ∨ p ∈ m := by
  induction m with
  | nil => simp [AMap.insert] at h; simp [h]
  | cons q m ih =>
    unfold AMap.insert at h
    split at h
    · rcases List.mem_cons.1 h with rfl | h
      · exact .inl rfl
      · exact .inr h
    · split at h
      · rcases List.mem_cons.1 h with rfl | h
        · exact .inl rfl
        · exact .inr (List.mem_cons_of_mem _ h)
      · rcases List.mem_cons.1 h with rfl | h
        · exact .inr List.mem_cons_self
        · exact (ih h).imp_right (List.mem_cons_of_mem _)

theorem keysInOrder_insert (k : Nat) (v : List Byte) {m : List (Nat × List Byte)} (h : KeysInOrder m) :
    KeysInOrder (AMap.insert k v m) := by
  induction m with
  | nil => simp [AMap.insert, KeysInOrder]
  | cons p m ih =>
    obtain ⟨hp, hm⟩ := keysInOrder_cons.1 h
    unfold AMap.insert
    split
    · next hk =>
      refine keysInOrder_cons.2 ⟨fun q hq => ?_, h⟩
      rcases List.mem_cons.1 hq with rfl | hq
      · exact hk
      · exact Nat.lt_trans hk (hp q hq)
    · split
      · next hk => exact keysInOrder_cons.2 ⟨fun q hq => hk ▸ hp q hq, hm⟩
      · next h1 h2 =>
        refine keysInOrder_cons.2 ⟨fun q hq => ?_, ih hm⟩
        rcases mem_insert hq with hq | hq
        · omega
        · exact hp q hq

theorem erase_sublist (k : Nat) (m : List (Nat × List Byte)) : (AMap.erase k m).Sublist m := by
  induction m with
  | nil => exact List.Sublist.refl _
  | cons p m ih =>
    unfold AMap.erase
    split
    · exact ih.cons p
    · exact ih.cons_cons p

theorem keysInOrder_erase (k : Nat) {m : List (Nat × List Byte)} (h : KeysInOrder m) : KeysInOrder (AMap.erase k m) :=
  List.Pairwise.sublist ((erase_sublist k m).map _) h

/-- Of two keys in order one is another than the one taken out. -/
theorem erase_ne_nil {k : Nat} {m : List (Nat × List Byte)} (h : KeysInOrder m) (hne : m ≠ []) (hlen : m.length ≠ 1) :
    AMap.erase k m ≠ [] := by
  match m with
  | [] => exact absurd rfl hne
  | [_] => exact absurd rfl hlen
  | p :: q :: m =>
    obtain ⟨hp, -⟩ := keysInOrder_cons.1 h
    have hlt := hp q List.mem_cons_self
    by_cases hk : p.1 = k
    · have hq : q.1 ≠ k := by omega
      simp [AMap.erase, hk, hq]
    · simp [AMap.erase, hk]

theorem keysInOrder_keysOf (body : List Byte) : KeysInOrder (keysOf body) := by
  refine List.Pairwise.sublist (l₂ := List.range 8) ?_ List.pairwise_lt_range
  unfold keysOf
  generalize List.range 8 = l
  induction l with
  | nil => exact List.Sublist.refl _
  | cons i l ih =>
    rw [List.filterMap_cons]
    split
    · exact ih.cons i
    · next h =>
      split at h
      · cases h; exact ih.cons_cons i
      · cases h

/-! What ROTATE_KEY makes of the key state. -/

/-- A change of the key state that ROTATE_KEY may accept (21 R456, R457): the last key is never revoked, the floor never lowered. -/
def RotationAllowed (sec : Sec) (op : Nat) (b : List Byte) : Prop :=
  op ≤ 2 ∧ (op = 1 → sec.keys.length ≠ 1) ∧ (op = 2 → sec.minSvn ≤ numAt b 16 4)

theorem rotationAllowed_of_notRefused {d : Dev} {sec : Sec} {op slot : Nat} {b : List Byte} (hop : op ≤ 2)
    (h : d.rotateRefusal sec op slot b = none) : RotationAllowed sec op b := by
  unfold Dev.rotateRefusal at h
  dsimp only at h
  split at h
  · cases h
  split at h
  · cases h
  split at h
  · cases h
  next h1 =>
  split at h
  · cases h
  next h2 =>
  refine ⟨hop, fun ho hl => h1 ⟨ho, .inr hl⟩, fun ho => Nat.le_of_not_lt fun hlt => h2 ⟨ho, .inl hlt⟩⟩

theorem rotateKey_sec (r : Rhoic) (sec : Sec) (d : Dev) :
    (rotateKey r sec d).1 = sec ∨
      ∃ op slot b, RotationAllowed sec op b ∧ (rotateKey r sec d).1 = rotated sec op slot b := by
  unfold rotateKey
  dsimp only
  generalize hfirst : (sec.keys.isEmpty && arg r 8 1 == 0 && r.qp == 0) = first
  by_cases hop : 2 < arg r 8 1
  · rw [if_pos hop]; exact .inl rfl
  rw [if_neg hop]
  by_cases hslot : 7 < arg r 9 1
  · rw [if_pos hslot]; exact .inl rfl
  rw [if_neg hslot]
  by_cases hlen : arg r 24 4 ≠ 16 + rotatePayload (arg r 8 1) + if first = true then 0 else 4627
  · rw [if_pos hlen]; exact .inl rfl
  rw [if_neg hlen]
  obtain ⟨st, det, b, e⟩ := d.bufIn r (arg r 16 8) (arg r 24 4)
  dsimp only
  by_cases hst : st ≠ St.success
  · rw [if_pos hst]; exact .inl rfl
  rw [if_neg hst]
  generalize hallow : (if first = true then none else e.rotateRefusal sec (arg r 8 1) (arg r 9 1) b) = refused
  cases refused with
  | some p => exact .inl rfl
  | none =>
    dsimp only
    by_cases hpkg : e.pwr.packages = []
    · rw [if_pos hpkg]; exact .inl rfl
    · rw [if_neg hpkg]
      refine .inr ⟨arg r 8 1, arg r 9 1, b, ?_, rfl⟩
      cases first with
      | true =>
        simp only [Bool.and_eq_true, beq_iff_eq] at hfirst
        exact ⟨by omega, by omega, by omega⟩
      | false => exact rotationAllowed_of_notRefused (by omega) hallow

theorem rotatedSec_cases (d : Dev) (r : Rhoic) (sec : Sec) :
    d.rotatedSec r sec = sec ∨
      ∃ op slot b, RotationAllowed sec op b ∧ d.rotatedSec r sec = rotated sec op slot b := by
  unfold Dev.rotatedSec
  dsimp only
  split
  · exact .inl rfl
  split
  · exact .inl rfl
  · exact rotateKey_sec r sec _

/-! What a bring-up stage makes of what is held. -/

/-- The identity that the part has stays (21 R451). -/
def SameIdentity (a b : Sec) : Prop := b.deviceKey = a.deviceKey ∧ b.deviceCert = a.deviceCert ∧ b.stepping = a.stepping

/-- The key state stays. -/
def SameKeys (a b : Sec) : Prop := b.keys = a.keys ∧ b.minSvn = a.minSvn

theorem takeKeys_identity (sec : Sec) (chain : List ConfRec) : SameIdentity sec (sec.takeKeys chain) := by
  unfold Sec.takeKeys
  split <;> exact ⟨rfl, rfl, rfl⟩

theorem takeKeys_inOrder (sec : Sec) (chain : List ConfRec) : KeysInOrder (sec.takeKeys chain).keys := by
  unfold Sec.takeKeys
  split
  · exact keysInOrder_keysOf _
  · exact List.Pairwise.nil

theorem foldl_wr_pwr {ι : Type} (l : List ι) (f : ι → Fld) (v : ι → Nat) (d : Dev) :
    (l.foldl (fun d k => d.wr (f k) (v k)) d).pwr = d.pwr :=
  List.foldlRecOn (motive := fun e : Dev => e.pwr = d.pwr) l _ rfl fun _ he _ _ => he

theorem foldl_wr_rd {ι : Type} (l : List ι) (f : ι → Fld) (v : ι → Nat) (d : Dev) (g : Fld) (h : ∀ k ∈ l, fldKey g ≠ fldKey (f k)) :
    (l.foldl (fun d k => d.wr (f k) (v k)) d).rd g = d.rd g :=
  List.foldlRecOn (motive := fun e : Dev => e.rd g = d.rd g) l _ rfl fun _ he k hk => (rd_wr_of_ne _ _ _ _ (h k hk)).trans he

theorem readCoolant_pwr (d : Dev) (a b c e : Nat) : (d.readCoolant a b c e).pwr = d.pwr := by
  unfold Dev.readCoolant
  dsimp only
  split <;> split <;> simp

theorem readCoolant_meas (d : Dev) (a b c e : Nat) : (d.readCoolant a b c e).meas = d.meas := by
  unfold Dev.readCoolant
  dsimp only
  split <;> split <;> simp

theorem readCoolant_stage (d : Dev) (a b c e : Nat) : (d.readCoolant a b c e).rd Reg.stage = d.rd Reg.stage := by
  have hw : ∀ (f : Fld) (e : Dev) (v : Nat), fldKey Reg.stage ≠ fldKey f → (e.wr f v).rd Reg.stage = e.rd Reg.stage :=
    fun f e v h => rd_wr_of_ne e f _ v h
  have hs : ∀ (e : Dev), (e.setW1c Reg.errCoolant 73 true).rd Reg.stage = e.rd Reg.stage :=
    fun e => rd_setW1c_of_ne _ _ _ _ _ _ (by decide)
  unfold Dev.readCoolant
  dsimp only
  split <;> split <;> simp (disch := decide) only [hs, rd_raise, hw]

theorem fillIdentity_pwr (d : Dev) (sec : Sec) : (d.fillIdentity sec).pwr = d.pwr := by
  unfold Dev.fillIdentity
  simp only [wr_pwr, foldl_wr_pwr]

theorem fillIdentity_stage (d : Dev) (sec : Sec) : (d.fillIdentity sec).rd Reg.stage = d.rd Reg.stage := by
  have hid : ∀ (f : Nat → Fld) (n : Nat) (v : Nat → Nat) (e : Dev), (∀ k < n, fldKey Reg.stage ≠ fldKey (f k)) →
      ((List.range n).foldl (fun d k => d.wr (f k) (v k)) e).rd Reg.stage = e.rd Reg.stage :=
    fun f n v e h => foldl_wr_rd _ f v e _ fun k hk => h k (List.mem_range.1 hk)
  unfold Dev.fillIdentity
  dsimp only
  rw [rd_wr_of_ne _ _ _ _ (by decide), rd_wr_of_ne _ _ _ _ (by decide), hid _ _ _ _ (by decide), hid _ _ _ _ (by decide),
    hid _ _ _ _ (by decide), hid _ _ _ _ (by decide)]

theorem bringB2_pwr (i : StageInfo) (sec : Sec) (d : Dev) : (bringB2 i sec d).pwr.chain = d.verifiedChain i.recordsOut := by
  simp only [bringB2, Dev.showKeys, wr_pwr, fillIdentity_pwr, Dev.readRecords]

theorem bringB2_stage (i : StageInfo) (sec : Sec) (d : Dev) : (bringB2 i sec d).rd Reg.stage = d.rd Reg.stage := by
  simp (disch := decide) only [bringB2, Dev.showKeys, rd_wr_of_ne, fillIdentity_stage]
  rfl

/-- A stage before the last but one leaves the power plane to the next stage as it is. -/
theorem nextStage_pwr (d : Dev) (ms : Nat) (h : d.rd Reg.stage ≠ 6) : (d.nextStage ms).pwr = d.pwr := by
  unfold Dev.nextStage
  dsimp only
  rw [if_neg (by omega)]
  simp

/-- Stage B2 takes the keys and the floor of the chain that it leaves; every other stage, and B2 where it does not complete, keeps them. The identity stays once there is one. -/
theorem stageReached_sec (i : StageInfo) (sec : Sec) (d : Dev) :
    (sec.deviceKey ≠ [] → SameIdentity sec (stageReached i sec d).1) ∧
      (SameKeys sec (stageReached i sec d).1 ∨
        d.rd Reg.stage = 2 ∧ (stageReached i sec d).1 = sec.takeKeys (stageReached i sec d).2.pwr.chain) := by
  have same : (sec.deviceKey ≠ [] → SameIdentity sec sec) ∧ SameKeys sec sec := ⟨fun _ => ⟨rfl, rfl, rfl⟩, rfl, rfl⟩
  unfold stageReached
  split
  · exact same.imp_right .inl
  split
  · exact same.imp_right .inl
  unfold Dev.runStage
  split
  · unfold bringB0
    dsimp only
    refine ⟨fun h => ?_, .inl ?_⟩
    · rw [if_neg h]; exact same.1 h
    · split <;> exact same.2
  · exact ⟨fun _ => ⟨rfl, rfl, rfl⟩, .inl ⟨rfl, rfl⟩⟩
  · next hstage =>
    dsimp only
    by_cases hfloor : d.belowFloor i.recordsOut = true
    · rw [if_pos hfloor]; exact ⟨fun _ => ⟨rfl, rfl, rfl⟩, .inl ⟨rfl, rfl⟩⟩
    rw [if_neg hfloor]
    by_cases hcool : coolEnough i = true
    · rw [if_pos hcool]
      refine ⟨fun _ => takeKeys_identity _ _, .inr ⟨hstage, ?_⟩⟩
      have hB : ∀ sec', ((bringB2 i sec' (d.readCoolant i.inlet (d.rd Reg.outletT) i.flow (d.rd Reg.dpMbar))).nextStage i.ms).pwr.chain =
          d.verifiedChain i.recordsOut := by
        intro sec'
        rw [nextStage_pwr, bringB2_pwr]
        · simp only [Dev.verifiedChain, Dev.flashChain, readCoolant_pwr, readCoolant_meas]
        · rw [bringB2_stage, readCoolant_stage, hstage]; decide
      rw [hB]
      rfl
    · rw [if_neg hcool]; exact same.imp_right .inl
  all_goals exact same.imp_right .inl

/-! The command that an idle tick starts is one of the opcode table, no bring-up stage. -/

theorem commandOf_ne_stageReached (r : Rhoic) (i : StageInfo) : commandOf r ≠ .stageReached i := by
  unfold commandOf
  split <;> exact Instr.noConfusion

theorem idle_ne_stageReached {d e : Dev} {c : Instr} (h : d.idle = (e, some c)) (i : StageInfo) : c ≠ .stageReached i := by
  unfold Dev.idle at h
  dsimp only at h
  split at h
  · cases h; exact commandOf_ne_stageReached _ i
  split at h
  · cases h
  split at h
  · unfold Dev.fetchEntry at h
    dsimp only at h
    split at h
    · split at h <;> cases h
    · cases h; exact commandOf_ne_stageReached _ i
  · cases h

/-- Where the held state after a step comes from. -/
inductive StepSec (s t : State) : Prop where
  | kept (h : t.sec = s.sec)
  | stage (i : StageInfo) (hp : s.pending.head? = some (.stageReached i)) (h : t.sec = (stageReached i s.sec s.dev).1)
      (hd : t.dev = (stageReached i s.sec s.dev).2.closeCycle)
  | rotated (op slot : Nat) (b : List Byte) (ha : RotationAllowed s.sec op b) (h : t.sec = rotated s.sec op slot b)
  | update (d : Dev) (b : List Byte) (h : t.sec = updatedFw s.sec d b)

theorem step_sec {s t : State} (h : step s = .next t) : StepSec s t := by
  have other : ∀ (c : Instr) (s' : State), s'.sec = s.sec → (∀ i, c ≠ .stageReached i) → exec c s' = .next t → StepSec s t := by
    intro c s' hs hc hex
    obtain ⟨sec, d, hform, hfrom⟩ := exec_secFrom c s'
    rw [hform] at hex
    cases hex
    cases hfrom with
    | kept hk => exact .kept (hk.trans hs)
    | stage i hi _ => exact absurd hi (hc i)
    | rotate r _ hr =>
      rcases rotatedSec_cases s'.dev r s'.sec with hk | ⟨op, slot, b, ha, hk⟩
      · exact .kept ((hr.trans hk).trans hs)
      · exact .rotated op slot b (hs ▸ ha) (hs ▸ hr.trans hk)
    | update b _ hu => exact .update s'.dev b (hs ▸ hu)
  unfold step at h
  split at h
  · next c rest hp =>
    by_cases hc : ∃ i, c = .stageReached i
    · obtain ⟨i, rfl⟩ := hc
      rw [exec_stageReached, execStageReached, nextSec_eq] at h
      cases h
      exact .stage i (by rw [hp]; rfl) rfl rfl
    · exact other c { s with pending := rest } rfl (fun i hi => hc ⟨i, hi⟩) h
  · split at h
    · next d c hidle => exact other c { s with dev := d } rfl (idle_ne_stageReached hidle) h
    · cases h; exact .kept rfl

theorem updatedFw_keeps (sec : Sec) (d : Dev) (b : List Byte) :
    SameIdentity sec (updatedFw sec d b) ∧ SameKeys sec (updatedFw sec d b) := by
  unfold updatedFw
  split <;> exact ⟨⟨rfl, rfl, rfl⟩, rfl, rfl⟩

theorem rotated_identity (sec : Sec) (op slot : Nat) (b : List Byte) : SameIdentity sec (rotated sec op slot b) := by
  unfold rotated
  split
  · exact ⟨rfl, rfl, rfl⟩
  split <;> exact ⟨rfl, rfl, rfl⟩

theorem rotated_inOrder {sec : Sec} (op slot : Nat) (b : List Byte) (h : KeysInOrder sec.keys) : KeysInOrder (rotated sec op slot b).keys := by
  unfold rotated
  split
  · exact keysInOrder_insert _ _ h
  split
  · exact keysInOrder_erase _ h
  · exact h

theorem rotated_floor {sec : Sec} {op : Nat} {b : List Byte} (slot : Nat) (h : RotationAllowed sec op b) :
    sec.minSvn ≤ (rotated sec op slot b).minSvn := by
  obtain ⟨hop, -, hfloor⟩ := h
  unfold rotated
  split
  · exact Nat.le_refl _
  split
  · exact Nat.le_refl _
  · exact hfloor (by omega)

theorem insert_ne_nil (k : Nat) (v : List Byte) (m : List (Nat × List Byte)) : AMap.insert k v m ≠ [] := by
  cases m with
  | nil => simp [AMap.insert]
  | cons p m => unfold AMap.insert; (repeat' split) <;> simp

theorem rotated_ne_nil {sec : Sec} {op : Nat} {b : List Byte} (slot : Nat) (h : RotationAllowed sec op b) (ho : KeysInOrder sec.keys)
    (hne : sec.keys ≠ []) : (rotated sec op slot b).keys ≠ [] := by
  obtain ⟨-, hlast, -⟩ := h
  unfold rotated
  split
  · exact insert_ne_nil _ _ _
  split
  · next h1 => exact erase_ne_nil ho hne (hlast h1)
  · exact hne

theorem SameKeys.inOrder {a b : Sec} (h : SameKeys a b) (ho : KeysInOrder a.keys) : KeysInOrder b.keys := by rw [h.1]; exact ho

theorem SameKeys.holds {a b : Sec} (h : SameKeys a b) :
    a.minSvn ≤ b.minSvn ∧ (KeysInOrder a.keys → a.keys ≠ [] → b.keys ≠ []) := by
  obtain ⟨hk, hm⟩ := h
  rw [hk, hm]
  exact ⟨Nat.le_refl _, fun _ hne => hne⟩

theorem step_identity {s t : State} (hk : s.sec.deviceKey ≠ []) (h : step s = .next t) : SameIdentity s.sec t.sec := by
  cases step_sec h with
  | kept h => rw [h]; exact ⟨rfl, rfl, rfl⟩
  | stage i _ h _ => rw [h]; exact (stageReached_sec i _ _).1 hk
  | rotated op slot b _ h => rw [h]; exact rotated_identity _ _ _ _
  | update d b h => rw [h]; exact (updatedFw_keeps _ _ _).1

theorem step_keysInOrder {s t : State} (h : step s = .next t) (ho : KeysInOrder s.sec.keys) : KeysInOrder t.sec.keys := by
  cases step_sec h with
  | kept h => rw [h]; exact ho
  | stage i _ h _ =>
    rw [h]
    rcases (stageReached_sec i s.sec s.dev).2 with hs | ⟨-, hs⟩
    · exact hs.inOrder ho
    · rw [hs]; exact takeKeys_inOrder _ _
  | rotated op slot b _ h => rw [h]; exact rotated_inOrder _ _ _ ho
  | update d b h => rw [h]; exact (updatedFw_keeps _ _ _).2.inOrder ho

theorem step_floor {s t : State} (h : step s = .next t)
    (hn : (∀ i, s.pending.head? ≠ some (.stageReached i)) ∨ s.dev.rd Reg.stage ≠ 2) :
    s.sec.minSvn ≤ t.sec.minSvn ∧ (KeysInOrder s.sec.keys → s.sec.keys ≠ [] → t.sec.keys ≠ []) := by
  cases step_sec h with
  | kept h => rw [h]; exact ⟨Nat.le_refl _, fun _ hne => hne⟩
  | stage i hp h _ =>
    rw [h]
    rcases (stageReached_sec i s.sec s.dev).2 with hs | ⟨h2, -⟩
    · exact hs.holds
    · exact absurd h2 (hn.resolve_left fun hn => hn i hp)
  | rotated op slot b ha h => rw [h]; exact ⟨rotated_floor slot ha, rotated_ne_nil slot ha⟩
  | update d b h => rw [h]; exact (updatedFw_keeps _ _ _).2.holds

/-- At stage B2 the front command keeps the key state or takes that of the chain that verifies. -/
theorem step_keysAtB2 {s t : State} (h : step s = .next t) {i : StageInfo} (hp : s.pending.head? = some (.stageReached i)) :
    SameKeys s.sec t.sec ∨ t.sec = s.sec.takeKeys t.dev.pwr.chain := by
  obtain ⟨c, rest, hq⟩ : ∃ c rest, s.pending = c :: rest := by
    cases hq : s.pending with
    | nil => rw [hq] at hp; cases hp
    | cons c rest => exact ⟨c, rest, rfl⟩
  rw [hq] at hp
  cases hp
  unfold step at h
  rw [hq] at h
  dsimp only at h
  rw [exec_stageReached, execStageReached, nextSec_eq] at h
  cases h
  dsimp only
  rw [(SameButRecords.closeCycle _).pwr]
  exact (stageReached_sec i s.sec s.dev).2.imp_right And.right

/-- Settles O58: of the commands that change what is held, each keeps the identity and the order of the slots, and only B2 can lower the floor. -/
theorem identityAndFloorHold : Obligations.IdentityAndFloorHold :=
  ⟨fun _ _ hk h => step_identity hk h,
    fun _ _ h => ⟨step_keysInOrder h, step_floor h, fun _ hp _ => step_keysAtB2 h hp⟩⟩

end Sys2Proof.Proofs
end

section
/-! PROOFS. The scale of an S4 block (02 R56): the search from the smallest scale on finds the smallest that fits. -/
namespace Sys2Proof.Proofs
open Sys2Proof.Machine

/-- A value that asks for no scale: a zero, or one that does not count (02 R56, log entry 62). -/
def scaleless : FV → Bool
  | .fin _ m _ => m == 0
  | _ => true

/-- At scale `e` the value, rounded, is an S4 code, or it does not count. -/
def fitsS4 (e : Int) : FV → Bool
  | .fin neg m k => decide (-8 ≤ rneShift (signedOf neg m) (k - e)) && decide (rneShift (signedOf neg m) (k - e) ≤ 7)
  | _ => true

theorem blockScale_eq (xs : List FV) : blockScale xs =
    if xs.all scaleless then 0
    else match (List.range 256).find? fun (i : Nat) => xs.all (fitsS4 ((i : Int) - 128)) with
      | some i => (i : Int) - 128
      | none => 127 := rfl

theorem all_scaleless_iff (xs : List FV) : xs.all scaleless = true ↔ ∀ neg m k, FV.fin neg m k ∈ xs → m = 0 := by
  rw [List.all_eq_true]
  refine ⟨fun h neg m k hx => by simpa [scaleless] using h _ hx, fun h x hx => ?_⟩
  cases x with
  | fin neg m k => simpa [scaleless] using h neg m k hx
  | _ => rfl

theorem all_fitsS4_iff (xs : List FV) (e : Int) : xs.all (fitsS4 e) = true ↔ ∀ neg m k, FV.fin neg m k ∈ xs →
    -8 ≤ rneShift (signedOf neg m) (k - e) ∧ rneShift (signedOf neg m) (k - e) ≤ 7 := by
  rw [List.all_eq_true]
  refine ⟨fun h neg m k hx => by simpa [fitsS4] using h _ hx, fun h x hx => ?_⟩
  cases x with
  | fin neg m k => simpa [fitsS4] using h neg m k hx
  | _ => rfl

/-- A scale that a block can have, as the place where the search meets it. -/
theorem scale_place {e : Int} (h1 : -128 ≤ e) (h2 : e ≤ 127) : ∃ i : Nat, i < 256 ∧ (i : Int) - 128 = e :=
  ⟨(e + 128).toNat, by omega, by omega⟩

/-- Settles O60: the search takes the scales in rising order, so what it finds fits and nothing below does. -/
theorem blockScaleIsSmallest : Obligations.BlockScaleIsSmallest := by
  intro xs
  dsimp only
  rw [← all_scaleless_iff, blockScale_eq]
  simp only [← all_fitsS4_iff]
  refine ⟨fun hz => by rw [if_pos hz], fun hz hsome => ?_, fun hz hnone => ?_⟩
  · obtain ⟨e, h1, h2, hfit⟩ := hsome
    obtain ⟨i, hi, rfl⟩ := scale_place h1 h2
    rw [if_neg hz]
    cases hfind : (List.range 256).find? fun (i : Nat) => xs.all (fitsS4 ((i : Int) - 128)) with
    | none => exact absurd hfit (by simpa using List.find?_eq_none.1 hfind i (List.mem_range.2 hi))
    | some j =>
      obtain ⟨hj, hrange, hfirst⟩ := List.find?_range_eq_some.1 hfind
      have hj256 := List.mem_range.1 hrange
      change -128 ≤ (j : Int) - 128 ∧ (j : Int) - 128 ≤ 127 ∧ xs.all (fitsS4 ((j : Int) - 128)) = true ∧
        ∀ e, -128 ≤ e → e < (j : Int) - 128 → ¬ xs.all (fitsS4 e) = true
      refine ⟨by omega, by omega, hj, fun e he hlt => ?_⟩
      obtain ⟨k, hk, rfl⟩ := scale_place he (by omega)
      have hbad := hfirst k (by omega)
      simpa using hbad
  · rw [if_neg hz]
    cases hfind : (List.range 256).find? fun (i : Nat) => xs.all (fitsS4 ((i : Int) - 128)) with
    | none => rfl
    | some j =>
      obtain ⟨hj, hrange, -⟩ := List.find?_range_eq_some.1 hfind
      have hj256 := List.mem_range.1 hrange
      exact absurd ⟨(j : Int) - 128, by omega, by omega, hj⟩ hnone

end Sys2Proof.Proofs
end

section
/-! PROOFS. The access types of the register map (00 R6, R7): the fields of a word have places of their own, so a write gives each what its own type says. -/
namespace Sys2Proof.Proofs
open Sys2Proof.Machine Sys2Proof.Laws

/-! The fields that a word may hold have distinct keys: those of an entry of an array are those of entry 0, moved. -/

/-- No two fields of a list share a place in the register file. -/
def DistinctKeys (fs : List Fld) : Prop := (fs.map fldKey).Nodup

theorem distinctKeys_moved {fs gs : List Fld} {n : Nat} (h : (gs.map fldKey).Nodup) (hm : fs.map fldKey = (gs.map fldKey).map (· + n)) :
    DistinctKeys fs := by
  unfold DistinctKeys
  rw [hm]
  exact List.pairwise_map.2 (h.imp fun hne he => hne (Nat.add_right_cancel he))

theorem distinctKeys_queueFields (q : Nat) : DistinctKeys (Reg.queueFields q) :=
  distinctKeys_moved (gs := Reg.queueFields 0) (n := 4096 * q) (by decide +kernel) (by
    simp only [Reg.queueFields, List.map_cons, List.map_nil, fldKey, Reg.sqBase, Reg.sqSize, Reg.cqSize, Reg.qClass, Reg.qPath,
      Reg.qEnable, Reg.cqBase, Reg.qTenant, Reg.notifyRing, Reg.qPeer, Reg.sqHead, Reg.sqTail, Reg.cqHead, Reg.cqTail,
      Reg.bufBase, Reg.bufBytes, Reg.errBase, Reg.errDoorbell, Reg.cqStall, Reg.cmdCount, List.cons.injEq, and_true]
    omega)

theorem distinctKeys_ringFields (r : Nat) : DistinctKeys (Reg.ringFields r) :=
  distinctKeys_moved (gs := Reg.ringFields 0) (n := 2048 * r) (by decide +kernel) (by
    simp only [Reg.ringFields, List.map_cons, List.map_nil, fldKey, Reg.ringBase, Reg.ringSize, Reg.ringTarget, Reg.ringEnable,
      Reg.ringActive, Reg.ringVector, Reg.ringHead, Reg.ringTail, Reg.ringOverflow, Reg.ringLost, List.cons.injEq, and_true]
    omega)

theorem distinctKeys_sourceFields (n : Nat) : DistinctKeys (Reg.sourceFields n) :=
  distinctKeys_moved (gs := Reg.sourceFields 0) (n := 512 * n) (by decide +kernel) (by
    simp only [Reg.sourceFields, List.map_cons, List.map_nil, fldKey, Reg.routeRing, Reg.routeEn, Reg.srcCount, List.cons.injEq,
      and_true]
    omega)

theorem distinctKeys_bankFields (k : Nat) : DistinctKeys (Reg.bankFields k) :=
  distinctKeys_moved (gs := Reg.bankFields 0) (n := 16384 * k) (by decide +kernel) (by
    simp only [Reg.bankFields, List.map_cons, List.map_nil, fldKey, Reg.bankPending, Reg.bankEnable, Reg.bankEoi, List.cons.injEq,
      and_true]
    omega)

theorem distinctKeys_msixFields (v : Nat) : DistinctKeys [Reg.msixAddr v, Reg.msixData v, Reg.msixMask v] :=
  distinctKeys_moved (gs := [Reg.msixAddr 0, Reg.msixData 0, Reg.msixMask 0]) (n := 1024 * v) (by decide +kernel) (by
    simp only [List.map_cons, List.map_nil, fldKey, Reg.msixAddr, Reg.msixData, Reg.msixMask, List.cons.injEq, and_true]
    omega)

theorem distinctKeys_stackFields (s : Nat) : DistinctKeys (Reg.stackFields s) :=
  distinctKeys_moved (gs := Reg.stackFields 0) (n := 16384 * s) (by decide +kernel) (by
    simp only [Reg.stackFields, List.map_cons, List.map_nil, fldKey, Reg.stackState, Reg.stackTemp, Reg.innerCorr, Reg.outerCorr,
      Reg.uncorr, Reg.poisoned, Reg.errUncorr, Reg.errTrain, Reg.scrubOffset, List.cons.injEq, and_true]
    omega)

theorem distinctKeys_portFields (p : Nat) : DistinctKeys (Reg.portFields p) :=
  distinctKeys_moved (gs := Reg.portFields 0) (n := 1024 * p) (by decide +kernel) (by
    simp only [Reg.portFields, List.map_cons, List.map_nil, fldKey, Reg.planePrefix, Reg.linkUp, Reg.portPhy, Reg.errDown,
      Reg.portLost, Reg.fecUncorr, List.cons.injEq, and_true]
    omega)

theorem distinctKeys_peerFields (n : Nat) : DistinctKeys (Reg.peerFields n) :=
  distinctKeys_moved (gs := Reg.peerFields 0) (n := 512 * n) (by decide +kernel) (by
    simp only [Reg.peerFields, List.map_cons, List.map_nil, fldKey, Reg.peerState, Reg.peerRole, Reg.pathsUp, Reg.rtt,
      List.cons.injEq, and_true]
    omega)

theorem distinctKeys_fieldPower (n : Nat) : DistinctKeys (Reg.fieldPower n) :=
  distinctKeys_moved (gs := Reg.fieldPower 0) (n := 1024 * n) (by decide +kernel) (by
    simp only [Reg.fieldPower, List.map_cons, List.map_nil, fldKey, Reg.fieldState, Reg.vlPhases, Reg.vmPhases, Reg.vmin,
      Reg.vlAmps, Reg.errTrip, Reg.errPhase, Reg.errCrack, Reg.vminTarget, Reg.vlSet, List.cons.injEq, and_true]
    omega)

theorem distinctKeys_fieldThermal (n : Nat) : DistinctKeys (Reg.fieldThermal n) :=
  distinctKeys_moved (gs := Reg.fieldThermal 0) (n := 1024 * n) (by decide +kernel) (by
    simp only [Reg.fieldThermal, List.map_cons, List.map_nil, fldKey, Reg.lockState, Reg.oscErrUnlock, Reg.errThrottle, Reg.hotT,
      Reg.forecastT, Reg.duty, Reg.rth, Reg.capW, Reg.fieldW, Reg.tau, List.cons.injEq, and_true]
    omega)

theorem distinctKeys_slotFields (n : Nat) : DistinctKeys (Reg.slotFields n) :=
  distinctKeys_moved (gs := Reg.slotFields 0) (n := 512 * n) (by decide +kernel) (by
    simp only [Reg.slotFields, List.map_cons, List.map_nil, fldKey, Reg.diagTile, Reg.diagPhys, Reg.diagEnable, List.cons.injEq,
      and_true]
    omega)

theorem distinctKeys_fixedFields : DistinctKeys Reg.fixedFields := by unfold DistinctKeys; decide +kernel

theorem distinctKeys_singleton (f : Fld) : DistinctKeys [f] := List.pairwise_singleton _ _

theorem distinctKeys_candidates (off : Nat) : DistinctKeys (Reg.candidates off) := by
  unfold Reg.candidates
  split
  · exact distinctKeys_singleton _
  split
  · exact distinctKeys_singleton _
  split
  · exact distinctKeys_sourceFields _
  split
  · exact distinctKeys_bankFields _
  split
  · exact distinctKeys_singleton _
  split
  · exact distinctKeys_msixFields _
  split
  · exact distinctKeys_ringFields _
  split
  · exact distinctKeys_queueFields _
  split
  · exact distinctKeys_stackFields _
  split
  · exact distinctKeys_portFields _
  split
  · exact distinctKeys_peerFields _
  split
  · exact distinctKeys_fieldPower _
  split
  · exact distinctKeys_fieldThermal _
  split
  · exact distinctKeys_slotFields _
  · exact distinctKeys_fixedFields

theorem distinctKeys_wordFields (off : Nat) : DistinctKeys (Reg.wordFields off) := by
  unfold Reg.wordFields
  split
  · exact List.nodup_nil
  split
  · repeat' split
    all_goals exact distinctKeys_singleton _
  · exact List.Nodup.sublist (List.filter_sublist.map fldKey) (distinctKeys_candidates off)

/-! A write by a list of fields, field by field. -/

section
variable {step : Dev → Fld → Dev} (hframe : ∀ d f g, fldKey g ≠ fldKey f → (step d f).rd g = d.rd g)
include hframe

theorem rd_foldl_of_ne (fs : List Fld) (d : Dev) {g : Fld} (h : ∀ f ∈ fs, fldKey f ≠ fldKey g) :
    (fs.foldl step d).rd g = d.rd g :=
  List.foldlRecOn (motive := fun e : Dev => e.rd g = d.rd g) fs step rfl fun _ he f hf => (hframe _ _ _ (h f hf).symm).trans he

/-- Of fields in distinct places each is changed once, by its own step. -/
theorem rd_foldl_of_mem {val : Fld → Nat → Nat} (hself : ∀ d f, (step d f).rd f = val f (d.rd f)) {fs : List Fld}
    (hd : DistinctKeys fs) {f : Fld} (hf : f ∈ fs) (d : Dev) : (fs.foldl step d).rd f = val f (d.rd f) := by
  induction fs generalizing d with
  | nil => cases hf
  | cons g fs ih =>
    obtain ⟨hg, hfs⟩ := List.nodup_cons.1 (show (fldKey g :: fs.map fldKey).Nodup from hd)
    have hne : ∀ x ∈ fs, fldKey x ≠ fldKey g := fun x hx he => hg (he ▸ List.mem_map_of_mem hx)
    rw [List.foldl_cons]
    rcases List.mem_cons.1 hf with rfl | hf
    · rw [rd_foldl_of_ne hframe fs _ hne, hself]
    · rw [ih hfs hf, hframe _ _ _ (hne f hf)]

end

/-- What a write of a word gives an RW field. -/
def rwValue (w : WordWrite) (f : Fld) (old : Nat) : Nat :=
  if f.acc = .rw ∧ w.covers f = true then w.value f % 2 ^ f.width else old

/-- What a write of a word gives a field whose bits it clears or sets. -/
def w1Value (w : WordWrite) (f : Fld) (old : Nat) : Nat :=
  if w.covers f = true ∧ f.acc = .w1c then (old &&& (2 ^ f.width - 1 - w.value f)) % 2 ^ f.width
  else if w.covers f = true ∧ f.acc = .w1s then (old ||| w.value f) % 2 ^ f.width else old

theorem storeRw_step_of_ne (w : WordWrite) (d : Dev) (f g : Fld) (h : fldKey g ≠ fldKey f) :
    (if f.acc = .rw ∧ w.covers f then d.wr f (w.value f) else d).rd g = d.rd g := by
  split
  · exact rd_wr_of_ne d f g _ h
  · rfl

theorem storeRw_step_self (w : WordWrite) (d : Dev) (f : Fld) :
    (if f.acc = .rw ∧ w.covers f then d.wr f (w.value f) else d).rd f = rwValue w f (d.rd f) := by
  unfold rwValue
  split
  · exact rd_wr d f _
  · rfl

theorem storeW1_step_of_ne (w : WordWrite) (d : Dev) (f g : Fld) (h : fldKey g ≠ fldKey f) :
    (if !w.covers f then d else if f.acc = .w1c then d.wr f (d.rd f &&& (2 ^ f.width - 1 - w.value f))
      else if f.acc = .w1s then d.wr f (d.rd f ||| w.value f) else d).rd g = d.rd g := by
  split
  · rfl
  split
  · exact rd_wr_of_ne d f g _ h
  split
  · exact rd_wr_of_ne d f g _ h
  · rfl

theorem storeW1_step_self (w : WordWrite) (d : Dev) (f : Fld) :
    (if !w.covers f then d else if f.acc = .w1c then d.wr f (d.rd f &&& (2 ^ f.width - 1 - w.value f))
      else if f.acc = .w1s then d.wr f (d.rd f ||| w.value f) else d).rd f = w1Value w f (d.rd f) := by
  unfold w1Value
  cases w.covers f with
  | false => simp
  | true =>
    simp only [Bool.not_true, Bool.false_eq_true, if_false, true_and]
    split
    · exact rd_wr d f _
    split
    · exact rd_wr d f _
    · rfl

theorem rd_storeRw_of_ne (d : Dev) (w : WordWrite) (fs : List Fld) {g : Fld} (h : ∀ f ∈ fs, fldKey f ≠ fldKey g) :
    (d.storeRw w fs).rd g = d.rd g := rd_foldl_of_ne (storeRw_step_of_ne w) fs d h

theorem rd_storeW1_of_ne (d : Dev) (w : WordWrite) (fs : List Fld) {g : Fld} (h : ∀ f ∈ fs, fldKey f ≠ fldKey g) :
    (d.storeW1 w fs).rd g = d.rd g := rd_foldl_of_ne (storeW1_step_of_ne w) fs d h

theorem rd_storeRw {fs : List Fld} (hd : DistinctKeys fs) (d : Dev) (w : WordWrite) {f : Fld} (hf : f ∈ fs) :
    (d.storeRw w fs).rd f = rwValue w f (d.rd f) := rd_foldl_of_mem (storeRw_step_of_ne w) (storeRw_step_self w) hd hf d

theorem rd_storeW1 {fs : List Fld} (hd : DistinctKeys fs) (d : Dev) (w : WordWrite) {f : Fld} (hf : f ∈ fs) :
    (d.storeW1 w fs).rd f = w1Value w f (d.rd f) := rd_foldl_of_mem (storeW1_step_of_ne w) (storeW1_step_self w) hd hf d

theorem rd_storePlain (d : Dev) (w : WordWrite) {f : Fld} (hf : f ∈ Reg.wordFields w.off) :
    (d.storePlain w).rd f = w1Value w f (rwValue w f (d.rd f)) := by
  have hd := distinctKeys_wordFields w.off
  unfold Dev.storePlain
  rw [rd_storeW1 hd _ w hf, rd_storeRw hd d w hf]

/-- Settles O42: in distinct places, each field takes what the write gives its access type. -/
theorem accessTypesHold : Obligations.AccessTypesHold := by
  intro d w f hf
  rw [rd_storePlain d w hf]
  refine ⟨fun h => ?_, fun hacc hcov => ?_, fun hacc hcov => ?_, fun g hg => ?_⟩
  · rcases h with h | h | h | h <;> simp [rwValue, w1Value, h]
  · simp [rwValue, w1Value, hacc, hcov, WordWrite.value, bitsOf]
  · have hlt : d.rd f &&& (2 ^ f.width - 1 - w.value f) < 2 ^ f.width :=
      Nat.lt_of_le_of_lt Nat.and_le_right (by have := Nat.two_pow_pos f.width; omega)
    simp only [rwValue, w1Value, hacc, hcov, reduceCtorEq, false_and, if_false, and_self, if_true]
    rw [Nat.mod_eq_of_lt hlt]
    rfl
  · unfold Dev.storePlain
    dsimp only
    rw [rd_storeW1_of_ne _ w _ hg, rd_storeRw_of_ne d w _ hg]

end Sys2Proof.Proofs
end

section
/-! PROOFS. The writes of the event controller, the registers with a rule of their own, and the windows (01 R31-R36, 13 R321-R334, 22 R470-R479). -/
namespace Sys2Proof.Proofs
open Sys2Proof.Machine Sys2Proof.Laws

/-! An access that the registers take reaches the effect of the word that it names. -/

theorem accessOk_iff (a : RegAcc) : accessOk a = true ↔ (a.size = 4 ∨ a.size = 8) ∧ a.off % a.size = 0 := by
  simp [accessOk]

theorem aligned_wordOf {a : RegAcc} (h : accessOk a = true) (off : Nat) : (wordOf a off).aligned = true := by
  obtain ⟨hsize, hmod⟩ := (accessOk_iff a).1 h
  simp only [wordOf, WordWrite.aligned, Bool.or_eq_true, Bool.and_eq_true, beq_iff_eq]
  rcases hsize with h4 | h8
  · rw [h4] at hmod ⊢; omega
  · rw [h8] at hmod ⊢; omega

theorem regWrite_wordOf {d : Dev} {a : RegAcc} {off : Nat} (h : accessOk a = true) (hs : off < 0x2000 ∨ 7 ≤ d.rd Reg.stage) :
    d.regWrite (wordOf a off) = d.storeWord (wordOf a off) := by
  unfold Dev.regWrite
  rw [aligned_wordOf h, if_neg]
  simp only [Bool.not_true, Bool.false_or, Bool.and_eq_true, decide_eq_true_eq]
  intro hc
  have : 0x2000 ≤ off := hc.2
  omega

theorem namedWrite_of_takes {d : Dev} {a : RegAcc} {off : Nat} (h : Takes d a off) :
    d.namedWrite a off = d.storeWord (wordOf a off) := by
  obtain ⟨hr, hok, hs⟩ := h
  rw [Dev.namedWrite, hr, hok, if_pos (by simp), regWrite_wordOf hok hs]

/-- The effect of a write by the array in which its word lies. -/
theorem storeWord_queue {d : Dev} {w : WordWrite} {q : Nat} (h : Reg.entryAt w.off 0x100000 64 16384 = some q) :
    d.storeWord w = d.storeQueue q w := by
  obtain ⟨hlo, -, -⟩ := entryAt_eq_some h
  rw [Dev.storeWord, if_neg (by omega), h]

theorem storeWord_ring {d : Dev} {w : WordWrite} {r : Nat} (h : Reg.entryAt w.off 0x20000 32 4096 = some r) :
    d.storeWord w = d.storeRing r w := by
  obtain ⟨hlo, hhi, -⟩ := entryAt_eq_some h
  rw [Dev.storeWord, if_neg (by omega), entryAt_of_not_mem (by omega), h]

theorem storeWord_bank {d : Dev} {w : WordWrite} {k : Nat} (h : Reg.entryAt w.off 0x14000 256 16 = some k) :
    d.storeWord w = if w.core = some k then
      (if w.covers (Reg.bankEoi k) then d.bankEoi k (w.value (Reg.bankEoi k)) else d.storePlain w) else d := by
  obtain ⟨hlo, hhi, -⟩ := entryAt_eq_some h
  rw [Dev.storeWord, if_neg (by omega), entryAt_of_not_mem (by omega), entryAt_of_not_mem (by omega), h]

/-- The effect of a write of a source's route: the plain one. -/
theorem storeWord_route {d : Dev} {w : WordWrite} {n : Nat} (h : Reg.entryAt w.off 0x12000 8 512 = some n) :
    d.storeWord w = d.storePlain w := by
  obtain ⟨hlo, hhi, -⟩ := entryAt_eq_some h
  rw [Dev.storeWord, if_neg (by omega)]
  simp (disch := omega) only [entryAt_of_not_mem]
  simp only [show w.off ≠ 0x10008 by omega, show w.off ≠ 0x10018 by omega, show w.off ≠ 0x10020 by omega,
    show w.off ≠ 0x500008 by omega, show w.off ≠ 0x2000 by omega, show w.off ≠ 0x2008 by omega, show w.off ≠ 0x201000 by omega,
    show w.off ≠ 0x200018 by omega, show w.off ≠ 0x600108 by omega, show w.off ≠ 0x400018 by omega, if_false]

theorem entryAt_of_place {base stride count n x : Nat} (hn : n < count) (hx : x < stride) :
    Reg.entryAt (base + stride * n + x) base stride count = some n := by
  have h1 : stride * n + stride ≤ stride * count := by rw [← Nat.mul_succ]; exact Nat.mul_le_mul_left _ hn
  unfold Reg.entryAt
  rw [if_pos (by omega), Nat.add_assoc, Nat.add_sub_cancel_left, Nat.mul_add_div (by omega), Nat.div_eq_of_lt hx, Nat.add_zero]

/-! A write of a word covers no field of another word. -/

theorem covers_other {w : WordWrite} {f : Fld} (h : f.off ≠ w.off) : w.covers f = false := by
  simp [WordWrite.covers, h]

/-! `EVT_EOI`, `BANK_EOI` and `EVT_RAISE`. -/

theorem storeWord_evtEoi {d : Dev} {w : WordWrite} (h : w.off = 0x10008) :
    d.storeWord w = if w.covers Reg.evtEoi then d.eoi (w.value Reg.evtEoi) else d := by
  simp [Dev.storeWord, h, Reg.entryAt]

theorem storeWord_evtRaise {d : Dev} {w : WordWrite} (h : w.off = 0x10018) :
    d.storeWord w = if w.covers Reg.raiseSource && w.covers Reg.raiseDetail then
      d.evtRaise (w.value Reg.raiseSource) (w.value Reg.raiseDetail) else d := by
  simp [Dev.storeWord, h, Reg.entryAt]

theorem evtEoi_of_gives {d : Dev} {a : RegAcc} {r : Nat} (ht : Takes d a 0x10008) (hg : Gives a 0x10008 Reg.evtEoi r) :
    d.namedWrite a 0x10008 = d.eoi r := by
  obtain ⟨hc, hv⟩ := hg
  rw [namedWrite_of_takes ht, storeWord_evtEoi rfl, if_pos hc, hv]

theorem bankEoi_of_gives {d : Dev} {a : RegAcc} {k line : Nat} (hk : k < 16) (ht : Takes d a (0x14010 + 256 * k))
    (hg : Gives a (0x14010 + 256 * k) (Reg.bankEoi k) line) :
    d.namedWrite a (0x14010 + 256 * k) = if coreOfReq a.who = some k then d.bankEoi k line else d := by
  obtain ⟨hc, hv⟩ := hg
  have hat : Reg.entryAt (wordOf a (0x14010 + 256 * k)).off 0x14000 256 16 = some k := by
    rw [show (wordOf a (0x14010 + 256 * k)).off = 0x14000 + 256 * k + 0x10 from by simp only [wordOf]; omega]
    exact entryAt_of_place hk (by decide)
  rw [namedWrite_of_takes ht, storeWord_bank hat, if_pos hc, hv]
  rfl

theorem coreOfReq_iff (who : Requester) (k : Nat) : coreOfReq who = some k ↔ who = .rimCore k := by
  cases who <;> simp [coreOfReq]

/-- A line that no ring can have is not active (13 R326). -/
theorem bankEoi_of_noRing (d : Dev) (k : Nat) {line : Nat} (h : 48 ≤ line) : d.bankEoi k line = d.bump Reg.evtSpuriousEoi := by
  have hl : decide (line < 48) = false := by simpa using h
  simp [Dev.bankEoi, hl]

theorem evtRaise_of_gives {d : Dev} {a : RegAcc} {n v : Nat} (ht : Takes d a 0x10018) (hn : Gives a 0x10018 Reg.raiseSource n)
    (hv : Gives a 0x10018 Reg.raiseDetail v) : d.namedWrite a 0x10018 = d.evtRaise n v := by
  obtain ⟨hnc, hn⟩ := hn
  obtain ⟨hvc, hv⟩ := hv
  rw [namedWrite_of_takes ht, storeWord_evtRaise rfl, hnc, hvc, hn, hv]
  rfl

/-! The entry of an event ring. -/

theorem entryAt_ring {r x : Nat} (hr : r < 4096) (hx : x < 32) : Reg.entryAt (0x20000 + 32 * r + x) 0x20000 32 4096 = some r :=
  entryAt_of_place hr hx

/-- A write of the word of `BASE`, `SIZE`, `TARGET` and `ENABLE` clears no bit and moves no head. -/
theorem storeRing_config {d : Dev} {w : WordWrite} {r : Nat} (h : w.off = 0x20000 + 32 * r) :
    d.storeRing r w =
      if d.bit (Reg.ringEnable r) then
        (if w.covers (Reg.ringEnable r) ∧ w.value (Reg.ringEnable r) = 0 then d.disableRing r else d)
      else
        let e := d.storeRw w [Reg.ringBase r, Reg.ringSize r, Reg.ringTarget r]
        if w.covers (Reg.ringEnable r) ∧ w.value (Reg.ringEnable r) = 1 ∧ 3 ≤ e.rd (Reg.ringSize r) ∧
          e.rd (Reg.ringTarget r) ≠ 3 ∧ e.rd (Reg.ringBase r) % 32 = 0 then e.enableRing r else e := by
  have hover : w.covers (Reg.ringOverflow r) = false := covers_other (by simp only [Reg.ringOverflow]; omega)
  have hhead : w.covers (Reg.ringHead r) = false := covers_other (by simp only [Reg.ringHead]; omega)
  have hvec : w.covers (Reg.ringVector r) = false := covers_other (by simp only [Reg.ringVector]; omega)
  have hw1 : d.storeW1 w (Reg.ringFields r) = d := by
    refine List.foldlRecOn (motive := (· = d)) (Reg.ringFields r) _ rfl fun e he f hf => ?_
    simp only [Reg.ringFields, List.mem_cons, List.not_mem_nil, or_false] at hf
    rcases hf with rfl | rfl | rfl | rfl | rfl | rfl | rfl | rfl | rfl | rfl <;>
      simp [he, hover, Reg.ringBase, Reg.ringSize, Reg.ringTarget, Reg.ringEnable, Reg.ringActive, Reg.ringVector, Reg.ringHead,
        Reg.ringTail, Reg.ringLost]
  have hrw : d.storeRw w [Reg.ringBase r, Reg.ringSize r, Reg.ringTarget r, Reg.ringVector r] =
      d.storeRw w [Reg.ringBase r, Reg.ringSize r, Reg.ringTarget r] := by
    simp [Dev.storeRw, hvec]
  simp only [Dev.storeRing, hw1, hhead, hrw, Bool.false_eq_true, if_false]

/-- A field of a value that a write gives holds no more than fits it. -/
theorem gives_lt {a : RegAcc} {off : Nat} {f : Fld} {v : Nat} (h : Gives a off f v) : v < 2 ^ f.width := by
  obtain ⟨-, hv⟩ := h
  rw [← hv]
  exact Nat.mod_lt _ (Nat.two_pow_pos _)

theorem ringEnable_off {d : Dev} {a : RegAcc} {r : Nat} (hr : r < 4096) (ht : Takes d a (0x20000 + 32 * r)) (hen : d.bit (Reg.ringEnable r) = true)
    (hg : Gives a (0x20000 + 32 * r) (Reg.ringEnable r) 0) :
    d.namedWrite a (0x20000 + 32 * r) = (d.wr (Reg.ringEnable r) 0).wr (Reg.ringActive r) 0 := by
  obtain ⟨hc, hv⟩ := hg
  rw [namedWrite_of_takes ht, storeWord_ring (entryAt_ring (x := 0) hr (by decide)), storeRing_config rfl, if_pos hen, if_pos ⟨hc, hv⟩]
  rfl

theorem ringEnable_on {d : Dev} {a : RegAcc} {r base size target : Nat} (hr : r < 4096) (ht : Takes d a (0x20000 + 32 * r))
    (hen : d.bit (Reg.ringEnable r) = false) (hg : Gives a (0x20000 + 32 * r) (Reg.ringEnable r) 1)
    (hb : Gives a (0x20000 + 32 * r) (Reg.ringBase r) base) (hs : Gives a (0x20000 + 32 * r) (Reg.ringSize r) size)
    (htg : Gives a (0x20000 + 32 * r) (Reg.ringTarget r) target) :
    let e := ((d.wr (Reg.ringBase r) base).wr (Reg.ringSize r) size).wr (Reg.ringTarget r) target
    d.namedWrite a (0x20000 + 32 * r) = if 3 ≤ size ∧ target ≠ 3 ∧ base % 32 = 0 then e.enableRing r else e := by
  intro e
  have hbase : e.rd (Reg.ringBase r) = base := by
    rw [rd_wr_of_ne _ _ _ _ (by simp only [fldKey, Reg.ringTarget, Reg.ringBase]; omega),
      rd_wr_of_ne _ _ _ _ (by simp only [fldKey, Reg.ringSize, Reg.ringBase]; omega), rd_wr, Nat.mod_eq_of_lt (gives_lt hb)]
  have hsize : e.rd (Reg.ringSize r) = size := by
    rw [rd_wr_of_ne _ _ _ _ (by simp only [fldKey, Reg.ringTarget, Reg.ringSize]; omega), rd_wr, Nat.mod_eq_of_lt (gives_lt hs)]
  have htarget : e.rd (Reg.ringTarget r) = target := by rw [rd_wr, Nat.mod_eq_of_lt (gives_lt htg)]
  obtain ⟨hgc, hgv⟩ := hg
  obtain ⟨hbc, hbv⟩ := hb
  obtain ⟨hsc, hsv⟩ := hs
  obtain ⟨htc, htv⟩ := htg
  have hstore : d.storeRw (wordOf a (0x20000 + 32 * r)) [Reg.ringBase r, Reg.ringSize r, Reg.ringTarget r] = e := by
    simp only [Dev.storeRw, List.foldl_cons, List.foldl_nil, hbc, hsc, htc, hbv, hsv, htv, and_true]
    rfl
  rw [namedWrite_of_takes ht, storeWord_ring (entryAt_ring (x := 0) hr (by decide)), storeRing_config rfl, hen,
    if_neg (by simp), hstore]
  simp only [hgc, hgv, true_and, hbase, hsize, htarget]

/-- A 4-byte write of `HEAD` moves it and touches nothing else of the entry. -/
theorem ringHead_write {d : Dev} {a : RegAcc} {r v : Nat} (hr : r < 4096) (ht : Takes d a (0x20008 + 32 * r))
    (hg : Gives a (0x20008 + 32 * r) (Reg.ringHead r) v) (hen : d.bit (Reg.ringEnable r) = true) (h4 : a.size = 4) :
    d.namedWrite a (0x20008 + 32 * r) = d.moveHead r v := by
  obtain ⟨hc, hv⟩ := hg
  have hlow : a.off % 8 = 0 := by
    simp only [WordWrite.covers, wordOf, h4, Reg.ringHead, Bool.and_eq_true, decide_eq_true_eq] at hc
    obtain ⟨-, hok, -⟩ := ht
    have hmod := ((accessOk_iff a).1 hok).2
    rw [h4] at hmod
    omega
  have hover : (wordOf a (0x20008 + 32 * r)).covers (Reg.ringOverflow r) = false := by
    simp [WordWrite.covers, wordOf, h4, hlow, Reg.ringOverflow]
  have hno : (wordOf a (0x20008 + 32 * r)).covers (Reg.ringEnable r) = false :=
    covers_other (by simp only [wordOf, Reg.ringEnable]; omega)
  have hw1 : d.storeW1 (wordOf a (0x20008 + 32 * r)) (Reg.ringFields r) = d := by
    refine List.foldlRecOn (motive := (· = d)) (Reg.ringFields r) _ rfl fun e he f hf => ?_
    simp only [Reg.ringFields, List.mem_cons, List.not_mem_nil, or_false] at hf
    rcases hf with rfl | rfl | rfl | rfl | rfl | rfl | rfl | rfl | rfl | rfl <;>
      simp [he, hover, Reg.ringBase, Reg.ringSize, Reg.ringTarget, Reg.ringEnable, Reg.ringActive, Reg.ringVector, Reg.ringHead,
        Reg.ringTail, Reg.ringLost]
  have hat : Reg.entryAt (wordOf a (0x20008 + 32 * r)).off 0x20000 32 4096 = some r := by
    rw [show (wordOf a (0x20008 + 32 * r)).off = 0x20000 + 32 * r + 8 from by simp only [wordOf]; omega]
    exact entryAt_ring hr (by decide)
  rw [namedWrite_of_takes ht, storeWord_ring hat]
  simp only [Dev.storeRing, hw1, hc, hv, hen, hno, if_true, Bool.false_eq_true, false_and, if_false]

/-! The route of a source. -/

theorem wordFields_route {n : Nat} (hn : n < 512) :
    Reg.wordFields (0x12000 + 8 * n) = [Reg.routeRing n, Reg.routeEn n, Reg.srcCount n] := by
  have hc : Reg.candidates (0x12000 + 8 * n) = Reg.sourceFields n := by
    have hat : Reg.entryAt (0x12000 + 8 * n) 0x12000 8 512 = some n := entryAt_of_place (x := 0) hn (by decide)
    simp (disch := omega) only [Reg.candidates, entryAt_of_not_mem, hat]
  have h8 : (0x12000 + 8 * n) % 8 = 0 := by omega
  have hid : ¬ (0x12000 + 8 * n < 0xA0) := by omega
  simp [Reg.wordFields, h8, hid, hc, Reg.sourceFields, Reg.routeRing, Reg.routeEn, Reg.srcCount]

theorem routeWrite_of_gives {d : Dev} {a : RegAcc} {n ring en : Nat} (hn : n < 512) (ht : Takes d a (0x12000 + 8 * n))
    (hr : Gives a (0x12000 + 8 * n) (Reg.routeRing n) ring) (he : Gives a (0x12000 + 8 * n) (Reg.routeEn n) en) :
    d.namedWrite a (0x12000 + 8 * n) = (d.wr (Reg.routeRing n) ring).wr (Reg.routeEn n) en := by
  obtain ⟨hrc, hrv⟩ := hr
  obtain ⟨hec, hev⟩ := he
  have hat : Reg.entryAt (wordOf a (0x12000 + 8 * n)).off 0x12000 8 512 = some n := entryAt_of_place (x := 0) hn (by decide)
  have hrw : d.storeRw (wordOf a (0x12000 + 8 * n)) [Reg.routeRing n, Reg.routeEn n, Reg.srcCount n] =
      (d.wr (Reg.routeRing n) ring).wr (Reg.routeEn n) en := by
    simp only [Dev.storeRw, List.foldl_cons, List.foldl_nil, hrc, hec, hrv, hev, and_true]
    rfl
  have hw1 : ∀ e : Dev, e.storeW1 (wordOf a (0x12000 + 8 * n)) [Reg.routeRing n, Reg.routeEn n, Reg.srcCount n] = e := fun e => by
    simp [Dev.storeW1, Reg.routeRing, Reg.routeEn, Reg.srcCount]
  rw [namedWrite_of_takes ht, storeWord_route hat]
  simp only [Dev.storePlain, show (wordOf a (0x12000 + 8 * n)).off = 0x12000 + 8 * n from rfl, wordFields_route hn, hrw, hw1]

/-! The end of an interrupt. -/

theorem eoi_of_inactive {d : Dev} {r : Nat} (h : d.bit (Reg.ringActive r) = false) : d.eoi r = d.bump Reg.evtSpuriousEoi := by
  simp [Dev.eoi, h]

theorem eoi_of_active {d : Dev} {r : Nat} (h : d.bit (Reg.ringActive r) = true) :
    d.eoi r = if d.rd (Reg.ringHead r) ≠ d.rd (Reg.ringTail r) then (d.wr (Reg.ringActive r) 0).activate r
      else d.wr (Reg.ringActive r) 0 := by
  have hh : (d.wr (Reg.ringActive r) 0).rd (Reg.ringHead r) = d.rd (Reg.ringHead r) :=
    rd_wr_of_ne _ _ _ _ (by simp only [fldKey, Reg.ringHead, Reg.ringActive]; omega)
  have htl : (d.wr (Reg.ringActive r) 0).rd (Reg.ringTail r) = d.rd (Reg.ringTail r) :=
    rd_wr_of_ne _ _ _ _ (by simp only [fldKey, Reg.ringTail, Reg.ringActive]; omega)
  simp only [Dev.eoi, h, Bool.not_true, Bool.false_eq_true, if_false, hh, htl]

/-! The latch of an edge on an always-on input (13 R331). -/

/-- A bit that is set where it is clear stands in what the field keeps of the sum. -/
theorem bitOf_set {v b w : Nat} (hb : b < w) : bitOf ((if bitOf v b then v else v + 2 ^ b) % 2 ^ w) b = true := by
  rw [bitOf_eq_testBit, bitOf_eq_testBit, Nat.testBit_mod_two_pow, decide_eq_true hb, Bool.true_and]
  split
  · assumption
  · next h => rw [Nat.add_comm, Nat.testBit_two_pow_add_eq]; simpa using h

theorem rd_setW1c (d : Dev) (f : Fld) (source : Nat) (shared : Bool) (i : Nat) :
    (d.setW1c f source shared i).rd f = (if bitOf (d.rd f) i then d.rd f else d.rd f + 2 ^ i) % 2 ^ f.width := by
  unfold Dev.setW1c
  dsimp only
  split
  · exact rd_wr _ _ _
  · rw [rd_raise]; exact rd_wr _ _ _

theorem rd_requestWake_of_ne (d : Dev) {f : Fld} (h1 : fldKey f ≠ fldKey Reg.pstateBusy) (h2 : fldKey f ≠ fldKey Reg.pstateTarget) :
    d.requestWake.rd f = d.rd f := by
  unfold Dev.requestWake
  split
  · rw [rd_wr_of_ne _ _ _ _ h2, rd_wr_of_ne _ _ _ _ h1]
  · rfl

/-- A wake is asked for in registers alone. -/
theorem requestWake_parts (d : Dev) : d.requestWake.serve = d.serve ∧ d.requestWake.wafer = d.wafer ∧ d.requestWake.img = d.img := by
  unfold Dev.requestWake
  split <;> exact ⟨rfl, rfl, rfl⟩

theorem latchEdge_of_off {d : Dev} {b : Nat} {shared : Bool} (h : 6 ≤ b ∨ d.pwr.aonOn = false) : d.latchEdge b shared = d := by
  rcases h with h | h <;> simp [Dev.latchEdge, h]

/-- What an edge leaves before the wake that it may ask for. -/
def edgeLatched (d : Dev) (b : Nat) (shared : Bool) : Dev :=
  let d1 := d.setW1c Reg.aonLatch (latchSource b) (shared || d.rd Reg.stage < 1) b
  let d2 := d1.wr Reg.aonCount (d1.rd Reg.aonCount +
    (min (bitsOf (d1.rd Reg.aonCount) (8 * b) 8 + 1) 255 - bitsOf (d1.rd Reg.aonCount) (8 * b) 8) * 256 ^ b)
  if bitOf (d.rd Reg.aonLatch) b then d2 else d2.wr (Reg.aonTick b) d2.tick

theorem latchEdge_of_on {d : Dev} {b : Nat} {shared : Bool} (hb : b < 6) (hon : d.pwr.aonOn = true) :
    d.latchEdge b shared = if bitOf ((edgeLatched d b shared).rd Reg.aonWakeEn) b then (edgeLatched d b shared).requestWake
      else edgeLatched d b shared := by
  unfold Dev.latchEdge edgeLatched
  rw [if_neg (by simp [hon]; omega)]
  dsimp only
  cases bitOf (d.rd Reg.aonLatch) b <;> rfl

theorem edgeLatched_parts (d : Dev) (b : Nat) (shared : Bool) :
    (edgeLatched d b shared).serve = d.serve ∧ (edgeLatched d b shared).wafer = d.wafer ∧ (edgeLatched d b shared).img = d.img := by
  unfold edgeLatched
  dsimp only
  split <;> simp

theorem edgeLatched_latch (d : Dev) {b : Nat} (shared : Bool) (hb : b < 6) : bitOf ((edgeLatched d b shared).rd Reg.aonLatch) b = true := by
  have hkeep : (edgeLatched d b shared).rd Reg.aonLatch =
      (d.setW1c Reg.aonLatch (latchSource b) (shared || d.rd Reg.stage < 1) b).rd Reg.aonLatch := by
    unfold edgeLatched
    dsimp only
    split
    · exact rd_wr_of_ne _ _ _ _ (by decide)
    · rw [rd_wr_of_ne _ _ _ _ (by simp only [fldKey, Reg.aonLatch, Reg.aonTick]; omega), rd_wr_of_ne _ _ _ _ (by decide)]
  rw [hkeep, rd_setW1c]
  exact bitOf_set hb

theorem edgeLatched_tick (d : Dev) (b : Nat) (shared : Bool) (h : bitOf (d.rd Reg.aonLatch) b = false) :
    (edgeLatched d b shared).rd (Reg.aonTick b) = d.tick % 2 ^ 48 := by
  unfold edgeLatched
  dsimp only
  rw [if_neg (by simp [h]), rd_wr]
  simp only [wr_tick, setW1c_tick, Reg.aonTick]

theorem aonEdge_answers (s : State) {b : Nat} (hb : b < 6) (hon : s.dev.pwr.aonOn = true) :
    Answers (.aonEdge b) s fun u =>
      bitOf (u.dev.rd Reg.aonLatch) b = true ∧ u.dev.serve = s.dev.serve ∧ u.dev.wafer = s.dev.wafer ∧ u.dev.img = s.dev.img ∧
        (bitOf (s.dev.rd Reg.aonLatch) b = false → u.dev.rd (Reg.aonTick b) = s.dev.tick % 2 ^ 48) := by
  refine ⟨_, rfl, ?_⟩
  have hc := SameButRecords.closeCycle (s.dev.latchEdge b false)
  have htick : Plain (Reg.aonTick b) := plain_of _ (by simp [Reg.aonTick]) (by simp only [Reg.aonTick]; omega)
  dsimp only
  rw [hc.serve, hc.wafer, hc.img, hc.regs Reg.aonLatch rfl, hc.regs _ htick, latchEdge_of_on hb hon]
  obtain ⟨hserve, hwafer, himg⟩ := edgeLatched_parts s.dev b false
  have hlatch := edgeLatched_latch s.dev false hb
  have hfirst := edgeLatched_tick s.dev b false
  split
  · obtain ⟨hs, hw, hi⟩ := requestWake_parts (edgeLatched s.dev b false)
    rw [rd_requestWake_of_ne _ (by decide) (by decide), rd_requestWake_of_ne _ (by simp only [fldKey, Reg.aonTick, Reg.pstateBusy]; omega)
      (by simp only [fldKey, Reg.aonTick, Reg.pstateTarget]; omega)]
    exact ⟨hlatch, hs.trans hserve, hw.trans hwafer, hi.trans himg, hfirst⟩
  · exact ⟨hlatch, hserve, hwafer, himg, hfirst⟩

/-- Settles O40: each write reaches the effect of its word. -/
theorem eventControllerWrites : Obligations.EventControllerWrites := by
  intro s a
  refine ⟨fun r ht hg => ?_, fun k line hk ht hg => ?_, fun n v ht hn hv => ?_, fun r hr ht => ?_,
    fun r v hr ht hg hen h4 => congrArg s.next (ringHead_write hr ht hg hen h4),
    fun n ring en hn ht hg he => congrArg s.next (routeWrite_of_gives hn ht hg he),
    fun b hb => congrArg s.next (latchEdge_of_off hb), fun b hb hon => aonEdge_answers s hb hon⟩
  · have he := evtEoi_of_gives ht hg
    refine ⟨fun h => congrArg s.next (he.trans (eoi_of_inactive h)), fun h hq => congrArg s.next (he.trans ?_),
      fun h hq => congrArg s.next (he.trans ?_)⟩
    · rw [eoi_of_active h, if_neg (Classical.not_not.2 hq)]
    · rw [eoi_of_active h, if_pos hq]
  · have he := bankEoi_of_gives hk ht hg
    refine ⟨fun h => congrArg s.next (he.trans (if_neg ?_)), fun h => congrArg s.next (he.trans (if_pos ?_)),
      fun h hl => congrArg s.next ((he.trans (if_pos ?_)).trans (bankEoi_of_noRing s.dev k hl))⟩
    · rwa [coreOfReq_iff]
    · rwa [coreOfReq_iff]
    · rwa [coreOfReq_iff]
  · have he := evtRaise_of_gives ht hn hv
    have hlt : n < 2 ^ 9 := gives_lt hn
    refine ⟨fun h1 h2 => congrArg s.next (he.trans (if_pos ?_)), fun h => congrArg s.next (he.trans (if_neg ?_))⟩
    · simp [inRange]; omega
    · simp [inRange]; omega
  · exact ⟨fun hen hg => congrArg s.next (ringEnable_off hr ht hen hg),
      fun base size target hen hg hb hs htg => congrArg s.next (ringEnable_on hr ht hen hg hb hs htg)⟩

/-! The words that stand once and have a rule of their own. -/

theorem storeWord_deviceReset {d : Dev} {w : WordWrite} (h : w.off = 0x1010) : d.storeWord w = d.storeReset w := by
  simp [Dev.storeWord, h]

theorem storeWord_freqStep {d : Dev} {w : WordWrite} (h : w.off = 0x201000) : d.storeWord w = d.storeFreq w := by
  simp [Dev.storeWord, h, Reg.entryAt]

theorem storeWord_hbmCtrl {d : Dev} {w : WordWrite} (h : w.off = 0x500008) : d.storeWord w = d.storeHbmCtrl w := by
  simp [Dev.storeWord, h, Reg.entryAt]

theorem storeWord_bar4Base {d : Dev} {w : WordWrite} (h : w.off = 0x2008) : d.storeWord w = d.storeBar4 w := by
  simp [Dev.storeWord, h, Reg.entryAt]

theorem storeWord_hostWinBase {d : Dev} {w : WordWrite} (h : w.off = 0x2000) : d.storeWord w = d.storeHostWin w := by
  simp [Dev.storeWord, h, Reg.entryAt]

theorem deviceReset_of_gives {d : Dev} {a : RegAcc} {v key : Nat} (ht : Takes d a 0x1010) (hv : Gives a 0x1010 Reg.deviceReset v)
    (hk : Gives a 0x1010 Reg.resetKey key) : d.namedWrite a 0x1010 = if v = 1 ∧ key = 0xA5 then d.doDeviceReset else d := by
  obtain ⟨hvc, hv⟩ := hv
  obtain ⟨hkc, hk⟩ := hk
  rw [namedWrite_of_takes ht, storeWord_deviceReset rfl]
  simp only [Dev.storeReset, hvc, hkc, hv, hk, true_and]

theorem freqStep_of_gives {d : Dev} {a : RegAcc} {v : Nat} (ht : Takes d a 0x201000) (hg : Gives a 0x201000 Reg.freqStep v) :
    d.namedWrite a 0x201000 = if 16 ≤ v ∧ v ≤ 64 then (d.wr Reg.freqStep v).wr Reg.freqPending 1 else d := by
  obtain ⟨hc, hv⟩ := hg
  rw [namedWrite_of_takes ht, storeWord_freqStep rfl]
  simp only [Dev.storeFreq, hc, hv, true_and]

theorem mirrorGib_of_gives {d : Dev} {a : RegAcc} {g m : Nat} (ht : Takes d a 0x500008) (hg : Gives a 0x500008 Reg.mirrorGib g)
    (hm : Gives a 0x500008 Reg.eccMode m) : d.namedWrite a 0x500008 =
      if d.mirrorBusy = false ∧ 1 ≤ g ∧ g ≤ 64 ∧ g % 3 ≠ 0 then (d.wr Reg.eccMode m).setMirror g else d.wr Reg.eccMode m := by
  obtain ⟨hgc, hg⟩ := hg
  obtain ⟨hmc, hm⟩ := hm
  rw [namedWrite_of_takes ht, storeWord_hbmCtrl rfl]
  simp only [Dev.storeHbmCtrl, hgc, hmc, hg, hm, true_and, if_true, Bool.not_eq_true']

theorem bar4Base_of_gives {d : Dev} {a : RegAcc} {v : Nat} (ht : Takes d a 0x2008) (hg : Gives a 0x2008 Reg.bar4BaseGib v) :
    d.namedWrite a 0x2008 = if (v + 64) * 2 ^ 30 ≤ d.dramTop then d.wr Reg.bar4BaseGib v else d := by
  obtain ⟨hc, hv⟩ := hg
  rw [namedWrite_of_takes ht, storeWord_bar4Base rfl]
  simp only [Dev.storeBar4, hc, hv, true_and, gib, Nat.reducePow]

theorem hostWinBase_of_gives {d : Dev} {a : RegAcc} {v : Nat} (ht : Takes d a 0x2000) (hg : Gives a 0x2000 Reg.hostWinBase v) :
    d.namedWrite a 0x2000 = if d.hostRings = false then d.wr Reg.hostWinBase v else d := by
  obtain ⟨hc, hv⟩ := hg
  rw [namedWrite_of_takes ht, storeWord_hostWinBase rfl]
  simp only [Dev.storeHostWin, hc, hv, true_and, Bool.not_eq_true']

/-! Accesses over PCIe. -/

theorem reaches_of_linkDown {d : Dev} {a : RegAcc} (hw : a.who = .pcie) (h : d.io.pcieUp = false) : d.reaches a.who = false := by
  rw [hw]; exact h

theorem reaches_of_linkUp {d : Dev} {a : RegAcc} (hw : a.who = .pcie) (h : d.io.pcieUp = true) : d.reaches a.who = true := by
  rw [hw]; exact h

theorem unreached {d : Dev} {a : RegAcc} (h : d.reaches a.who = false) : effRegisterWrite a d = d ∧ effRcRead a d = d := by
  simp [effRegisterWrite, effRcRead, h]

theorem unsupported {d : Dev} {a : RegAcc} (hw : a.who = .pcie) (hr : d.reaches a.who = true) (h : accessOk a = false) :
    effRegisterWrite a d = d ∧ effRcRead a d = d.emit .pcieUnsupported := by
  simp only [hw] at hr
  simp [effRegisterWrite, effRcRead, hr, h, hw]

theorem registerWrite_of_ok {d : Dev} {a : RegAcc} (hr : d.reaches a.who = true) (h : accessOk a = true)
    (hs : 7 ≤ d.rd Reg.stage ∨ a.off < 0x2000) : effRegisterWrite a d = d.storeWord (wordOf a (a.off - a.off % 8)) := by
  rw [effRegisterWrite, hr, if_neg (by simp), if_pos h, regWrite_wordOf h (by omega)]

/-- `EVT_SPURIOUS_EOI` fills its word alone. -/
theorem wordFields_spuriousEoi : Reg.wordFields 0x10010 = [Reg.evtSpuriousEoi] := by decide +kernel

theorem rcRead_spuriousEoi {d : Dev} {a : RegAcc} (hw : a.who = .pcie) (hup : d.io.pcieUp = true) (ho : a.off = 0x10010)
    (h8 : a.size = 8) (hs : 7 ≤ d.rd Reg.stage) : ∃ out, effRcRead a d = (d.wr Reg.evtSpuriousEoi 0).emit out := by
  have hok : accessOk a = true := (accessOk_iff a).2 ⟨.inr h8, by rw [h8, ho]⟩
  have hlive : d.liveFields 0x10010 = [Reg.evtSpuriousEoi] := by
    rw [Dev.liveFields, if_neg (by omega), wordFields_spuriousEoi]
  have hclear : d.clearRc 0x10010 0 64 = d.wr Reg.evtSpuriousEoi 0 := by
    simp [Dev.clearRc, hlive, Reg.evtSpuriousEoi]
  have hr := reaches_of_linkUp hw hup
  refine ⟨.pcieData (d.regReadPart 0x10010 0 8).1, ?_⟩
  simp only [hw] at hr
  simp only [effRcRead, hr, hw, hok, ho, h8, Bool.not_true, Bool.false_eq_true, if_false, if_true, Nat.reduceMod, Nat.reduceSub,
    Nat.reduceAdd, Dev.regReadPart, Nat.reduceMul, and_self, true_or, hclear]

/-- Settles O41: each word with a rule of its own, and the accesses that the registers do not take. -/
theorem registerCommands : Obligations.RegisterCommands := by
  intro s a
  refine ⟨fun v key ht hv hk => congrArg s.next (deviceReset_of_gives ht hv hk), fun v ht hg => congrArg s.next (freqStep_of_gives ht hg),
    fun g m ht hg hm => congrArg s.next (mirrorGib_of_gives ht hg hm), fun v ht hg => congrArg s.next (bar4Base_of_gives ht hg),
    fun v ht hg => congrArg s.next (hostWinBase_of_gives ht hg), fun hw hup => ?_, fun hw hup hbad => ?_,
    fun hr hok hs => congrArg s.next (registerWrite_of_ok hr hok hs), fun hw hup ho h8 hs => ?_⟩
  · obtain ⟨hwr, hrd⟩ := unreached (reaches_of_linkDown hw hup)
    exact ⟨congrArg s.next hwr, congrArg s.next hrd⟩
  · obtain ⟨hwr, hrd⟩ := unsupported hw (reaches_of_linkUp hw hup) hbad
    exact ⟨congrArg s.next hwr, congrArg s.next hrd⟩
  · obtain ⟨out, hread⟩ := rcRead_spuriousEoi hw hup ho h8 hs
    have hc := SameButRecords.closeCycle ((s.dev.wr Reg.evtSpuriousEoi 0).emit out)
    refine ⟨_, congrArg s.next hread, ?_, fun f hf hne => ?_, hc.serve⟩
    · exact (hc.regs Reg.evtSpuriousEoi rfl).trans ((rd_emit _ _ _).trans (rd_wr _ _ _))
    · exact (hc.regs f hf).trans ((rd_emit _ _ _).trans (rd_wr_of_ne _ _ _ _ hne))

/-! The windows. -/

theorem bar4_read {a : WinAcc} {d : Dev} (hup : d.io.pcieUp = true) (hs : 7 ≤ d.rd Reg.stage) (ha : a.data = none)
    (hin : d.rd Reg.bar4BaseGib * 2 ^ 30 + a.addr + a.len ≤ d.dramTop) :
    effBar4Access a d =
      if (firstIn d.protectedAt (d.rd Reg.bar4BaseGib * 2 ^ 30 + a.addr) a.len).isSome then (d.bump Reg.bar4Refused).emit .pcieAbort
      else if (d.badLine (d.rd Reg.bar4BaseGib * 2 ^ 30 + a.addr) a.len).isSome then
        d.emit (.pciePoison (d.dramBytes (d.rd Reg.bar4BaseGib * 2 ^ 30 + a.addr) a.len))
      else (d.countReads (linesOf (d.rd Reg.bar4BaseGib * 2 ^ 30 + a.addr) a.len)).emit
        (.pcieData (d.dramBytes (d.rd Reg.bar4BaseGib * 2 ^ 30 + a.addr) a.len)) := by
  have hg : gib = 2 ^ 30 := rfl
  have hmin : min a.len (d.dramTop - (d.rd Reg.bar4BaseGib * 2 ^ 30 + a.addr)) = a.len := by omega
  have hnone : a.len - (d.dramTop - (d.rd Reg.bar4BaseGib * 2 ^ 30 + a.addr)) = 0 := by omega
  have htop : ¬ d.dramTop < d.rd Reg.bar4BaseGib * 2 ^ 30 + a.addr + a.len := by omega
  rw [effBar4Access, if_neg (by simp [hup]), if_neg (by omega), ha]
  dsimp only
  rw [hg, hmin, hnone, if_neg htop, List.replicate_zero, List.append_nil]

theorem bar4_write {a : WinAcc} {d : Dev} {bs : List Byte} (hup : d.io.pcieUp = true) (hs : 7 ≤ d.rd Reg.stage) (ha : a.data = some bs)
    (hin : d.rd Reg.bar4BaseGib * 2 ^ 30 + a.addr + bs.length ≤ d.dramTop) :
    effBar4Access a d =
      if (firstIn d.protectedAt (d.rd Reg.bar4BaseGib * 2 ^ 30 + a.addr) bs.length).isSome then d.bump Reg.bar4Refused
      else (d.bar4Store (d.rd Reg.bar4BaseGib * 2 ^ 30 + a.addr) bs (d.rd Reg.bar4BaseGib * 2 ^ 30 + a.addr)
        (d.rd Reg.bar4BaseGib * 2 ^ 30 + a.addr + bs.length)).clearPoisonIn (d.rd Reg.bar4BaseGib * 2 ^ 30 + a.addr) bs.length := by
  have hg : gib = 2 ^ 30 := rfl
  have htop : ¬ d.dramTop < d.rd Reg.bar4BaseGib * 2 ^ 30 + a.addr + bs.length := by omega
  rw [effBar4Access, if_neg (by simp [hup]), if_neg (by omega), ha]
  dsimp only
  rw [hg, if_neg htop]

theorem windows_linkDown {a : WinAcc} {d : Dev} (h : d.io.pcieUp = false) : effBar4Access a d = d ∧ effDiagSlotAccess a d = d := by
  simp [effBar4Access, effDiagSlotAccess, h]

theorem windows_early_read {a : WinAcc} {d : Dev} (hup : d.io.pcieUp = true) (hs : d.rd Reg.stage < 7) (ha : a.data = none) :
    effBar4Access a d = d.emit (.pcieData (List.replicate a.len 0)) ∧
      effDiagSlotAccess a d = d.emit (.pcieData (List.replicate a.len 0)) := by
  simp [effBar4Access, effDiagSlotAccess, hup, hs, ha]

theorem windows_early_write {a : WinAcc} {d : Dev} {bs : List Byte} (hup : d.io.pcieUp = true) (hs : d.rd Reg.stage < 7)
    (ha : a.data = some bs) : effBar4Access a d = d ∧ effDiagSlotAccess a d = d := by
  simp [effBar4Access, effDiagSlotAccess, hup, hs, ha]

theorem diagSlot_write {a : WinAcc} {d : Dev} {bs : List Byte} (hup : d.io.pcieUp = true) (hs : 7 ≤ d.rd Reg.stage)
    (ha : a.data = some bs) : effDiagSlotAccess a d =
      (d.write (0x200000000000 + a.addr) bs).dev.noteUnmapped .pcie true (d.write (0x200000000000 + a.addr) bs).unmapped := by
  rw [effDiagSlotAccess, if_neg (by simp [hup]), if_neg (by omega), ha]

theorem tileWindow_read {a : WinAcc} {d : Dev} (ha : a.data = none) : effTileWindowAccess a d =
    (((d.read a.addr a.len).dev.noteUnmapped a.who false (d.read a.addr a.len).unmapped)).emit
      (.busData (d.read a.addr a.len).st (d.read a.addr a.len).bytes) := by
  rw [effTileWindowAccess, ha]

theorem tileWindow_write {a : WinAcc} {d : Dev} {bs : List Byte} (ha : a.data = some bs) : effTileWindowAccess a d =
    (((d.write a.addr bs).dev.noteUnmapped a.who true (d.write a.addr bs).unmapped)).emit (.busData (d.write a.addr bs).st []) := by
  rw [effTileWindowAccess, ha]

/-- Settles O44: link and stage decide whether a window answers, protection and bad lines what BAR4 does. -/
theorem windowAccesses : Obligations.WindowAccesses := by
  intro s a
  refine ⟨fun hup => ?_, fun hup hs ha => ?_, fun bs hup hs ha => ?_, fun hup hs ha hin hp hb => congrArg s.next ?_,
    fun hup hs ha hin hp => congrArg s.next ?_, fun bs hup hs ha hin => ⟨fun hp => congrArg s.next ?_, fun hp => congrArg s.next ?_⟩,
    fun ha => congrArg s.next (tileWindow_read ha), fun bs ha => congrArg s.next (tileWindow_write ha),
    fun bs hup hs ha => congrArg s.next (diagSlot_write hup hs ha)⟩
  · obtain ⟨hb, hd⟩ := windows_linkDown (a := a) hup
    exact ⟨congrArg s.next hb, congrArg s.next hd⟩
  · obtain ⟨hb, hd⟩ := windows_early_read hup hs ha
    exact ⟨congrArg s.next hb, congrArg s.next hd⟩
  · obtain ⟨hb, hd⟩ := windows_early_write hup hs ha
    exact ⟨congrArg s.next hb, congrArg s.next hd⟩
  · rw [bar4_read hup hs ha hin, hp, hb, if_neg (by simp), if_neg (by simp)]
  · rw [bar4_read hup hs ha hin, if_pos (Option.isSome_iff_ne_none.2 hp)]
  · rw [bar4_write hup hs ha hin, if_pos (Option.isSome_iff_ne_none.2 hp)]
  · rw [bar4_write hup hs ha hin, hp, if_neg (by simp)]

end Sys2Proof.Proofs
end

section
/-! PROOFS. What a started Rhoic command comes to, the commands that report, the copies of DRAM, and the queue pairs. -/
namespace Sys2Proof.Proofs
open Sys2Proof.Machine Sys2Proof.Laws

/-! What a command that starts comes to, by the form of its start (12 R309). -/

section
variable {s : State} {row : Row} {objs : List Obj} {r : Rhoic} {start : Dev → Start}

theorem next_of_done (h : Starts s.dev row objs r) {p : Reply} {e : Dev} (hs : start (fetchedDev s r) = .done p e) :
    s.next (s.dev.rhoic row objs r start) = Completes s r p e := by
  rw [rhoic_of_starts h, show (s.dev.fetched r).2 = fetchedDev s r from rfl, hs]
  rfl

theorem next_of_run (h : Starts s.dev row objs r) {j : Job} {e : Dev} (hs : start (fetchedDev s r) = .run j e) :
    s.next (s.dev.rhoic row objs r start) = RunsOn s row objs r j e := by
  rw [rhoic_of_starts h, show (s.dev.fetched r).2 = fetchedDev s r from rfl, hs]
  rfl

theorem next_of_quiet (h : Starts s.dev row objs r) {e : Dev} (hs : start (fetchedDev s r) = .quiet e) :
    s.next (s.dev.rhoic row objs r start) = s.next e := by
  rw [rhoic_of_starts h, show (s.dev.fetched r).2 = fetchedDev s r from rfl, hs]
  rfl

theorem next_of_bufOut (h : Starts s.dev row objs r) {a : Nat} {bs : List Byte} {p : Reply} {e : Dev}
    (hs : start (fetchedDev s r) = e.bufOut r a bs p) : s.next (s.dev.rhoic row objs r start) = Delivers s r a bs p e := by
  rw [rhoic_of_starts h, show (s.dev.fetched r).2 = fetchedDev s r from rfl, hs]
  exact settle_bufOut s _ objs r e a bs p

end

/-! The commands that report (12 R313). -/

section
variable {r : Rhoic}

theorem inclusionReport_of_active {d : Dev} (h : d.rd Reg.imageState = 1) :
    startInclusionReport r d = d.bufOut r (arg r 16 8) (d.reportOf.take (arg r 24 4)) {} := by
  simp [startInclusionReport, h]

theorem queryUsage_of_tenant {d : Dev} (h : arg r 10 1 = 0) (ht : d.tenantArg r 8 < 4096) :
    startQueryUsage r d = d.bufOut r (arg r 16 8) (usageBytes (d.tenant (d.tenantArg r 8)).usedGen (d.tenant (d.tenantArg r 8)).usedPrefill
      (d.tenant (d.tenantArg r 8)).usedRecompute (d.tenant (d.tenantArg r 8)).balance (d.openOf (d.tenantArg r 8))
      (d.tenant (d.tenantArg r 8)).reserved) {} := by
  have hn : ¬ Config.tenantCount ≤ d.tenantArg r 8 := Nat.not_le.2 ht
  simp [startQueryUsage, h, hn]

theorem queryUsage_of_stream {d : Dev} {x : Stream} (h : arg r 10 1 = 1) (ht : d.tenantArg r 8 < 4096)
    (hx : d.stream? (arg r 12 2) = some x) : startQueryUsage r d =
      if d.classOf r.qp = 3 ∧ x.tenant ≠ d.tenantArg r 8 then .done (bad St.streamUnknown) d
      else d.bufOut r (arg r 16 8) (usageBytes x.usedGen x.usedPrefill x.usedRecompute 0 0 0) {} := by
  have hn : ¬ Config.tenantCount ≤ d.tenantArg r 8 := Nat.not_le.2 ht
  simp [startQueryUsage, h, hn, hx]

theorem streamRead_of_named {d : Dev} {x : Stream} (hx : d.named r (arg r 8 2) false false = .inr x) (h1 : 1 ≤ arg r 12 4)
    (h2 : arg r 16 8 + arg r 12 4 ≤ x.appended) : startStreamRead r d = d.bufOut r (arg r 24 8)
      (((x.history.drop (arg r 16 8)).take (arg r 12 4)).flatMap fun t => leBytes 4 t)
      { result := x.committed, result2 := x.appended } := by
  have hz : arg r 12 4 ≠ 0 := by omega
  have hn : ¬ x.appended < arg r 16 8 + arg r 12 4 := by omega
  simp only [startStreamRead, hx]
  rw [if_neg hz, if_neg hn]

end

/-- Settles O6: each start, under its conditions, is the delivery of its bytes. -/
theorem queriesDeliver : Obligations.QueriesDeliver := by
  unfold Obligations.QueriesDeliver
  refine ⟨fun s r => ⟨fun h => next_of_bufOut h rfl, fun h => next_of_bufOut h rfl, fun h => next_of_bufOut h rfl,
    fun h hi => next_of_bufOut h (inclusionReport_of_active hi)⟩, fun s r => ⟨?_, ?_, ?_⟩⟩
  · intro objs ho h h0 ht
    subst ho
    exact next_of_bufOut h (queryUsage_of_tenant h0 ht)
  · intro objs x ho h h1 ht hx
    subst ho
    have hs := queryUsage_of_stream (d := fetchedDev s r) h1 ht hx
    split at hs
    case isTrue hc => rw [if_pos hc]; exact next_of_done h hs
    case isFalse hc => rw [if_neg hc]; exact next_of_bufOut h hs
  · intro x h hx h1 h2
    exact next_of_bufOut h (streamRead_of_named hx h1 h2)

/-! The copies of device memory (12 R313, 10 R244). -/

theorem dramLength_iff (n : Nat) : dramLength n = true ↔ 64 ≤ n ∧ n ≤ 0x1000000 ∧ n % 64 = 0 := by
  simp [dramLength, and_assoc]

theorem dramCommands_badLength {d : Dev} {r : Rhoic} (h : ¬ (64 ≤ arg r 24 4 ∧ arg r 24 4 ≤ 0x1000000 ∧ arg r 24 4 % 64 = 0)) :
    startReadDram r d = .done (bad St.paramRange 24) d ∧ startWriteDram r d = .done (bad St.paramRange 24) d := by
  have hf : dramLength (arg r 24 4) = false := by rwa [← Bool.not_eq_true, dramLength_iff]
  simp [startReadDram, startWriteDram, hf]

section
variable {d : Dev} {r : Rhoic} (hn : 64 ≤ arg r 24 4 ∧ arg r 24 4 ≤ 0x1000000 ∧ arg r 24 4 % 64 = 0)
include hn

theorem readDram_of_success {x : Nat} {bs : List Byte} {e : Dev}
    (h : d.cmdRead r.qp (arg r 8 8) (arg r 24 4) = (St.success, x, bs, e)) :
    startReadDram r d = e.bufOut r (arg r 16 8) bs {} := by
  simp [startReadDram, (dramLength_iff _).2 hn, h, St.success, St.uncorrectable]

theorem readDram_of_uncorrectable {x : Nat} {bs : List Byte} {e : Dev}
    (h : d.cmdRead r.qp (arg r 8 8) (arg r 24 4) = (St.uncorrectable, x, bs, e)) : startReadDram r d =
      if bs = [] then .done { st := St.uncorrectable, result := x } e
      else e.bufOut r (arg r 16 8) bs { st := St.uncorrectable, result := x } := by
  simp [startReadDram, (dramLength_iff _).2 hn, h]

theorem writeDram_of_success {x y : Nat} {bs : List Byte} {e e2 : Dev} (h : d.bufIn r (arg r 16 8) (arg r 24 4) = (St.success, x, bs, e))
    (hw : e.cmdWrite r.qp (arg r 8 8) bs = (St.success, y, e2)) : startWriteDram r d = .done {} e2 := by
  simp [startWriteDram, (dramLength_iff _).2 hn, h, hw, St.success, St.uncorrectable]

end

/-- A write of a command to plain memory clears the poison of the lines it rewrites whole and stores its bytes. -/
theorem cmdWrite_of_plain {d : Dev} {q a : Nat} {bs : List Byte} (hw : d.inWindow q a bs.length = true)
    (he : a + bs.length ≤ d.dramTop) (ha : a < d.dramTop) (hp : firstIn d.protectedAt a bs.length = none)
    (hb : d.partialPoison a bs.length = false) : d.cmdWrite q a bs = (St.success, 0,
      { d.clearPoisonIn a bs.length with
        mem := { (d.clearPoisonIn a bs.length).mem with dram := memWrite d.mem.dram (d.dramKey a) bs } }) := by
  have hr : ¬ d.regionEnd a < a + bs.length := by
    have : d.regionEnd a = d.dramTop := if_pos ha
    omega
  have hk : (d.clearPoisonIn a bs.length).dramKey a = d.dramKey a := (SameButRecords.clearPoisonIn d a _).dramKey a
  simp only [Dev.cmdWrite, hw, Bool.not_true, Bool.false_eq_true, if_false, if_neg hr, if_pos ha, hp, Option.isSome_none, hb, hk]
  rfl

/-- Settles O7: the starts by the length and by what the copy answers; the write by what it stores. -/
theorem dramCopies : Obligations.DramCopies := by
  unfold Obligations.DramCopies
  refine ⟨fun s r => ⟨fun h hn => next_of_done h (dramCommands_badLength hn).1, fun h hn => next_of_done h (dramCommands_badLength hn).2,
    fun x bs e h hn hr => next_of_bufOut h (readDram_of_success hn hr), fun x e h hn hr => ?_, fun x bs e h hn hr hne => ?_,
    fun x bs e y e2 h hn hr hw => next_of_done h (writeDram_of_success hn hr hw)⟩, fun d q a bs hw he ha hp hb => ?_⟩
  · exact next_of_done h ((readDram_of_uncorrectable hn hr).trans (if_pos rfl))
  · exact next_of_bufOut h ((readDram_of_uncorrectable hn hr).trans (if_neg hne))
  · rw [cmdWrite_of_plain hw he ha hp hb]
    exact ⟨rfl, fun k => memGet_memWrite _ _ _ _, fun _ => rfl, rfl, rfl, rfl, fun h => memWrite_wf _ _ _ h⟩

end Sys2Proof.Proofs
end

section
/-! PROOFS. Queue pairs: their commands, ENABLE, the records that wait, the common refusals and the fetch (12 R298-R312). -/
namespace Sys2Proof.Proofs
open Sys2Proof.Machine Sys2Proof.Laws

/-! CREATE_QUEUE and DELETE_QUEUE (12 R313). -/

section
variable {d : Dev} {r : Rhoic}

theorem pairCommands_badNumber (h : arg r 8 2 = 0 ∨ 16384 ≤ arg r 8 2) :
    startCreateQueue r d = .done (bad St.paramRange 8) d ∧ startDeleteQueue r d = .done (bad St.paramRange 8) d := by
  have hc : arg r 8 2 = 0 ∨ Config.queuePairs ≤ arg r 8 2 := h
  simp [startCreateQueue, startDeleteQueue, hc]

section
variable (hq : 0 < arg r 8 2) (hlt : arg r 8 2 < 16384)
include hq hlt

theorem pairNumber_ok : ¬ (arg r 8 2 = 0 ∨ Config.queuePairs ≤ arg r 8 2) := by
  show ¬ (arg r 8 2 = 0 ∨ 16384 ≤ arg r 8 2)
  omega

theorem createQueue_of_on (he : entryReserved r = none) (hon : d.qpOn (arg r 8 2) = true) :
    startCreateQueue r d = .done (bad St.queueInvalid) d := by
  simp only [startCreateQueue, pairNumber_ok hq hlt, he, hon, if_false, if_true]

theorem createQueue_of_off (he : entryReserved r = none) (hon : d.qpOn (arg r 8 2) = false) : startCreateQueue r d =
    if (d.fillEntry (arg r 8 2) r).ringsValid (arg r 8 2) then .done {} ((d.fillEntry (arg r 8 2) r).enablePair (arg r 8 2))
    else .done (bad St.queueInvalid) d := by
  simp only [startCreateQueue, pairNumber_ok hq hlt, he, hon, if_false, Bool.false_eq_true]

theorem deleteQueue_of_number : startDeleteQueue r d =
    if d.pairInUse (arg r 8 2) then .done (bad St.queueInUse) d else .done {} (d.clearEntry (arg r 8 2)) := by
  simp only [startDeleteQueue, pairNumber_ok hq hlt, if_false]

end
end

theorem get_filter_of_not {α : Type} {d : α} {m : List (Nat × α)} {p : Nat → Bool} {k : Nat} (h : p k = false) :
    AMap.get d (m.filter fun e => p e.1) k = d := by
  induction m with
  | nil => rfl
  | cons e m ih =>
    rw [List.filter_cons]
    split
    · next hp =>
      have hne : e.1 ≠ k := by rintro rfl; rw [h] at hp; cases hp
      rw [AMap.get, if_neg hne, ih]
    · exact ih

/-- A cleared entry's words read their reset values; every other word reads as before. -/
theorem rd_clearEntry (d : Dev) (q : Nat) {f : Fld} (hlo : f.lo < 64) : (d.clearEntry q).rd f =
    if 0x100000 + 64 * q ≤ f.off ∧ f.off < 0x100000 + 64 * q + 64 then f.reset else d.rd f := by
  have hk : fldKey f / 64 = f.off := by unfold fldKey; omega
  have hr : inRange f.off (0x100000 + 64 * q) 64 = true ↔ 0x100000 + 64 * q ≤ f.off ∧ f.off < 0x100000 + 64 * q + 64 := by
    simp [inRange]
  show AMap.get f.reset (d.regs.filter fun e => !inRange (e.1 / 64) (0x100000 + 64 * q) 64) (fldKey f) = _
  split
  · next h => exact get_filter_of_not (p := fun k => !inRange (k / 64) (0x100000 + 64 * q) 64) (by rw [hk, hr.2 h]; rfl)
  · next h =>
    refine get_filter (f := fun k => !inRange (k / 64) (0x100000 + 64 * q) 64) ?_
    rw [hk, Bool.not_eq_true', ← Bool.not_eq_true, hr]
    exact h

theorem queueFields_place {q : Nat} {f : Fld} (hf : f ∈ Reg.queueFields q) :
    (0x100000 + 64 * q ≤ f.off ∧ f.off < 0x100000 + 64 * q + 64) ∧ f.lo < 64 := by
  have hall : ∀ f ∈ Reg.queueFields q, (0x100000 + 64 * q ≤ f.off ∧ f.off < 0x100000 + 64 * q + 64) ∧ f.lo < 64 := by
    simp [Reg.queueFields, Reg.sqBase, Reg.sqSize, Reg.cqSize, Reg.qClass, Reg.qPath, Reg.qEnable, Reg.cqBase, Reg.qTenant,
      Reg.notifyRing, Reg.qPeer, Reg.sqHead, Reg.sqTail, Reg.cqHead, Reg.cqTail, Reg.bufBase, Reg.bufBytes, Reg.errBase,
      Reg.errDoorbell, Reg.cqStall, Reg.cmdCount, Nat.add_assoc]
  exact hall f hf

/-- Settles O8: by the pair's number, then by whether it is in use. -/
theorem queueCommands : Obligations.QueueCommands := by
  unfold Obligations.QueueCommands
  intro s r
  refine ⟨fun h => ⟨fun hq => next_of_done h (pairCommands_badNumber hq).1, fun hq hlt he => ⟨fun hon => ?_, fun hoff hv => ?_, fun hoff hv => ?_⟩⟩,
    fun h => ⟨fun hq => next_of_done h (pairCommands_badNumber hq).2, fun hq hlt hu => ?_, fun hq hlt hu => ?_⟩⟩
  · exact next_of_done h (createQueue_of_on hq hlt he hon)
  · exact next_of_done h ((createQueue_of_off hq hlt he hoff).trans (if_pos hv))
  · exact next_of_done h ((createQueue_of_off hq hlt he hoff).trans (if_neg (Bool.eq_false_iff.1 hv)))
  · exact next_of_done h ((deleteQueue_of_number hq hlt).trans (if_pos hu))
  · refine ⟨_, next_of_done h ((deleteQueue_of_number hq hlt).trans (if_neg (Bool.eq_false_iff.1 hu))), fun f hf => ?_, fun f hf hlo => ?_, rfl, rfl⟩
    · rw [rd_clearEntry _ _ (queueFields_place hf).2, if_pos (queueFields_place hf).1]
    · rw [rd_clearEntry _ _ hlo, if_neg hf]

/-! ENABLE of a pair's entry (12 R304). -/

/-- The first word of a pair's entry holds no field that a written 1 clears or sets. -/
theorem storeQueue_first {d : Dev} {w : WordWrite} {q : Nat} (h : w.off = 0x100000 + 64 * q) : d.storeQueue q w =
    if q = 0 then d
    else if d.qpOn q then (if w.covers (Reg.qEnable q) ∧ w.value (Reg.qEnable q) = 0 then d.disablePair q else d)
    else
      let e := d.storeRw w ((Reg.queueFields q).filter fun f => f != Reg.qEnable q)
      if w.covers (Reg.qEnable q) ∧ w.value (Reg.qEnable q) = 1 ∧ e.ringsValid q then e.enablePair q else e := by
  have hw1 : d.storeW1 w (Reg.queueFields q) = d := by
    refine List.foldlRecOn (motive := (· = d)) (Reg.queueFields q) _ rfl fun e he f hf => ?_
    have hb : w.covers (Reg.errBase q) = false := covers_other (by rw [h]; simp only [Reg.errBase]; omega)
    have hd : w.covers (Reg.errDoorbell q) = false := covers_other (by rw [h]; simp only [Reg.errDoorbell]; omega)
    have hs : w.covers (Reg.cqStall q) = false := covers_other (by rw [h]; simp only [Reg.cqStall]; omega)
    simp only [Reg.queueFields, List.mem_cons, List.not_mem_nil, or_false] at hf
    rcases hf with rfl | rfl | rfl | rfl | rfl | rfl | rfl | rfl | rfl | rfl | rfl | rfl | rfl | rfl | rfl | rfl | rfl | rfl | rfl | rfl <;>
      simp [he, hb, hd, hs, Reg.sqBase, Reg.sqSize, Reg.cqSize, Reg.qClass, Reg.qPath, Reg.qEnable, Reg.cqBase, Reg.qTenant,
        Reg.notifyRing, Reg.qPeer, Reg.sqHead, Reg.sqTail, Reg.cqHead, Reg.cqTail, Reg.bufBase, Reg.bufBytes, Reg.cmdCount]
  have hpump : (bitOf (d.rd (Reg.errBase q)) 0 && !bitOf (d.rd (Reg.errBase q)) 0) = false := by
    cases bitOf (d.rd (Reg.errBase q)) 0 <;> rfl
  simp only [Dev.storeQueue, hw1, hpump, Bool.false_eq_true, if_false]

theorem queueEnable_word {d : Dev} {a : RegAcc} {q : Nat} (hq : q < 16384) (ht : Takes d a (0x100000 + 64 * q)) :
    d.namedWrite a (0x100000 + 64 * q) = d.storeQueue q (wordOf a (0x100000 + 64 * q)) := by
  rw [namedWrite_of_takes ht, storeWord_queue (entryAt_of_place (x := 0) hq (by decide))]

/-! Records that wait on a pair (12 R311). -/

/-- A write to a ring's memory changes memories alone. -/
theorem ringStore_eq {d e : Dev} {a : Nat} {bs : List Byte} (h : d.ringStore a bs = some e) : ∃ m, e = { d with mem := m } := by
  unfold Dev.ringStore at h
  by_cases h1 : a + bs.length ≤ d.dramTop
  · rw [if_pos h1] at h
    by_cases h2 : ((firstIn d.protectedAt a bs.length).isSome || d.partialPoison a bs.length) = true
    · rw [if_pos h2] at h; cases h
    · rw [if_neg h2] at h; rw [← Option.some.inj h]; exact ⟨_, rfl⟩
  · rw [if_neg h1] at h
    by_cases h2 : 0x800000000000 ≤ a ∧ a + bs.length ≤ 0x1000000000000
    · rw [if_pos h2] at h
      revert h
      cases d.hostAddr (a + bs.length - 1) with
      | none => intro h; cases h
      | some x => intro h; rw [← Option.some.inj h]; exact ⟨_, rfl⟩
    · rw [if_neg h2] at h
      by_cases h3 : 0x200010000000 ≤ a ∧ a + bs.length ≤ 0x200012000000
      · rw [if_pos h3] at h; rw [← Option.some.inj h]; exact ⟨_, rfl⟩
      · rw [if_neg h3] at h; cases h

theorem rd_putRecord {d e : Dev} {q : Nat} {x : Rec} (h : d.putRecord q x = some e) {f : Fld} (hf : fldKey f ≠ fldKey (Reg.cqTail q)) :
    e.rd f = d.rd f := by
  unfold Dev.putRecord at h
  cases hs : d.ringStore (d.rd (Reg.cqBase q) + 32 * d.rd (Reg.cqTail q)) (leBytes 32 (d.phased q x)) with
  | none => simp [hs] at h
  | some d1 =>
    obtain ⟨m, rfl⟩ := ringStore_eq hs
    simp only [hs, Option.some.injEq] at h
    rw [← h]
    split <;> exact rd_wr_of_ne _ _ _ _ hf

theorem rd_putGroup {q : Nat} {f : Fld} (hf : fldKey f ≠ fldKey (Reg.cqTail q)) {g : List Rec} {d e : Dev}
    (h : d.putGroup q g = some e) : e.rd f = d.rd f := by
  induction g generalizing d with
  | nil => rw [Option.some.inj h]
  | cons x g ih =>
    rw [Dev.putGroup] at h
    cases hx : d.putRecord q x with
    | none => simp [hx] at h
    | some d1 => rw [hx] at h; rw [ih h, rd_putRecord hx hf]

@[simp] theorem rd_noteWritten (d : Dev) (g : List Rec) (f : Fld) : (d.noteWritten g).rd f = d.rd f := by
  unfold Dev.noteWritten
  split
  · dsimp only; split <;> rfl
  · rfl

/-- A group for which the ring has no space, or whose pair serves no ring, stays. -/
theorem drainCq_of_blocked {d : Dev} {q : Nat} {g : List Rec} {gs : List (List Rec)} (hq : q ≠ 0)
    (h : d.qpOn q = false ∨ d.bit (Reg.errBase q) = true ∨ d.cqEntries q ≤ d.cqUnread q + g.length) :
    d.drainCq q (g :: gs) = d.setWaiting q (g :: gs) := by
  rw [Dev.drainCq, if_neg hq, if_pos]
  simpa [or_assoc] using h

/-- The one group that waits on a pair that does not lead over Narlas is written where its ring has space. -/
theorem drainCq_of_space {d e : Dev} {q : Nat} {g : List Rec} (hq : q ≠ 0) (hon : d.qpOn q = true) (he : d.bit (Reg.errBase q) = false)
    (hs : d.cqUnread q + g.length < d.cqEntries q) (hp : d.rd (Reg.qPath q) ≠ 1) (hg : d.putGroup q g = some e) :
    d.drainCq q [g] = (((if d.cqUnread q = 0 then e.notifyQueue q else e).noteWritten g).setWaiting q []) := by
  have hpath : ((if d.cqUnread q = 0 then e.notifyQueue q else e).noteWritten g).rd (Reg.qPath q) ≠ 1 := by
    have hkey : fldKey (Reg.qPath q) ≠ fldKey (Reg.cqTail q) := by simp only [fldKey, Reg.qPath, Reg.cqTail]; omega
    rw [rd_noteWritten, show (if d.cqUnread q = 0 then e.notifyQueue q else e).rd (Reg.qPath q) = e.rd (Reg.qPath q) by split <;> rfl,
      rd_putGroup hkey hg]
    exact hp
  have hblock : ¬ ((!d.qpOn q || d.bit (Reg.errBase q) || decide (d.cqEntries q ≤ d.cqUnread q + g.length)) = true) := by
    simp [hon, he, hs]
  rw [Dev.drainCq, if_neg hq, if_neg hblock, hg]
  dsimp only
  rw [Dev.carryReplies, if_neg hpath]
  rfl

theorem pumpCq_of_none {d : Dev} {q : Nat} (h : d.waitingOn q = []) : d.pumpCq q = d.setWaiting q [] := by
  rw [Dev.pumpCq, h]; rfl

theorem waitingOn_setWaiting (d : Dev) (q : Nat) (gs : List (List Rec)) : (d.setWaiting q gs).waitingOn q = gs := by
  show AMap.get [] (AMap.set [] d.io.qpWaiting q gs) q = gs
  rw [get_set, if_pos rfl]

theorem waitingOn_of_sameButRecords {d e : Dev} (h : SameButRecords d e) (q : Nat) : e.waitingOn q = d.waitingOn q := by
  have hio := h.io
  have hw : e.io.qpWaiting = d.io.qpWaiting := by rw [← hio]
  rw [Dev.waitingOn, hw, Dev.waitingOn]

/-- Settles O10: the write of the entry's first word; the records that wait by what their ring can take. -/
theorem pairsInUse : Obligations.PairsInUse := by
  unfold Obligations.PairsInUse
  refine ⟨fun s q a => ?_, fun s q => ⟨fun h => ?_, fun g gs hw hq hb => ?_, fun g hw hq hon he hs hp e hg => ?_⟩⟩
  · intro off w entry hq ht
    have hword : effQueueEnable q a s.dev = _ := (queueEnable_word hq ht).trans (storeQueue_first rfl)
    refine ⟨fun h0 hoff hg => congrArg s.next (hword.trans ?_), fun h0 hon hg => congrArg s.next (hword.trans ?_),
      fun h0 => congrArg s.next (hword.trans (if_pos h0))⟩
    · obtain ⟨hc, hv⟩ := hg
      rw [if_neg (Nat.ne_of_gt h0), hoff, if_neg (by simp)]
      exact ite_congr (propext ⟨fun h => h.2.2, fun h => ⟨hc, hv, h⟩⟩) (fun _ => rfl) fun _ => rfl
    · rw [if_neg (Nat.ne_of_gt h0), if_pos hon]
      exact if_pos hg
  · refine ⟨_, rfl, ?_⟩
    dsimp only
    have hc := SameButRecords.closeCycle (s.dev.pumpCq q)
    rw [waitingOn_of_sameButRecords hc, hc.serve, pumpCq_of_none h]
    refine ⟨rfl, waitingOn_setWaiting _ _ _, fun f hf => ?_⟩
    rw [pumpCq_of_none h] at hc
    exact hc.regs f hf
  · refine congrArg s.next ?_
    rw [Dev.pumpCq, hw]
    exact drainCq_of_blocked hq hb
  · refine congrArg s.next ?_
    rw [Dev.pumpCq, hw]
    exact drainCq_of_space hq hon he hs hp hg

/-! The checks that every command meets first (12 R298-R312). -/

theorem headerReserved_byte1 {r : Rhoic} (h : bitsOf r.pkt.toNat 10 6 ≠ 0) : headerReserved r = some 1 := by
  simp [headerReserved, h]

theorem headerReserved_byte3 {r : Rhoic} (h : bitsOf r.pkt.toNat 10 6 = 0) (h3 : bitsOf r.pkt.toNat 30 2 ≠ 0) :
    headerReserved r = some 3 := by
  simp [headerReserved, h, h3]

section
variable {d : Dev} {row : Row} {r : Rhoic}

theorem refusal_notReady (h : d.rd Reg.stage < 7) (h1 : row.op ≠ 1) (h2 : row.op ≠ 2) :
    d.refusal row r = some (bad St.notReady (d.rd Reg.stage)) := by
  rw [Dev.refusal, if_pos ⟨h, h1, h2⟩]

theorem refusal_header (h7 : 7 ≤ d.rd Reg.stage) {o : Nat} (ho : headerReserved r = some o) :
    d.refusal row r = some (bad St.paramReserved o) := by
  rw [Dev.refusal, if_neg (fun h => Nat.not_lt.2 h7 h.1), ho]

/-- Past the header, a command is refused for its pair, its class, its segment, the power state or a reserved parameter byte. -/
theorem refusal_past_header (h7 : 7 ≤ d.rd Reg.stage) (hh : headerReserved r = none) : d.refusal row r =
    if (d.replyPair r).isNone then some (bad St.notPermitted 1)
    else if !bitOf row.classes (d.classOf r.qp) then some (bad St.notPermitted 0)
    else if 0x20 ≤ row.op ∧ row.op ≤ 0x2A ∧ d.rd Reg.segment ≠ 0 then some (bad St.notPermitted 0)
    else if (d.acceptState = 2 ∨ d.acceptState = 3) ∧ !acceptedAsleep row.op then some (bad St.powerState d.acceptState)
    else (paramReserved row.params r).map fun o => bad St.paramReserved o := by
  rw [Dev.refusal, if_neg (fun h => Nat.not_lt.2 h7 h.1), hh]

end

theorem not_isNone {o : Option Nat} (h : o.isSome = true) : ¬ o.isNone = true := by
  rw [← Option.not_isSome, h]
  simp

/-- The reply of a command does not change with the pair of its reply fixed at its fetch (12 R299). -/
theorem reply_accept (d : Dev) (r : Rhoic) (h : Nat) (p : Reply) : d.reply (d.accept r) h p = d.reply r h p := by
  have hpair : d.replyPair (d.accept r) = d.replyPair r := by
    unfold Dev.accept
    rcases hr : d.replyPair r with _ | q
    · simp only [Dev.replyPair] at hr ⊢
      split at hr
      · cases hr
      · exact hr
    · rfl
  unfold Dev.reply
  rw [hpair]
  rfl

/-- Settles O11: each check in turn, the earlier ones passed. -/
theorem commonRefusals : Obligations.CommonRefusals := by
  unfold Obligations.CommonRefusals
  refine ⟨fun d row objs r start => ⟨fun h => rhoic_of_off h start, fun ht => ⟨fun h h1 h2 => ?_, fun h7 => ⟨fun h1 => ?_, fun h1 h3 => ?_,
    fun hh hp => ?_, fun hh hp => ⟨fun hc => ?_, fun hc hseg => ⟨fun hs ha => ?_, fun o hs ho => ?_⟩⟩⟩⟩⟩, fun s r ht => ?_⟩
  · exact rhoic_of_refused ht (refusal_notReady h h1 h2) start
  · exact rhoic_of_refused ht (refusal_header h7 (headerReserved_byte1 h1)) start
  · exact rhoic_of_refused ht (refusal_header h7 (headerReserved_byte3 h1 h3)) start
  · refine rhoic_of_refused ht ((refusal_past_header h7 hh).trans (if_pos ?_)) start
    rw [hp]; rfl
  · refine rhoic_of_refused ht ((refusal_past_header h7 hh).trans ?_) start
    rw [if_neg (not_isNone hp), hc]; rfl
  · refine rhoic_of_refused ht ((refusal_past_header h7 hh).trans ?_) start
    rw [if_neg (not_isNone hp), hc, if_neg (by simp), if_neg hseg, if_pos ⟨hs, by rw [ha]; rfl⟩]
  · refine rhoic_of_refused ht ((refusal_past_header h7 hh).trans ?_) start
    have hawake : ¬ (((d.fetched r).2.acceptState = 2 ∨ (d.fetched r).2.acceptState = 3) ∧ (!acceptedAsleep row.op) = true) := by omega
    rw [if_neg (not_isNone hp), hc, if_neg (by simp), if_neg hseg, if_neg hawake, ho]; rfl
  · show s.next (effOpcodeUnknown r s.dev) = _
    simp only [effOpcodeUnknown, ht, Bool.not_true, Bool.false_eq_true, if_false]
    exact congrArg s.next (reply_accept _ _ _ _).symm

/-! What a fetch changes (12 R300, R304). -/

theorem rd_wakeOnFetch {d : Dev} {f : Fld} (h : d.rd Reg.pstate = 1 → fldKey f ≠ fldKey Reg.pstateBusy ∧ fldKey f ≠ fldKey Reg.pstateTarget) :
    d.wakeOnFetch.rd f = d.rd f := by
  unfold Dev.wakeOnFetch
  split
  · next hc => rw [rd_wr_of_ne _ _ _ _ (h hc.1).2, rd_wr_of_ne _ _ _ _ (h hc.1).1]
  · rfl

theorem wakeOnFetch_of_p1 {d : Dev} (h : d.rd Reg.pstate = 1) (hb : d.bit Reg.pstateBusy = false) :
    d.wakeOnFetch.rd Reg.pstateBusy = 1 ∧ d.wakeOnFetch.rd Reg.pstateTarget = 0 := by
  rw [Dev.wakeOnFetch, if_pos ⟨h, by rw [hb]; rfl⟩]
  exact ⟨(rd_wr_of_ne _ _ _ _ (by decide)).trans (rd_wr _ _ _), rd_wr _ _ _⟩

theorem wakeOnFetch_frame (d : Dev) : d.wakeOnFetch = { d with regs := d.wakeOnFetch.regs } := by
  unfold Dev.wakeOnFetch
  split <;> rfl

/-- A fetch changes registers and the place in the order of fetches, and nothing else. -/
theorem noteFetch_frame (d : Dev) (q : Nat) : (d.noteFetch q).2 =
    { d with regs := (d.noteFetch q).2.regs, io := { d.io with cmdSeq := d.io.cmdSeq + 1 } } := by
  unfold Dev.noteFetch
  dsimp only
  rw [wakeOnFetch_frame]
  rfl

theorem noteFetch_head (d : Dev) (q : Nat) : (d.noteFetch q).1.1 =
    if d.rd (Reg.sqHead q) = d.rd (Reg.sqTail q) then d.rd (Reg.sqHead q) else (d.rd (Reg.sqHead q) + 1) % d.sqEntries q := rfl

theorem noteFetch_rd (d : Dev) (q : Nat) (f : Fld) : (d.noteFetch q).2.rd f =
    ((d.wr (Reg.sqHead q) (d.noteFetch q).1.1).bump (Reg.cmdCount q)).wakeOnFetch.rd f := rfl

/-- Before the wake, a fetch has counted the command and moved the head. -/
theorem rd_counted {d : Dev} {q : Nat} {f : Fld} (h1 : fldKey f ≠ fldKey (Reg.sqHead q)) (h2 : fldKey f ≠ fldKey (Reg.cmdCount q)) :
    ((d.wr (Reg.sqHead q) (d.noteFetch q).1.1).bump (Reg.cmdCount q)).rd f = d.rd f := by
  rw [Dev.bump, rd_wr_of_ne _ _ _ _ h2, rd_wr_of_ne _ _ _ _ h1]

section
variable {d : Dev} {q : Nat} (hq : q < 16384)
include hq

theorem powerFields_ne_pair {f : Fld} (hf : f = Reg.pstate ∨ f = Reg.pstateBusy ∨ f = Reg.pstateTarget) :
    fldKey f ≠ fldKey (Reg.sqHead q) ∧ fldKey f ≠ fldKey (Reg.cmdCount q) ∧ fldKey f ≠ fldKey (Reg.sqTail q) := by
  rcases hf with rfl | rfl | rfl <;>
    simp only [fldKey, Reg.pstate, Reg.pstateBusy, Reg.pstateTarget, Reg.sqHead, Reg.cmdCount, Reg.sqTail] <;> omega

theorem pstate_counted : ((d.wr (Reg.sqHead q) (d.noteFetch q).1.1).bump (Reg.cmdCount q)).rd Reg.pstate = d.rd Reg.pstate :=
  have h := powerFields_ne_pair hq (.inl rfl)
  rd_counted h.1 h.2.1

theorem noteFetch_wakes (hp : d.rd Reg.pstate = 1) (hb : d.bit Reg.pstateBusy = false) :
    (d.noteFetch q).2.rd Reg.pstateBusy = 1 ∧ (d.noteFetch q).2.rd Reg.pstateTarget = 0 := by
  have hbusy := powerFields_ne_pair hq (.inr (.inl rfl))
  rw [noteFetch_rd, noteFetch_rd]
  refine wakeOnFetch_of_p1 ((pstate_counted hq).trans hp) ?_
  rw [Dev.bit, rd_counted hbusy.1 hbusy.2.1]
  exact hb

theorem noteFetch_rd_of_ne {f : Fld} (h1 : fldKey f ≠ fldKey (Reg.sqHead q)) (h2 : fldKey f ≠ fldKey (Reg.cmdCount q))
    (hp : d.rd Reg.pstate = 1 → fldKey f ≠ fldKey Reg.pstateBusy ∧ fldKey f ≠ fldKey Reg.pstateTarget) :
    (d.noteFetch q).2.rd f = d.rd f := by
  rw [noteFetch_rd, rd_wakeOnFetch (by rw [pstate_counted hq]; exact hp), rd_counted h1 h2]

theorem noteFetch_cmdCount : (d.noteFetch q).2.rd (Reg.cmdCount q) = (d.rd (Reg.cmdCount q) + 1) % 2 ^ 64 := by
  have hb := powerFields_ne_pair hq (.inr (.inl rfl))
  have ht := powerFields_ne_pair hq (.inr (.inr rfl))
  rw [noteFetch_rd, rd_wakeOnFetch fun _ => ⟨hb.2.1.symm, ht.2.1.symm⟩, rd_bump,
    rd_wr_of_ne _ _ _ _ (by simp only [fldKey, Reg.cmdCount, Reg.sqHead]; omega)]
  rfl

theorem noteFetch_sqHead : (d.noteFetch q).2.rd (Reg.sqHead q) = (d.noteFetch q).1.1 % 2 ^ 16 := by
  have hb := powerFields_ne_pair hq (.inr (.inl rfl))
  have ht := powerFields_ne_pair hq (.inr (.inr rfl))
  rw [noteFetch_rd, rd_wakeOnFetch fun _ => ⟨hb.1.symm, ht.1.symm⟩, Dev.bump,
    rd_wr_of_ne _ _ _ _ (by simp only [fldKey, Reg.cmdCount, Reg.sqHead]; omega), rd_wr]
  rfl

end

/-! The packet of pair 0 (12 R297, R303). -/

theorem placeZero_of_stored {d e : Dev} {pkt : BitVec 512} (hs : d.rd Reg.stage ≠ 0)
    (h : d.ringStore (d.rd (Reg.sqBase 0) + 64 * d.rd (Reg.sqTail 0)) (leBytes 64 pkt.toNat) = some e) :
    d.placeZero pkt = e.wr (Reg.sqTail 0) ((d.rd (Reg.sqTail 0) + 1) % d.sqEntries 0) := by
  simp only [Dev.placeZero, if_neg hs, h]

/-- The placement of pair 0's packet changes memory and that pair's tail, and nothing else. -/
theorem placeZero_frame (d : Dev) (pkt : BitVec 512) :
    ∃ m v, d.placeZero pkt = { d with mem := m } ∨ d.placeZero pkt = { d with mem := m }.wr (Reg.sqTail 0) v := by
  unfold Dev.placeZero
  dsimp only
  by_cases hs : d.rd Reg.stage = 0
  · exact ⟨d.mem, 0, .inl (if_pos hs)⟩
  · rw [if_neg hs]
    rcases h : d.ringStore (d.rd (Reg.sqBase 0) + 64 * d.rd (Reg.sqTail 0)) (leBytes 64 pkt.toNat) with _ | e
    · exact ⟨d.mem, 0, .inl rfl⟩
    · obtain ⟨m, rfl⟩ := ringStore_eq h
      exact ⟨m, _, .inr rfl⟩

/-- The device whose head a fetch moves: the packet of pair 0 stands in its ring. -/
def placed (d : Dev) (r : Rhoic) : Dev := if r.qp = 0 then d.placeZero r.pkt else d

theorem fetched_of_none {d : Dev} {r : Rhoic} (h : r.fetched = none) : d.fetched r = (placed d r).noteFetch r.qp := by
  unfold Dev.fetched
  rw [h]
  rfl

theorem placed_frame (d : Dev) (r : Rhoic) : placed d r = { d with regs := (placed d r).regs, mem := (placed d r).mem } := by
  unfold placed
  split
  · obtain ⟨m, v, h | h⟩ := placeZero_frame d r.pkt <;> rw [h] <;> rfl
  · rfl

theorem rd_placed {d : Dev} {r : Rhoic} {f : Fld} (h : r.qp = 0 → fldKey f ≠ fldKey (Reg.sqTail 0)) : (placed d r).rd f = d.rd f := by
  unfold placed
  split
  · next h0 =>
    obtain ⟨m, v, hp | hp⟩ := placeZero_frame d r.pkt <;> rw [hp]
    · rfl
    · rw [rd_wr_of_ne _ _ _ _ (h h0)]; rfl
  · rfl

/-- Settles O12: the packet of pair 0 is placed, then the fetch moves the head, counts and wakes. -/
theorem fetchCounts : Obligations.FetchCounts := by
  unfold Obligations.FetchCounts
  intro d r hf hq e q
  have hd : d.fetched r = (placed d r).noteFetch q := fetched_of_none hf
  have he : e = ((placed d r).noteFetch q).2 := congrArg Prod.snd hd
  have hpower {f : Fld} (h : f = Reg.pstate ∨ f = Reg.pstateBusy ∨ f = Reg.pstateTarget) : (placed d r).rd f = d.rd f :=
    rd_placed fun _ => (powerFields_ne_pair (q := 0) (by decide) h).2.2
  have hio : (placed d r).io = d.io := by rw [placed_frame]
  have hframe : e = { d with regs := e.regs, mem := (placed d r).mem, io := { d.io with cmdSeq := d.io.cmdSeq + 1 } } := by
    rw [he, noteFetch_frame, placed_frame]
  rw [hd]
  refine ⟨fun h0 hne => ?_, ?_, by rw [hframe], congrArg Io.cmdSeq hio, fun hp hb => ?_, fun f h1 h2 h3 h4 => ?_, fun e0 h0 hs hr => ?_,
    fun h0 => ?_, by rw [hframe], by rw [hframe], by rw [hframe], by rw [hframe], by rw [hframe], by rw [hframe], by rw [hframe],
    by rw [hframe], by rw [hframe]⟩
  · have hpl : placed d r = d := if_neg h0
    have hh : (d.noteFetch q).1.1 = (d.rd (Reg.sqHead q) + 1) % d.sqEntries q := (noteFetch_head d q).trans (if_neg hne)
    rw [he, hpl, noteFetch_sqHead hq, hh]
    exact ⟨rfl, rfl⟩
  · rw [he, noteFetch_cmdCount hq, rd_placed fun _ => by simp only [fldKey, Reg.cmdCount, Reg.sqTail]; omega]
  · rw [he]
    refine noteFetch_wakes hq ((hpower (.inl rfl)).trans hp) ?_
    rw [Dev.bit, hpower (.inr (.inl rfl))]
    exact hb
  · rw [he, noteFetch_rd_of_ne hq h1 h2 (by rw [hpower (.inl rfl)]; exact h4), rd_placed h3]
  · have hpl : placed d r = e0.wr (Reg.sqTail 0) ((d.rd (Reg.sqTail 0) + 1) % d.sqEntries 0) :=
      (if_pos h0).trans (placeZero_of_stored hs hr)
    have htail := noteFetch_rd_of_ne (d := placed d r) hq (f := Reg.sqTail 0)
      (by simp only [fldKey, Reg.sqTail, Reg.sqHead]; omega) (by simp only [fldKey, Reg.sqTail, Reg.cmdCount]; omega)
      (fun _ => ⟨by decide, by decide⟩)
    rw [← he, hpl, rd_wr] at htail
    exact ⟨htail, by rw [hframe, hpl]; rfl⟩
  · rw [hframe, show placed d r = d from if_neg h0]

end Sys2Proof.Proofs
end

section
/-! PROOFS. Modes and power states, and the commands of a weight distribution that a queue brings (12 R316, 16 R376-R382, 19 R424-R426). -/
namespace Sys2Proof.Proofs
open Sys2Proof.Machine Sys2Proof.Laws

/-! SET_MODE_SPLIT and SET_POWER_STATE. -/

section
variable {d : Dev} {r : Rhoic}

theorem modeSplit_of_missing (h : (bitOf (arg r 8 1) 5 && bitOf (arg r 9 1) 5 && !d.hostMode 5 && d.seedsMissing != 0) = true) :
    startSetModeSplit r d = .done (bad St.seedMissing (min d.seedsMissing 0xFFFF)) d := by
  simp only [startSetModeSplit, h, if_true]

theorem modeSplit_of_seeded (h : (bitOf (arg r 8 1) 5 && bitOf (arg r 9 1) 5 && !d.hostMode 5 && d.seedsMissing != 0) = false) :
    startSetModeSplit r d =
      if d.noBeats then .done { result := mergeBits (d.rd Reg.modeSplit) (arg r 8 1) (arg r 9 1) }
        (d.wr Reg.modeSplit (mergeBits (d.rd Reg.modeSplit) (arg r 8 1) (arg r 9 1))).dropSchedules
      else .run { op := 0x03, req := r }
        ({ d with serve := { d.serve with modePending := d.serve.modePending ++ [(arg r 8 1, arg r 9 1)] } }.wr Reg.modePending
          (d.rd Reg.modePending ||| arg r 8 1)) := by
  simp only [startSetModeSplit, h, Bool.false_eq_true, if_false]

theorem powerState_of_bad (h : 3 < arg r 8 1) : startSetPowerState r d = .done (bad St.paramRange 8) d := if_pos h

section
variable (ht : arg r 8 1 ≤ 3)
include ht

theorem powerState_of_segment (hs : d.rd Reg.segment ≠ 0) : startSetPowerState r d = .done (bad St.notPermitted 0) d := by
  simp only [startSetPowerState, if_neg (Nat.not_lt.2 ht), if_pos hs]

/-- A state that the head may take, with no transition under way, is taken. -/
theorem powerState_of_free (hs : d.rd Reg.segment = 0) (hb : d.bit Reg.pstateBusy = false) (hj : d.jobs 0x04 = [])
    (hc : ¬ (arg r 8 1 < 2 ∧ d.rd Reg.pstate = 3 ∧ d.coolantFit = false)) : startSetPowerState r d =
      if arg r 8 1 = d.rd Reg.pstate then .done { result := d.rd Reg.pstate } (d.orderPower (arg r 8 1))
      else if arg r 8 1 = 0 then .run { op := 0x04, req := r } (((d.orderPower (arg r 8 1)).wr Reg.pstateBusy 1).wr Reg.pstateTarget 0)
      else .run { op := 0x04, req := r } ((d.orderPower (arg r 8 1)).startTransition (arg r 8 1)) := by
  have hfit : ¬ (arg r 8 1 < 2 ∧ d.rd Reg.pstate = 3 ∧ (!d.coolantFit) = true) := by simpa using hc
  simp only [startSetPowerState, if_neg (Nat.not_lt.2 ht), hs, ne_eq, not_true_eq_false, if_false, hb, hj, List.isEmpty_nil, Bool.not_true,
    Bool.or_false, Bool.false_eq_true, if_neg hfit]

end
end

/-- Settles O13: the mode change by the seeds and the beats; the power state by the order of its checks. -/
theorem modesAndPowerStates : Obligations.ModesAndPowerStates := by
  unfold Obligations.ModesAndPowerStates
  intro s r d mask value seeds t
  refine ⟨fun h => ⟨fun hs => next_of_done h (modeSplit_of_missing hs), fun hs hb => ?_, fun hs hb => ?_⟩,
    fun h => ⟨fun ht => next_of_done h (powerState_of_bad ht), fun ht hg => next_of_done h (powerState_of_segment ht hg),
      fun ht hg hb hj hc => ⟨fun hp => ?_, fun h0 hp => ?_, fun h0 hp => ?_⟩⟩⟩
  · exact next_of_done h ((modeSplit_of_seeded hs).trans (if_pos hb))
  · exact next_of_run h ((modeSplit_of_seeded hs).trans (if_neg (Bool.eq_false_iff.1 hb)))
  · exact (next_of_done h ((powerState_of_free ht hg hb hj hc).trans (if_pos hp))).trans
      (by rw [← show t = (fetchedDev s r).rd Reg.pstate from hp])
  · refine next_of_run h ((powerState_of_free ht hg hb hj hc).trans ((if_neg ?_).trans ?_))
    · exact fun he => hp (he.symm.trans h0)
    · rw [if_pos h0, show arg r 8 1 = 0 from h0]
  · exact next_of_run h ((powerState_of_free ht hg hb hj hc).trans ((if_neg hp).trans (if_neg h0)))

/-! STAGE_WEIGHTS. -/

section
variable {keys : List (List Byte)} {d : Dev} {r : Rhoic}

theorem stageWeights_noImage (h : d.rd Reg.imageState = 0) : startStageWeights keys r d = .done (bad St.noImage) d := if_pos h

theorem stageWeights_stopped (h : d.rd Reg.imageState = 2) : startStageWeights keys r d = .done (bad St.imageStopped) d := by
  simp [startStageWeights, h]

section
variable (h : d.rd Reg.imageState = 1)
include h

theorem stageWeights_badSource (hs : 1 < arg r 12 1) : startStageWeights keys r d = .done (bad St.paramRange 12) d := by
  simp [startStageWeights, h, hs]

theorem stageWeights_badPeer (hs : arg r 12 1 = 0) (hm : d.hostMode 7 = false) (hp : 1024 ≤ arg r 14 2 ∨ arg r 14 2 = d.rd Reg.fabDevice) :
    startStageWeights keys r d = .done (bad St.paramRange 14) d := by
  simp [startStageWeights, h, hs, hm, hp]

/-- Past its checks, with none of its kind and no activation under way, it meets what is staged. -/
theorem stageWeights_of_source (hs : arg r 12 1 ≤ 1)
    (hp : arg r 12 1 = 0 → d.hostMode 7 = false ∧ arg r 14 2 < 1024 ∧ arg r 14 2 ≠ d.rd Reg.fabDevice)
    (h13 : d.jobs 0x13 = []) (h12 : d.jobs 0x12 = []) : startStageWeights keys r d =
      if d.wts.staged.isSome && d.rd Reg.stagedVersion == arg r 8 4 && d.rd Reg.swapState != 4 then .done {} d
      else if d.wts.staged.isSome && d.stageBusy then .done (bad St.busy 0) d
      else if arg r 12 1 = 1 then stageFromDram keys r d.clearStage
      else if d.peerGone (arg r 14 2) then .done (bad St.peerUnreachable (arg r 14 2)) (d.clearStage.setW1c Reg.errStage 76)
      else .run { op := 0x13, req := r } ((({ d.clearStage with wts := { d.clearStage.wts with arriving := some (arg r 14 2, 0) } }.wr
        Reg.stagedVersion (arg r 8 4)).wr Reg.stageState 1).sendChunk (arg r 14 2) (arg r 8 4) 0 []) := by
  have hmode : ¬ (arg r 12 1 = 0 ∧ d.hostMode 7 = true) := fun hc => by rw [(hp hc.1).1] at hc; exact Bool.false_ne_true hc.2
  have hpeer : ¬ (arg r 12 1 = 0 ∧ (1024 ≤ arg r 14 2 ∨ arg r 14 2 = d.rd Reg.fabDevice)) := by
    rintro ⟨h0, hge | heq⟩
    · exact Nat.not_le.2 (hp h0).2.1 hge
    · exact (hp h0).2.2 heq
  simp only [startStageWeights, h, show ¬ (1 = 2) by decide, show ¬ (1 = 0) by decide, if_false, if_neg (Nat.not_lt.2 hs), if_neg hmode, if_neg hpeer, h13, h12,
    List.isEmpty_nil, Bool.not_true, Bool.or_false, Bool.false_eq_true]

end
end

/-- Settles O16: the checks in order, then what is staged. -/
theorem stageWeightsStarts : Obligations.StageWeightsStarts := by
  unfold Obligations.StageWeightsStarts
  intro s r d v src peer h
  refine ⟨fun hi => next_of_done h (stageWeights_noImage hi), fun hi => next_of_done h (stageWeights_stopped hi),
    fun hi hs => next_of_done h (stageWeights_badSource hi hs), fun hi hs hm hp => next_of_done h (stageWeights_badPeer hi hs hm hp),
    fun hi hs hp h13 h12 => ⟨fun hst hv hsw => ?_, fun hst hsrc hg => ?_⟩⟩
  · refine next_of_done h ((stageWeights_of_source hi hs hp h13 h12).trans (if_pos ?_))
    show (d.wts.staged.isSome && d.rd Reg.stagedVersion == v && d.rd Reg.swapState != 4) = true
    simp [Option.isSome_iff_ne_none.2 hst, hv, hsw]
  · refine next_of_run h ((stageWeights_of_source hi hs hp h13 h12).trans ?_)
    rw [show (fetchedDev s r).wts.staged = none from hst]
    simp only [Option.isSome_none, Bool.false_and, Bool.false_eq_true, if_false]
    rw [if_neg (fun h1 => absurd (hsrc.symm.trans h1) (by decide)), if_neg (Bool.eq_false_iff.1 hg)]

end Sys2Proof.Proofs
end

section
/-! PROOFS. The fabric: what is received, the timers, the keys, and serving over it (15 R354-R369, 21 R461-R463). -/
namespace Sys2Proof.Proofs
open Sys2Proof.Machine Sys2Proof.Laws

/-! What sending over Narlas changes: associations, free values and what has left. -/

/-- `e` is `d` but for its associations, the free values taken and what has left at the pins. -/
def SentFrom (d e : Dev) : Prop :=
  ∃ a n o, e = { d with fab := { d.fab with assocs := a }, freeCtr := n, io := { d.io with outbox := o } }

namespace SentFrom

theorem refl (d : Dev) : SentFrom d d := ⟨d.fab.assocs, d.freeCtr, d.io.outbox, rfl⟩

theorem trans {d e f : Dev} (h : SentFrom d e) (k : SentFrom e f) : SentFrom d f := by
  obtain ⟨a, n, o, rfl⟩ := h
  obtain ⟨a', n', o', rfl⟩ := k
  exact ⟨a', n', o', rfl⟩

theorem setAssoc (d : Dev) (p : Nat) (a : Assoc) : SentFrom d (d.setAssoc p a) := ⟨_, d.freeCtr, d.io.outbox, rfl⟩

theorem emit (d : Dev) (o : Out) : SentFrom d (d.emit o) := ⟨d.fab.assocs, d.freeCtr, _, rfl⟩

theorem sendOn (d : Dev) (peer psn k : Nat) (b : NBody) : SentFrom d (d.sendOn peer psn k b) := (setAssoc _ _ _).trans (emit _ _)

theorem pumpPeer (peer : Nat) : ∀ (fuel : Nat) (d : Dev), SentFrom d (d.pumpPeer peer fuel)
  | 0, d => refl d
  | fuel + 1, d => by
    rw [Dev.pumpPeer]
    split
    · exact ((setAssoc _ _ _).trans (sendOn _ _ _ _ _)).trans (pumpPeer peer fuel _)
    · exact refl d

theorem pump (d : Dev) (peer : Nat) : SentFrom d (d.pump peer) := pumpPeer peer _ d

theorem openExchange (d : Dev) (peer : Nat) (t : Option Nat) : SentFrom d (d.openExchange peer t) := by
  unfold Dev.openExchange
  split
  · exact refl d
  · exact ⟨d.fab.assocs, _, _, rfl⟩

theorem sendMsg (d : Dev) (cls peer : Nat) (bs : List Byte) (tenant : Option Nat) : SentFrom d (d.sendMsg cls peer bs tenant) := by
  unfold Dev.sendMsg
  dsimp only
  refine SentFrom.trans ?_ (pump _ peer)
  split
  · exact (setAssoc _ _ _).trans (openExchange _ _ _)
  · exact setAssoc _ _ _

variable {d e : Dev} (h : SentFrom d e)
include h

theorem regs : e.regs = d.regs := by obtain ⟨_, _, _, rfl⟩ := h; rfl
theorem serve : e.serve = d.serve := by obtain ⟨_, _, _, rfl⟩ := h; rfl
theorem img : e.img = d.img := by obtain ⟨_, _, _, rfl⟩ := h; rfl
theorem wafer : e.wafer = d.wafer := by obtain ⟨_, _, _, rfl⟩ := h; rfl
theorem wts : e.wts = d.wts := by obtain ⟨_, _, _, rfl⟩ := h; rfl
theorem kept : e.fab.kept = d.fab.kept := by obtain ⟨_, _, _, rfl⟩ := h; rfl

end SentFrom

/-! Reception (15 R354-R358). -/

section
variable {d : Dev} {type : Nat} {stranger : Bool} {p : NPkt} {f : Dev → Dev}

/-- A packet arrives at a device whose port it reaches. -/
def Arrives (d : Dev) (p : NPkt) : Prop := 6 ≤ d.rd Reg.stage ∧ d.rd Reg.pstate < 4 ∧ d.bit (Reg.linkUp (p.port % 16)) = true

theorem receive_of_unreached (h : ¬ Arrives d p) : d.receive type stranger p f = d := by
  refine if_pos ?_
  unfold Arrives at h
  simp only [Bool.or_eq_true, decide_eq_true_eq, Bool.not_eq_true']
  refine Classical.byContradiction fun hc => ?_
  simp only [not_or, Nat.not_lt, Nat.not_le, Bool.not_eq_false] at hc
  exact h ⟨hc.1.1, hc.1.2, hc.2⟩

theorem receive_of_arrives (h : Arrives d p) :
    d.receive type stranger p f = if d.rxBad type stranger p then d.bump Reg.authDrop else f d := by
  obtain ⟨h6, h4, hl⟩ := h
  refine if_neg ?_
  simp [h6, h4, hl]

theorem receive_of_bad (h : Arrives d p) (hb : d.rxBad type stranger p = true) :
    d.receive type stranger p f = d.bump Reg.authDrop := (receive_of_arrives h).trans (if_pos hb)

theorem receive_of_good (h : Arrives d p) (hb : d.rxBad type stranger p = false) :
    d.receive type stranger p f = f d := (receive_of_arrives h).trans (if_neg (Bool.eq_false_iff.1 hb))

end

/-- Data that has been seen changes only what its association tracks of paths and congestion marks. -/
theorem takeData_of_seen {d : Dev} {p : NPkt} (keys : List (List Byte)) (he : bitsOf p.hdr.toNat 208 32 ≥ d.rd Reg.fabEpoch)
    (hs : (d.assoc (srcOf p)).seen (bitsOf p.hdr.toNat 64 32) = true) :
    ∃ a : Assoc, d.takeData keys p = d.setAssoc (srcOf p) a ∧ a.rxNext = (d.assoc (srcOf p)).rxNext ∧
      a.rxSeen = (d.assoc (srcOf p)).rxSeen ∧ a.sent = (d.assoc (srcOf p)).sent := by
  have hep : ¬ (bitsOf p.hdr.toNat 208 32 < d.rd Reg.fabEpoch ∧ ((AMap.find d.fab.table (srcOf p)).map (·.state)).getD 0 ≠ 2 ∧
      ((AMap.find d.fab.table (srcOf p)).map (·.state)).getD 0 ≠ 3) := fun h => Nat.not_lt.2 he h.1
  unfold Dev.takeData
  dsimp only
  rw [if_neg hep]
  by_cases ha : (bitsOf p.hdr.toNat 192 16 + 65536 - (({ d.assoc (srcOf p) with
      ceMark := (d.assoc (srcOf p)).ceMark || p.ce } : Assoc).path (bitsOf p.hdr.toNat 173 6)).nextSeq) % 65536 < 32768
  · rw [if_pos ha]
    exact ⟨_, if_pos hs, rfl, rfl, rfl⟩
  · rw [if_neg ha]
    exact ⟨_, if_pos hs, rfl, rfl, rfl⟩

theorem assoc_setAssoc (d : Dev) (p q : Nat) (a : Assoc) : (d.setAssoc p a).assoc q = if q = p then a else d.assoc q :=
  get_insert _ _ _ _ _

theorem assoc_of_sameButRecords {d e : Dev} (h : SameButRecords d e) (q : Nat) : e.assoc q = d.assoc q := by
  rw [Dev.assoc, h.fab, Dev.assoc]

/-- Settles O54: what arrives is dropped or taken; what is seen again leaves its association's data as it is. -/
theorem narlasReception : Obligations.NarlasReception := by
  unfold Obligations.NarlasReception
  intro s p d keys src live
  have hn {type : Nat} {stranger : Bool} {f : Dev → Dev} (h : ¬ live) : s.next (d.receive type stranger p f) = s.next d :=
    congrArg s.next (receive_of_unreached h)
  have hb {type : Nat} {stranger : Bool} {f : Dev → Dev} (h : live) (hx : d.rxBad type stranger p = true) :
      s.next (d.receive type stranger p f) = s.next (d.bump Reg.authDrop) := congrArg s.next (receive_of_bad h hx)
  have hg {type : Nat} {stranger : Bool} {f : Dev → Dev} (h : live) (hx : d.rxBad type stranger p = false) :
      s.next (d.receive type stranger p f) = s.next (f d) := congrArg s.next (receive_of_good h hx)
  refine ⟨fun h => ⟨hn h, hn h, hn h, hn h, fun _ => hn h⟩, hb, hb, hb, hb, fun _ => hb, hg, fun h hx he hs => ?_, hg, hg, hg, fun _ => hg⟩
  refine ⟨_, hg h hx, ?_⟩
  obtain ⟨a, ht, hnext, hseen, hsent⟩ := takeData_of_seen keys he hs
  dsimp only
  rw [show d.takeData keys p = _ from ht]
  have hc := SameButRecords.closeCycle (d.setAssoc (srcOf p) a)
  have ha (q : Nat) : (d.setAssoc (srcOf p) a).closeCycle.assoc q = if q = srcOf p then a else d.assoc q :=
    (assoc_of_sameButRecords hc q).trans (assoc_setAssoc d _ q a)
  rw [ha, if_pos rfl]
  exact ⟨hnext, hseen, hsent, fun q hq => (ha q).trans (if_neg hq), hc.serve, fun f hf => hc.regs f hf⟩

/-! Timers (15 R356, R357, R361, R369). -/

theorem coordinatorUnreachable_of_gone {d : Dev} {c o : Nat} (hc : d.coord = some c) (hne : c ≠ d.me) (hg : d.peerGone c = true)
    (hm : d.rd Reg.memberState = 2) (ha : d.acting = some o) (ho : o ≠ d.me) :
    effCoordinatorUnreachable d = d.emit (.ctl o (.unreachable c d.me)) := by
  simp [effCoordinatorUnreachable, hc, hne, hg, hm, ha, ho]

theorem coordinatorUnreachable_of_self {d : Dev} (h : d.coord = none ∨ d.coord = some d.me) : effCoordinatorUnreachable d = d := by
  rcases h with h | h <;> simp [effCoordinatorUnreachable, h]

theorem declareLost_of_other {d : Dev} {peer : Nat} (h : d.rd Reg.memberState ≠ 2 ∨ d.acting ≠ some d.me ∨ d.peerGone peer = false) :
    d.declareLost peer = d := by
  refine if_pos ?_
  rcases h with h | h | h <;> simp [h]

theorem declareLost_of_acting {d : Dev} {peer : Nat} (hm : d.rd Reg.memberState = 2) (ha : d.acting = some d.me) (hg : d.peerGone peer = true)
    (h0 : (entryOf d.latestTable peer).state ≠ 0) (h4 : (entryOf d.latestTable peer).state ≠ 4) (hj : d.majority = true) :
    d.declareLost peer = (d.raise { code := Rc.peerLost, detail := peer, source := 1 }).proposeEntry
      { entryOf d.latestTable peer with state := 4 } := by
  refine if_neg ?_
  simp [hm, ha, hg, h0, h4, hj]

theorem ackTimer_of_path {d : Dev} {peer j : Nat} (h : (d.assoc peer).unacked ≠ 0)
    (hj : (List.range 64).find? (fun k => d.pathUp (d.assoc peer) k) = some j) : effAckTimer peer d = d.sendAck peer j := by
  simp only [effAckTimer, if_neg h, hj]

section
variable {d : Dev} {peer path : Nat}

theorem pathRetransmit_of_idle (h : ((d.assoc peer).path (path % 64)).up = false ∨
    ((d.assoc peer).sent.any fun y => y.path == path % 64) = false) : effPathRetransmit peer path d = d := by
  refine if_pos ?_
  rcases h with h | h <;> simp only [h, Bool.not_false, Bool.true_or, Bool.or_true]

theorem pathRetransmit_of_carrying (h : ((d.assoc peer).path (path % 64)).up = true)
    (hs : ((d.assoc peer).sent.any fun y => y.path == path % 64) = true) : effPathRetransmit peer path d =
      if ((d.assoc peer).path (path % 64)).expiries < 2 then
        (d.setAssoc peer ((d.assoc peer).setPath (path % 64)
          { (d.assoc peer).path (path % 64) with expiries := ((d.assoc peer).path (path % 64)).expiries + 1 })).retransmitPath peer (path % 64)
      else d.pathDown peer (path % 64) := by
  refine (if_neg ?_).trans (ite_congr (propext (by omega)) (fun _ => rfl) fun _ => rfl)
  simp only [h, hs, Bool.not_true, Bool.or_false, Bool.false_eq_true, not_false_eq_true]

theorem probeReply_of_off (h : ((d.assoc peer).path (path % 64)).up = true ∨ ((d.assoc peer).path (path % 64)).probed = false ∨
    d.portLive (planeOf (path % 64)) = false) : effProbeReply peer path d = d := by
  refine if_pos ?_
  rcases h with h | h | h <;> simp only [h, Bool.not_false, Bool.true_or, Bool.or_true]

theorem probeReply_of_down (hu : ((d.assoc peer).path (path % 64)).up = false) (hp : ((d.assoc peer).path (path % 64)).probed = true)
    (hl : d.portLive (planeOf (path % 64)) = true) : effProbeReply peer path d =
      if ((d.assoc peer).path (path % 64)).replies < 2 then
        d.setAssoc peer ((d.assoc peer).setPath (path % 64)
          { (d.assoc peer).path (path % 64) with replies := ((d.assoc peer).path (path % 64)).replies + 1, probed := false })
      else ((d.setAssoc peer ((d.assoc peer).setPath (path % 64)
        { (d.assoc peer).path (path % 64) with up := true, replies := 0, probed := false, expiries := 0 })).pump peer).showPaths peer := by
  refine (if_neg ?_).trans (ite_congr (propext (by omega)) (fun _ => rfl) fun _ => rfl)
  simp only [hu, hp, hl, Bool.not_true, Bool.or_false, Bool.false_eq_true, not_false_eq_true]

end

/-- Settles O55: each timer by what it finds. -/
theorem narlasTimers : Obligations.NarlasTimers := by
  unfold Obligations.NarlasTimers
  intro s peer path d a k x
  refine ⟨fun h => congrArg s.next (if_pos h), fun j h hj => congrArg s.next (ackTimer_of_path h hj),
    fun h => congrArg s.next (pathRetransmit_of_idle h),
    fun hu hs he => congrArg s.next ((pathRetransmit_of_carrying hu hs).trans (if_pos he)),
    fun hu hs he => congrArg s.next ((pathRetransmit_of_carrying hu hs).trans (if_neg (Nat.not_lt.2 he))),
    fun h => congrArg s.next (probeReply_of_off h),
    fun hu hp hl hr => congrArg s.next ((probeReply_of_down hu hp hl).trans (if_pos hr)),
    fun hu hp hl hr => congrArg s.next ((probeReply_of_down hu hp hl).trans (if_neg (Nat.not_lt.2 hr))),
    rfl, fun h => ?_, fun hm ha hg h0 h4 hj => ?_, fun h => ?_, fun c o hc hne hg hm ha ho => ?_⟩
  · exact congrArg (fun e : Dev => s.next e.applyIfIdle) (declareLost_of_other h)
  · exact congrArg (fun e : Dev => s.next e.applyIfIdle) (declareLost_of_acting hm ha hg h0 h4 hj)
  · exact congrArg (fun e : Dev => s.next e.applyIfIdle) (coordinatorUnreachable_of_self h)
  · exact congrArg (fun e : Dev => s.next e.applyIfIdle) (coordinatorUnreachable_of_gone hc hne hg hm ha ho)

/-! Keys (21 R461-R463). -/

section
variable {d : Dev} {m : AssocMsg}

theorem keyExchange_of_noPart (h : d.rd Reg.stage < 6 ∨ m.peer = d.me ∨ m.step = 0 ∨ 3 ≤ m.step) : effAssocKeyExchange m d = d := by
  refine if_pos ?_
  simpa [or_assoc] using h

/-- A session key's exchange runs inside a keyed association only. -/
theorem keyExchange_of_unkeyed {t : Nat} (ht : m.tenant = some t) (hk : (d.assoc m.peer).keyed = false) : effAssocKeyExchange m d = d := by
  refine ite_eq_left_iff.2 fun _ => ?_
  rw [ht]
  exact if_pos (by rw [hk]; rfl)

section
variable (h6 : 6 ≤ d.rd Reg.stage) (hp : m.peer ≠ d.me) (hs : m.step = 1 ∨ m.step = 2)
include h6 hp hs

theorem keyExchange_of_assoc (ht : m.tenant = none) : effAssocKeyExchange m d =
    if (m.step = 1) ≠ (m.peer < d.me) then d
    else if !m.ok then d.assocFails m.peer
    else if m.step = 1 then (d.sendExchange m.peer 2 none).assocKeyed m.peer
    else d.assocKeyed m.peer := by
  refine (if_neg ?_).trans (by rw [ht])
  rcases hs with hs | hs <;> simp [h6, hp, hs]

theorem keyExchange_of_tenant {t : Nat} (ht : m.tenant = some t) : effAssocKeyExchange m d =
    if !(d.assoc m.peer).keyed then d
    else if !m.ok then d.assocFails m.peer
    else if m.step = 1 then (d.sendExchange m.peer 2 (some t)).tenantKeyed m.peer t
    else d.tenantKeyed m.peer t := by
  refine (if_neg ?_).trans (by rw [ht])
  rcases hs with hs | hs <;> simp [h6, hp, hs]

end
end

/-- Settles O56: the exchange by its tenant, then by its step and its outcome. -/
theorem associationKeys : Obligations.AssociationKeys := by
  unfold Obligations.AssociationKeys
  intro s m peer d
  refine ⟨fun h => congrArg s.next (keyExchange_of_noPart h), fun h6 hp ht => ⟨fun hok hs => ?_, fun hok hs hlt => ?_, fun hok hs hlt => ?_,
    fun hs => ?_⟩, fun t h6 hp ht => ⟨fun hk => ?_, fun hk hok hs => ?_, fun hk hok hs => ?_⟩, fun h => ?_, fun h => ?_, fun h => ?_, fun h => ?_⟩
  · have h12 : m.step = 1 ∨ m.step = 2 := hs.imp And.left And.left
    have hdir : ¬ ((m.step = 1) ≠ (m.peer < s.dev.me)) := by
      rw [ne_eq, Classical.not_not, eq_iff_iff]
      rcases hs with ⟨h1, hlt⟩ | ⟨h2, hlt⟩
      · exact ⟨fun _ => hlt, fun _ => h1⟩
      · exact ⟨fun h1 => absurd (h1.symm.trans h2) (by decide), fun hl => absurd hl (Nat.lt_asymm hlt)⟩
    refine congrArg s.next ((keyExchange_of_assoc h6 hp h12 ht).trans ((if_neg hdir).trans (if_pos ?_)))
    rw [hok]; rfl
  · have hdir : ¬ ((m.step = 1) ≠ (m.peer < s.dev.me)) := by
      rw [ne_eq, Classical.not_not, eq_iff_iff]
      exact ⟨fun _ => hlt, fun _ => hs⟩
    refine congrArg s.next ((keyExchange_of_assoc h6 hp (.inl hs) ht).trans ((if_neg hdir).trans ((if_neg ?_).trans (if_pos hs))))
    rw [hok]; decide
  · have hdir : ¬ ((m.step = 1) ≠ (m.peer < s.dev.me)) := by
      rw [ne_eq, Classical.not_not, eq_iff_iff]
      exact ⟨fun h1 => absurd (h1.symm.trans hs) (by decide), fun hl => absurd hl (Nat.lt_asymm hlt)⟩
    refine congrArg s.next ((keyExchange_of_assoc h6 hp (.inr hs) ht).trans ((if_neg hdir).trans ((if_neg ?_).trans (if_neg ?_))))
    · rw [hok]; decide
    · rw [hs]; decide
  · refine congrArg s.next ((keyExchange_of_assoc h6 hp (hs.imp And.left And.left) ht).trans (if_pos ?_))
    intro he
    rw [eq_iff_iff] at he
    rcases hs with ⟨h1, hlt⟩ | ⟨h2, hlt⟩
    · exact Nat.lt_asymm hlt (he.1 h1)
    · exact absurd (h2.symm.trans (he.2 hlt)) (by decide)
  · exact congrArg s.next (keyExchange_of_unkeyed ht hk)
  · refine congrArg s.next ((keyExchange_of_tenant h6 hp (.inr hs) ht).trans ((if_neg ?_).trans ((if_neg ?_).trans (if_neg ?_))))
    · rw [hk]; decide
    · rw [hok]; decide
    · rw [hs]; decide
  · refine congrArg s.next ((keyExchange_of_tenant h6 hp (.inl hs) ht).trans ((if_neg ?_).trans ((if_neg ?_).trans (if_pos hs))))
    · rw [hk]; decide
    · rw [hok]; decide
  · exact congrArg s.next (if_neg (Bool.eq_false_iff.1 h))
  · refine congrArg s.next ((if_pos h).trans (ite_congr (propext ?_) (fun _ => rfl) fun _ => rfl))
    exact ⟨And.right, fun hle => ⟨rfl, hle⟩⟩
  · exact congrArg s.next (if_neg (Bool.eq_false_iff.1 h))
  · exact congrArg s.next (if_pos h)

/-! Serving over the fabric (15 R364, R366, R368). -/

/-- A record that follows the one kept takes its place, its tokens behind the history before it. -/
theorem journalRecord_of_next {d : Dev} {j : JRec} (h : ∀ o, AMap.find d.fab.kept (j.src * 32768 + j.stream) = some o → j.num = o.1.num + 1) :
    ∃ hist redo, SentFrom { d with fab := { d.fab with
      kept := AMap.insert (j.src * 32768 + j.stream) (j, hist ++ j.toks, redo) d.fab.kept } } (effJournalRecord j d) := by
  have hnum : ¬ ((AMap.find d.fab.kept (j.src * 32768 + j.stream)).isSome ∧
      j.num ≠ ((AMap.find d.fab.kept (j.src * 32768 + j.stream)).map (·.1.num)).getD 0 + 1) := by
    rintro ⟨hs, hne⟩
    obtain ⟨o, ho⟩ := Option.isSome_iff_exists.1 hs
    rw [ho] at hne
    exact hne (h o ho)
  unfold effJournalRecord
  dsimp only
  rw [if_neg hnum]
  exact ⟨_, _, SentFrom.sendMsg _ _ _ _ _⟩

theorem journalRecord_of_gap {d : Dev} {j : JRec} {o : JRec × List Nat × Nat} (h : AMap.find d.fab.kept (j.src * 32768 + j.stream) = some o)
    (hn : j.num ≠ o.1.num + 1) : effJournalRecord j d = d := by
  refine if_pos ?_
  rw [h]
  exact ⟨rfl, hn⟩

section
variable {d : Dev} {src i num target index : Nat} {x : Stream}

theorem journalAcknowledge_of_other (h : d.stream? i = some x)
    (hx : x.journalQ = [] ∨ x.partner ≠ some src ∨ x.journalNum ≠ num ∨ x.journalSent = false) : effJournalAcknowledge src i num d = d := by
  unfold effJournalAcknowledge
  rw [h]
  dsimp only
  rcases hq : x.journalQ with _ | ⟨⟨r, gs⟩, rest⟩
  · rfl
  · exact if_pos (hx.resolve_left (by rw [hq]; exact List.cons_ne_nil _ _))

theorem journalAcknowledge_of_last {r : List Nat} {gs : List (List Rec)} (h : d.stream? i = some x) (hq : x.journalQ = [(r, gs)])
    (hp : x.partner = some src) (hn : x.journalNum = num) (hs : x.journalSent = true) : effJournalAcknowledge src i num d =
      gs.foldl (fun (d : Dev) g => d.postGroup x.queue g) (d.setStream i { x with journalQ := [], journalSent := false }) := by
  simp [effJournalAcknowledge, h, hq, hp, hn, hs]

theorem streamMigrated_of_other (h : d.stream? i = some x) (hx : x.migrating ≠ some target ∨ x.migSent = false) :
    effStreamMigrated i target index d = d := by
  rcases hx with hx | hx <;> simp [effStreamMigrated, h, hx]

theorem streamMigrated_of_taken (h : d.stream? i = some x) (hm : x.migrating = some target) (hs : x.migSent = true)
    (hi : index < Config.streamCount - 1) : effStreamMigrated i target index d = (d.endStream i 6 (target + 1024 * index)).raise
      { code := Rc.streamMigrated, detail := target, source := 1, stream := some i } := by
  simp [effStreamMigrated, h, hm, hs, Nat.not_le.2 hi]

end

/-- Settles O57: each message by what the stream or the record that it names holds. -/
theorem servingOverFabric : Obligations.ServingOverFabric := by
  unfold Obligations.ServingOverFabric
  intro s d
  refine ⟨fun h => ⟨fun h0 => congrArg s.next (if_pos h0), fun h0 => congrArg s.next (if_neg h0)⟩,
    fun j o ho hn => congrArg s.next (journalRecord_of_gap ho hn), fun j hj => ?_, fun src i num hi => ?_,
    fun src i num x hi hx => congrArg s.next (journalAcknowledge_of_other hi hx),
    fun src i num x r gs hi hq hp hn hs => congrArg s.next (journalAcknowledge_of_last hi hq hp hn hs), fun i target index hi => ?_,
    fun i target index x hi hx => congrArg s.next (streamMigrated_of_other hi hx),
    fun i target index x hi hm hs hlt => congrArg s.next (streamMigrated_of_taken hi hm hs hlt)⟩
  · obtain ⟨hist, redo, hsent⟩ := journalRecord_of_next hj
    have hc := SameButRecords.closeCycle (effJournalRecord j d)
    have hk : (effJournalRecord j d).closeCycle.fab.kept =
        AMap.insert (j.src * 32768 + j.stream) (j, hist ++ j.toks, redo) d.fab.kept := by rw [hc.fab, hsent.kept]
    refine ⟨_, rfl, ⟨hist, redo, ?_⟩, fun key hkey => ?_, hc.serve.trans hsent.serve⟩
    · exact (congrArg (AMap.find · _) hk).trans ((find_insert _ _ _ _).trans (if_pos rfl))
    · exact (congrArg (AMap.find · _) hk).trans ((find_insert _ _ _ _).trans (if_neg hkey))
  · refine congrArg s.next ?_
    unfold effJournalAcknowledge
    rw [show s.dev.stream? i = none from hi]
  · refine congrArg s.next ?_
    unfold effStreamMigrated
    rw [show s.dev.stream? i = none from hi]

end Sys2Proof.Proofs
end

section
/-! PROOFS. Beats, pins and ports (06 R143, 11 R294-R296, 13 R331, 15 R350-R359, 18 R408, 20 R433). -/
namespace Sys2Proof.Proofs
open Sys2Proof.Machine Sys2Proof.Laws

/-! Beats. -/

section
variable {d : Dev}

theorem issueResumed_of_standing {us : Nat} (h : d.held 4 = false ∨ (d.wafer.sites.all fun e => d.tileDone e.2) = false) :
    effIssueResumed us d = d := by
  refine if_pos ?_
  rcases h with h | h <;> simp only [h, Bool.not_false, Bool.true_or, Bool.or_true]

theorem issueResumed_of_done {us : Nat} (hh : d.held 4 = true) (ht : (d.wafer.sites.all fun e => d.tileDone e.2) = true) (hs : d.img.stop = none) :
    effIssueResumed us d = (((((d.release 4).wr Reg.lastInterruptUs (min us 0xFFFF)).wr Reg.maxInterruptUs
      (max (min us 0xFFFF) (d.rd Reg.maxInterruptUs))).raise { code := Rc.issueResumed, detail := min us 0xFFFF, source := 1 }).boundary
        (d.serve.beatStart + us * 25 * d.rd Reg.freqNow)) := by
  refine (if_neg (by rw [hh, ht]; decide)).trans ((if_neg ?_).trans ?_)
  · show ¬ d.img.stop.isSome = true
    rw [hs]; decide
  · refine congrArg (Dev.boundary _) ?_
    show d.serve.beatStart + us * 25 * (((d.release 4).wr Reg.lastInterruptUs _).wr Reg.maxInterruptUs _).rd Reg.freqNow = _
    rw [rd_wr_of_ne _ _ _ _ (by decide), rd_wr_of_ne _ _ _ _ (by decide)]
    rfl

theorem freqChanged_of_none {failed : List Nat} (h : d.serve.freqTo = none) : effFreqChanged failed d = d := by
  simp only [effFreqChanged, h]

theorem freqChanged_of_rise {step : Nat} (h : d.serve.freqTo = some step) (hi : d.imgActive = false) (hle : d.rd Reg.freqNow ≤ step) :
    effFreqChanged [] d = ((({ d with serve := { d.serve with freqTo := none } }.wr Reg.freqNow step).release 8).raise
      { code := Rc.freqChanged, detail := step, source := 75 }) := by
  simp only [effFreqChanged, h, if_neg (Nat.not_lt.2 hle), List.foldl_nil]
  refine if_neg ?_
  show ¬ ((d.wr Reg.freqNow step).rd Reg.imageState == 1) = true
  rw [rd_wr_of_ne _ _ _ _ (by decide)]
  exact Bool.eq_false_iff.1 hi

end

/-- Settles O35: each command by whether its time has come. -/
theorem beatCommands : Obligations.BeatCommands := by
  unfold Obligations.BeatCommands
  refine ⟨fun s cycle => ⟨fun h => congrArg s.next (if_neg (Bool.eq_false_iff.1 h)), fun h => congrArg s.next (if_pos h)⟩,
    fun s us => ⟨fun h => congrArg s.next (issueResumed_of_standing h), fun hh ht hs => congrArg s.next (issueResumed_of_done hh ht hs)⟩,
    fun s failed => ⟨fun h => congrArg s.next (freqChanged_of_none h), fun step h hf hi hle => ?_⟩⟩
  subst hf
  exact congrArg s.next (freqChanged_of_rise h hi hle)

/-! Pins. -/

/-- A one-bit field that is set reads 1, whatever it held. -/
theorem rd_setW1c_bit (d : Dev) {f : Fld} {source : Nat} {shared : Bool} (hw : f.width = 1) : (d.setW1c f source shared).rd f = 1 := by
  rw [rd_setW1c, hw]
  split
  · next h =>
    rw [bitOf_eq_testBit, Nat.testBit_zero] at h
    simpa using h
  · next h =>
    rw [bitOf_eq_testBit, Nat.testBit_zero] at h
    simp only [decide_eq_true_eq] at h
    omega

/-- A register field that the latch of an edge on an always-on input leaves as it is (13 R331). -/
def LatchLeaves (b : Nat) (f : Fld) : Prop :=
  fldKey f ≠ fldKey Reg.aonLatch ∧ fldKey f ≠ fldKey Reg.aonCount ∧ fldKey f ≠ fldKey (Reg.aonTick b) ∧
    fldKey f ≠ fldKey Reg.pstateBusy ∧ fldKey f ≠ fldKey Reg.pstateTarget

theorem rd_edgeLatched (d : Dev) {b : Nat} (shared : Bool) {f : Fld} (h : LatchLeaves b f) : (edgeLatched d b shared).rd f = d.rd f := by
  obtain ⟨h1, h2, h3, -, -⟩ := h
  unfold edgeLatched
  dsimp only
  split
  · rw [rd_wr_of_ne _ _ _ _ h2, rd_setW1c_of_ne _ _ _ _ _ _ h1]
  · rw [rd_wr_of_ne _ _ _ _ h3, rd_wr_of_ne _ _ _ _ h2, rd_setW1c_of_ne _ _ _ _ _ _ h1]

theorem rd_latchEdge (d : Dev) {b : Nat} (shared : Bool) {f : Fld} (h : LatchLeaves b f) : (d.latchEdge b shared).rd f = d.rd f := by
  by_cases hoff : 6 ≤ b ∨ d.pwr.aonOn = false
  · rw [latchEdge_of_off hoff]
  · rw [not_or, Nat.not_le, Bool.not_eq_false] at hoff
    rw [latchEdge_of_on hoff.1 hoff.2]
    split
    · rw [rd_requestWake_of_ne _ h.2.2.2.1 h.2.2.2.2, rd_edgeLatched d shared h]
    · exact rd_edgeLatched d shared h

/-- The latch of an edge changes registers and raises occurrences, and nothing else. -/
theorem latchEdge_frame (d : Dev) (b : Nat) (shared : Bool) :
    d.latchEdge b shared = { d with regs := (d.latchEdge b shared).regs, occ := (d.latchEdge b shared).occ } := by
  have hframe (e : Dev) : e.requestWake = { e with regs := e.requestWake.regs } := by
    unfold Dev.requestWake; split <;> rfl
  have hset (e : Dev) (sh : Bool) : e.setW1c Reg.aonLatch (latchSource b) sh b =
      { e with regs := (e.setW1c Reg.aonLatch (latchSource b) sh b).regs, occ := (e.setW1c Reg.aonLatch (latchSource b) sh b).occ } := by
    unfold Dev.setW1c; dsimp only; split <;> rfl
  have hedge : edgeLatched d b shared = { d with regs := (edgeLatched d b shared).regs, occ := (edgeLatched d b shared).occ } := by
    unfold edgeLatched; dsimp only; rw [hset]; split <;> rfl
  by_cases hoff : 6 ≤ b ∨ d.pwr.aonOn = false
  · rw [latchEdge_of_off hoff]
  · rw [not_or, Nat.not_le, Bool.not_eq_false] at hoff
    rw [latchEdge_of_on hoff.1 hoff.2]
    split
    · rw [hframe, hedge]
    · exact hedge

theorem latchEdge_sets {d : Dev} {b : Nat} (shared : Bool) (hb : b < 6) (hon : d.pwr.aonOn = true) :
    bitOf ((d.latchEdge b shared).rd Reg.aonLatch) b = true := by
  rw [latchEdge_of_on hb hon]
  split
  · rw [rd_requestWake_of_ne _ (by decide) (by decide)]
    exact edgeLatched_latch d shared hb
  · exact edgeLatched_latch d shared hb

/-- The fields of a pulse's timing lie in words of their own. -/
theorem latchLeaves_of_off {b : Nat} {f : Fld} (hb : b < 6) (hlo : f.lo < 64) (hf : 0x10070 ≤ f.off) : LatchLeaves b f := by
  unfold LatchLeaves
  simp only [fldKey, Reg.aonLatch, Reg.aonCount, Reg.aonTick, Reg.pstateBusy, Reg.pstateTarget]
  omega

theorem latchEdge_serve (d : Dev) (b : Nat) (shared : Bool) : (d.latchEdge b shared).serve = d.serve := by rw [latchEdge_frame]
theorem latchEdge_img (d : Dev) (b : Nat) (shared : Bool) : (d.latchEdge b shared).img = d.img := by rw [latchEdge_frame]
theorem latchEdge_pwr (d : Dev) (b : Nat) (shared : Bool) : (d.latchEdge b shared).pwr = d.pwr := by rw [latchEdge_frame]

/-- The beat's length and its next boundary do not change with the latch of an edge. -/
theorem latchEdge_timing (d : Dev) {b : Nat} (shared : Bool) (hb : b < 6) :
    (d.latchEdge b shared).period = d.period ∧ (d.latchEdge b shared).nextBoundary = d.nextBoundary := by
  have hp : (d.latchEdge b shared).period = d.period := by
    simp only [Dev.period, Dev.image, latchEdge_img, latchEdge_serve,
      rd_latchEdge d shared (f := Reg.syncStretch) (latchLeaves_of_off hb (by decide) (by decide))]
  exact ⟨hp, by simp only [Dev.nextBoundary, hp, latchEdge_serve]⟩

theorem serve_ite {c : Prop} [Decidable c] {d e : Dev} {x : Serve} (h : d.serve = x) (k : e.serve = x) : (if c then d else e).serve = x := by
  split
  · exact h
  · exact k

/-- What a device takes of a pulse's phase: the boundary's delay, by at most a sixteenth of the beat, and the count of good pulses. -/
theorem takePhase_serve (d : Dev) (cycle : Nat) : ∃ n, (d.takePhase cycle).serve = { d.serve with
    beatDelay := d.serve.beatDelay + min (((cycle : Int) + (d.rd Reg.syncOffset : Nat) - (d.nextBoundary : Nat)) % (d.period : Int)).toNat
      (rounded 7 d.period 4).toNat,
    syncGood := n } := by
  exact ⟨_, serve_ite rfl (serve_ite rfl rfl)⟩

theorem stepSyncPulse_of_free {d : Dev} (cycle : Nat) (h : d.serve.syncMode ≠ 2) : effStepSyncPulse cycle d = d.latchEdge 0 false := by
  have hm : (d.serve.syncMode == 2) = false := by simpa using h
  simp [effStepSyncPulse, hm]

theorem stepSyncPulse_of_first {d : Dev} (cycle : Nat) (hm : d.serve.syncMode = 2) (hi : d.imgActive = true) (hb : d.serve.between = false)
    (hp : d.rd Reg.pstate = 0) (hl : d.serve.syncLast = none) : effStepSyncPulse cycle d =
      { (d.latchEdge 0 false).takePhase cycle with
        serve := { ((d.latchEdge 0 false).takePhase cycle).serve with syncLast := some cycle } } := by
  simp [effStepSyncPulse, hm, hi, hb, hp, hl]

theorem ppsIn_of_latched {d : Dev} {ns : Nat} (h : 5 ≤ ns) : effPpsIn ns d =
    if d.rd Reg.timeSrc = 1 ∧ 100 ≤ ns ∧ ns ≤ 900000000 ∧ d.pwr.aonOn ∧ 7 ≤ d.rd Reg.stage then
      (d.latchEdge 1 false).wr Reg.deviceTime ((d.rd Reg.deviceTime + nsPerSecond / 2) / nsPerSecond * nsPerSecond)
    else d.latchEdge 1 false := by
  have hsrc : (d.latchEdge 1 false).rd Reg.timeSrc = d.rd Reg.timeSrc := rd_latchEdge d _ (latchLeaves_of_off (by decide) (by decide) (by decide))
  have htime : (d.latchEdge 1 false).rd Reg.deviceTime = d.rd Reg.deviceTime :=
    rd_latchEdge d _ (latchLeaves_of_off (by decide) (by decide) (by decide))
  have hstage : (d.latchEdge 1 false).rd Reg.stage = d.rd Reg.stage :=
    rd_latchEdge d _ ⟨by decide, by decide, by decide, by decide, by decide⟩
  simp only [effPpsIn, if_neg (Nat.not_lt.2 h), hsrc, htime, hstage, latchEdge_pwr]

/-! A PTP message: the offset, the time where the fabric gives it, the lock. -/

section
variable {d : Dev} {x : PtpSample}

theorem ptpMessage_of_unreached (h : 16 ≤ x.port ∨ d.portLive x.port = false) : effPtpMessage x d = d := by
  refine if_pos ?_
  rcases h with h | h <;> simp [h]

/-- What a PTP message gives before its lock is judged. -/
def ptpTaken (x : PtpSample) (d : Dev) : Dev :=
  if d.rd Reg.timeSrc = 0 then (d.wr Reg.ptpOffset (BitVec.ofInt 32 x.offset).toNat).wr Reg.deviceTime (x.time % 2 ^ 64)
  else d.wr Reg.ptpOffset (BitVec.ofInt 32 x.offset).toNat

theorem rd_ptpTaken {f : Fld} (h1 : fldKey f ≠ fldKey Reg.ptpOffset) (h2 : fldKey f ≠ fldKey Reg.deviceTime) :
    (ptpTaken x d).rd f = d.rd f := by
  unfold ptpTaken
  split
  · rw [rd_wr_of_ne _ _ _ _ h2, rd_wr_of_ne _ _ _ _ h1]
  · rw [rd_wr_of_ne _ _ _ _ h1]

theorem ptpTaken_offset : (ptpTaken x d).rd Reg.ptpOffset = (BitVec.ofInt 32 x.offset).toNat := by
  have hlt : (BitVec.ofInt 32 x.offset).toNat % 2 ^ 32 = (BitVec.ofInt 32 x.offset).toNat := Nat.mod_eq_of_lt (BitVec.isLt _)
  unfold ptpTaken
  split
  · rw [rd_wr_of_ne _ _ _ _ (by decide), rd_wr]; exact hlt
  · rw [rd_wr]; exact hlt

theorem ptpTaken_time : (ptpTaken x d).rd Reg.deviceTime = if d.rd Reg.timeSrc = 0 then x.time % 2 ^ 64 else d.rd Reg.deviceTime := by
  unfold ptpTaken
  split
  · rw [rd_wr]; exact Nat.mod_mod _ _
  · exact rd_wr_of_ne _ _ _ _ (by decide)

/-- Past its offset and time, a message within 100 ns may lock, and any other unlocks. -/
theorem ptpMessage_of_live (hp : x.port < 16) (hl : d.portLive x.port = true) : effPtpMessage x d =
    let e := ptpTaken x d
    let since := e.fab.lockSince.getD x.time
    if x.offset.natAbs ≤ 100 then
      (if 16 * nsPerSecond ≤ x.time - since then { e with fab := { e.fab with lockSince := some since } }.wr Reg.ptpLocked 1
       else { e with fab := { e.fab with lockSince := some since } })
    else if e.bit Reg.ptpLocked then
      (({ e with fab := { e.fab with lockSince := none } }.wr Reg.ptpLocked 0).raise
        { code := Rc.ptpUnlocked, detail := x.port, source := 70, unitKind := 5, unit := x.port }).setW1c Reg.ptpErrUnlock 70 true
    else { e with fab := { e.fab with lockSince := none } } := by
  have hsrc (v : Nat) : (d.wr Reg.ptpOffset v).rd Reg.timeSrc = d.rd Reg.timeSrc := rd_wr_of_ne _ _ _ _ (by decide)
  refine (if_neg (by simp [hp, hl])).trans ?_
  dsimp only
  rw [hsrc]
  rfl

/-- Offset and time of a PTP message that is taken; the lock's fields alone follow from the size of its offset. -/
theorem ptpMessage_rd (hp : x.port < 16) (hl : d.portLive x.port = true) {f : Fld} (h1 : fldKey f ≠ fldKey Reg.ptpLocked)
    (h2 : fldKey f ≠ fldKey Reg.ptpErrUnlock) : (effPtpMessage x d).rd f = (ptpTaken x d).rd f := by
  rw [ptpMessage_of_live hp hl]
  dsimp only
  split
  · split
    · rw [rd_wr_of_ne _ _ _ _ h1]; rfl
    · rfl
  · split
    · rw [rd_setW1c_of_ne _ _ _ _ _ _ h2, rd_raise, rd_wr_of_ne _ _ _ _ h1]; rfl
    · rfl

/-- An offset of more than 100 ns unlocks. -/
theorem ptpMessage_lock (hp : x.port < 16) (hl : d.portLive x.port = true) (ho : 100 < x.offset.natAbs) :
    if d.rd Reg.ptpLocked = 1 then (effPtpMessage x d).rd Reg.ptpLocked = 0 ∧ (effPtpMessage x d).rd Reg.ptpErrUnlock = 1
    else (effPtpMessage x d).rd Reg.ptpLocked = d.rd Reg.ptpLocked := by
  have hbit : (ptpTaken x d).rd Reg.ptpLocked = d.rd Reg.ptpLocked := rd_ptpTaken (by decide) (by decide)
  rw [ptpMessage_of_live hp hl]
  dsimp only
  rw [if_neg (Nat.not_le.2 ho)]
  split
  · next h1 =>
    rw [if_pos (by rw [Dev.bit, hbit, h1]; rfl)]
    refine ⟨?_, rd_setW1c_bit _ rfl⟩
    rw [rd_setW1c_of_ne _ _ _ _ _ _ (by decide), rd_raise, rd_wr]
    rfl
  · next h1 =>
    rw [if_neg (by simpa [Dev.bit, hbit] using h1)]
    exact hbit

end

/-- Settles O52: pulses, edges and messages, each by the state in which it comes. -/
theorem pinCommands : Obligations.PinCommands := by
  unfold Obligations.PinCommands
  intro s d
  refine ⟨fun cycle h => congrArg s.next (stepSyncPulse_of_free cycle h), fun cycle hm hi hb hp hl => ?_,
    fun h => congrArg s.next (if_pos h), fun h => congrArg s.next (if_neg (Classical.not_not.2 h)), fun ns h => congrArg s.next (if_pos h),
    fun ns h hx => congrArg s.next ((ppsIn_of_latched h).trans (if_neg ?_)), fun ns h hle hs hon h7 => ?_,
    fun ns h => congrArg s.next (if_pos ?_), fun ns h ha hon => ?_, fun x h => congrArg s.next (ptpMessage_of_unreached h), fun x hp hl => ?_⟩
  · refine ⟨_, rfl, ?_⟩
    dsimp only
    rw [(SameButRecords.closeCycle _).serve, stepSyncPulse_of_first cycle hm hi hb hp hl]
    obtain ⟨n, hn⟩ := takePhase_serve (d.latchEdge 0 false) cycle
    obtain ⟨hper, hnext⟩ := latchEdge_timing d (b := 0) false (by decide)
    have hoff : (d.latchEdge 0 false).rd Reg.syncOffset = d.rd Reg.syncOffset :=
      rd_latchEdge d _ (latchLeaves_of_off (by decide) (by decide) (by decide))
    rw [hper, hnext, hoff, latchEdge_serve] at hn
    exact ⟨rfl, congrArg Serve.beatDelay hn⟩
  · rintro ⟨hsrc, hlo, hhi, -, -⟩
    rcases hx with hx | hx | hx
    · exact Nat.not_lt.2 hlo hx
    · exact Nat.not_lt.2 hhi hx
    · exact hx hsrc
  · refine ⟨_, rfl, ?_⟩
    have hc := SameButRecords.closeCycle (effPpsIn ns d)
    have hpps := (ppsIn_of_latched (d := d) (ns := ns) (by omega)).trans (if_pos ⟨hs, h, hle, hon, h7⟩)
    dsimp only
    rw [hc.regs Reg.deviceTime rfl, hc.regs Reg.aonLatch rfl, hpps, rd_wr, rd_wr_of_ne _ _ _ _ (by decide)]
    exact ⟨rfl, latchEdge_sets _ (by decide) hon⟩
  · simpa using h
  · refine ⟨_, rfl, ?_⟩
    have hatt : effAlertNAttention ns d = d.latchEdge 5 false := if_neg (by simp [ha, h])
    have hc := SameButRecords.closeCycle (effAlertNAttention ns d)
    dsimp only
    rw [hc.regs Reg.aonLatch rfl, hc.serve, hatt]
    exact ⟨latchEdge_sets _ (by decide) hon, latchEdge_serve _ _ _⟩
  · refine ⟨_, rfl, ?_⟩
    have hc := SameButRecords.closeCycle (effPtpMessage x d)
    dsimp only
    rw [hc.regs Reg.ptpOffset rfl, hc.regs Reg.deviceTime rfl, hc.regs Reg.ptpLocked rfl, hc.regs Reg.ptpErrUnlock rfl,
      ptpMessage_rd hp hl (by decide) (by decide), ptpMessage_rd hp hl (by decide) (by decide), ptpTaken_offset, ptpTaken_time]
    refine ⟨rfl, fun h => if_pos h, fun h => if_neg h, fun ho => ?_, fun ho h1 => ?_⟩
    · have hlock := ptpMessage_lock hp hl ho
      split at hlock
      · exact .inl hlock.1
      · exact .inr hlock
    · have hlock := ptpMessage_lock hp hl ho
      rwa [if_pos h1] at hlock

/-! Ports (15 R350, R351). -/

/-- `e` is `d` but for its associations and the count of their paths, occurrences raised, and what has left at the pins. -/
structure PathsMoved (d e : Dev) : Prop where
  serve : e.serve = d.serve
  wafer : e.wafer = d.wafer
  regs : ∀ f, (∀ p, fldKey f ≠ fldKey (Reg.pathsUp p)) → e.rd f = d.rd f

namespace PathsMoved

theorem refl (d : Dev) : PathsMoved d d := ⟨rfl, rfl, fun _ _ => rfl⟩

theorem trans {d e f : Dev} (h : PathsMoved d e) (k : PathsMoved e f) : PathsMoved d f :=
  ⟨k.serve.trans h.serve, k.wafer.trans h.wafer, fun g hg => (k.regs g hg).trans (h.regs g hg)⟩

theorem of_sent {d e : Dev} (h : SentFrom d e) : PathsMoved d e :=
  ⟨h.serve, h.wafer, fun _ _ => by rw [Dev.rd, h.regs, Dev.rd]⟩

theorem raise (d : Dev) (o : Occ) : PathsMoved d (d.raise o) := ⟨rfl, rfl, fun _ _ => rfl⟩

theorem showPaths (d : Dev) (peer : Nat) : PathsMoved d (d.showPaths peer) :=
  ⟨rfl, rfl, fun _ hg => rd_wr_of_ne _ _ _ _ (hg peer)⟩

theorem foldl {ι : Type} {step : Dev → ι → Dev} (h : ∀ d i, PathsMoved d (step d i)) (l : List ι) (d : Dev) :
    PathsMoved d (l.foldl step d) := by
  induction l generalizing d with
  | nil => exact refl d
  | cons i l ih => exact (h d i).trans (ih _)

theorem retransmit (d : Dev) (peer psn : Nat) : PathsMoved d (d.retransmit peer psn) := by
  unfold Dev.retransmit
  dsimp only
  split
  · exact refl d
  · split
    · exact of_sent (SentFrom.sendOn _ _ _ _ _)
    · split
      · exact of_sent (SentFrom.sendOn _ _ _ _ _)
      · exact refl d

theorem pathDown (d : Dev) (peer k : Nat) : PathsMoved d (d.pathDown peer k) := by
  unfold Dev.pathDown
  dsimp only
  split
  · exact refl d
  · refine trans ?_ (showPaths _ peer)
    refine trans ?_ (foldl (fun d n => retransmit d peer n) _ _)
    exact ((of_sent (SentFrom.setAssoc _ _ _)).trans (raise _ _)).trans (of_sent (SentFrom.emit _ _))

theorem planeDown (d : Dev) (p : Nat) : PathsMoved d (d.planeDown p) :=
  foldl (fun d peer => foldl (fun d j => pathDown d peer (4 * p + j)) _ d) _ d

end PathsMoved

/-- The fields of a port's word are no count of paths. -/
theorem portField_ne_pathsUp {p : Nat} (hp : p < 16) {f : Fld} (hf : f.off = 0x00400108 + 16 * p) (hlo : f.lo < 64) (q : Nat) :
    fldKey f ≠ fldKey (Reg.pathsUp q) := by
  simp only [fldKey, Reg.pathsUp]
  omega

theorem plain_port {p : Nat} (hp : p < 16) {f : Fld} (hf : f.off = 0x00400108 + 16 * p) (hlo : f.lo < 64) : Plain f :=
  plain_of _ hlo (by omega)

section
variable {d : Dev} {port : Nat}

theorem portDown_of_off {fec : Bool} (h : d.rd Reg.stage < 6 ∨ d.bit (Reg.linkUp (port % 16)) = false) : effPortDown port fec d = d := by
  refine if_pos ?_
  rcases h with h | h <;> simp [h]

/-- What the loss of a port leaves before it is marked: its count of codewords, or its link down and `ERR_DOWN`. -/
def portLeft (d : Dev) (p : Nat) (fec : Bool) : Dev :=
  let e := d.raise (portOcc Rc.portDown p)
  if fec then
    ({ e with freeCtr := e.freeCtr + 1 }).wr (Reg.fecUncorr p) ((e.rd (Reg.fecUncorr p) + (Config.freeWord e.freeCtr).toNat) % 2 ^ 32)
  else (e.wr (Reg.linkUp p) 0).setW1c (Reg.errDown p) (50 + p) true

theorem portLeft_link (d : Dev) (p : Nat) :
    (portLeft d p false).rd (Reg.linkUp p) = 0 ∧ (portLeft d p true).rd (Reg.linkUp p) = d.rd (Reg.linkUp p) := by
  have hle : fldKey (Reg.linkUp p) ≠ fldKey (Reg.errDown p) := by simp only [fldKey, Reg.linkUp, Reg.errDown]; omega
  have hfe : fldKey (Reg.linkUp p) ≠ fldKey (Reg.fecUncorr p) := by simp only [fldKey, Reg.linkUp, Reg.fecUncorr]; omega
  refine ⟨?_, rd_wr_of_ne _ _ _ _ hfe⟩
  show (((d.raise (portOcc Rc.portDown p)).wr (Reg.linkUp p) 0).setW1c (Reg.errDown p) (50 + p) true).rd (Reg.linkUp p) = 0
  rw [rd_setW1c_of_ne _ _ _ _ _ _ hle, rd_wr]
  rfl

theorem portLeft_err (d : Dev) (p : Nat) : (portLeft d p false).rd (Reg.errDown p) = 1 := by
  show (((d.raise (portOcc Rc.portDown p)).wr (Reg.linkUp p) 0).setW1c (Reg.errDown p) (50 + p) true).rd (Reg.errDown p) = 1
  exact rd_setW1c_bit _ rfl

theorem portLeft_parts (d : Dev) (p : Nat) (fec : Bool) : (portLeft d p fec).serve = d.serve ∧ (portLeft d p fec).wafer = d.wafer := by
  cases fec <;> exact ⟨rfl, rfl⟩

/-- A port that is up goes down: it is marked lost, and the paths that it carries go down with it. -/
theorem portDown_of_up {fec : Bool} (h6 : 6 ≤ d.rd Reg.stage) (hl : d.bit (Reg.linkUp (port % 16)) = true) :
    let e := (portLeft d (port % 16) fec).wr (Reg.portLost (port % 16)) 1
    effPortDown port fec d = { e with fab := { e.fab with upSince := AMap.erase (port % 16) e.fab.upSince } }.planeDown (port % 16) :=
  if_neg (by simp [h6, hl])

/-- What a port that goes down leaves of its word and of what is served. -/
theorem portDown_leaves {fec : Bool} (h6 : 6 ≤ d.rd Reg.stage) (hl : d.bit (Reg.linkUp (port % 16)) = true) :
    (effPortDown port fec d).serve = d.serve ∧ (effPortDown port fec d).wafer = d.wafer ∧
      (effPortDown port fec d).rd (Reg.portLost (port % 16)) = 1 ∧
      (effPortDown port fec d).rd (Reg.linkUp (port % 16)) = (portLeft d (port % 16) fec).rd (Reg.linkUp (port % 16)) ∧
      (effPortDown port fec d).rd (Reg.errDown (port % 16)) = (portLeft d (port % 16) fec).rd (Reg.errDown (port % 16)) := by
  have hp : port % 16 < 16 := Nat.mod_lt _ (by decide)
  have hlink : fldKey (Reg.linkUp (port % 16)) ≠ fldKey (Reg.portLost (port % 16)) := by simp only [fldKey, Reg.linkUp, Reg.portLost]; omega
  have herr : fldKey (Reg.errDown (port % 16)) ≠ fldKey (Reg.portLost (port % 16)) := by simp only [fldKey, Reg.errDown, Reg.portLost]; omega
  obtain ⟨hserve, hwafer⟩ := portLeft_parts d (port % 16) fec
  rw [portDown_of_up h6 hl]
  have hmoved := PathsMoved.planeDown { (portLeft d (port % 16) fec).wr (Reg.portLost (port % 16)) 1 with
    fab := { ((portLeft d (port % 16) fec).wr (Reg.portLost (port % 16)) 1).fab with
      upSince := AMap.erase (port % 16) ((portLeft d (port % 16) fec).wr (Reg.portLost (port % 16)) 1).fab.upSince } } (port % 16)
  refine ⟨hmoved.serve.trans hserve, hmoved.wafer.trans hwafer, ?_, ?_, ?_⟩
  · exact (hmoved.regs _ (portField_ne_pathsUp hp rfl (Nat.le_of_ble_eq_true rfl))).trans
      (rd_wr (portLeft d (port % 16) fec) (Reg.portLost (port % 16)) 1)
  · exact (hmoved.regs _ (portField_ne_pathsUp hp rfl (Nat.le_of_ble_eq_true rfl))).trans
      (rd_wr_of_ne (portLeft d (port % 16) fec) (Reg.portLost (port % 16)) _ 1 hlink)
  · exact (hmoved.regs _ (portField_ne_pathsUp hp rfl (Nat.le_of_ble_eq_true rfl))).trans
      (rd_wr_of_ne (portLeft d (port % 16) fec) (Reg.portLost (port % 16)) _ 1 herr)

theorem portUp_of_off (h : d.rd Reg.stage < 6 ∨ 4 ≤ d.rd Reg.pstate ∨ d.cageFits (port % 16) = false ∨ d.portLive (port % 16) = true) :
    effPortUp port d = d := by
  refine if_pos ?_
  rcases h with h | h | h | h <;> simp [h]

theorem portUp_of_down (h6 : 6 ≤ d.rd Reg.stage) (h4 : d.rd Reg.pstate < 4) (hc : d.cageFits (port % 16) = true)
    (hl : d.portLive (port % 16) = false) : ∃ e : Dev, PathsMoved e (effPortUp port d) ∧ e.wafer = d.wafer ∧
      e.rd (Reg.linkUp (port % 16)) = 1 ∧ e.rd (Reg.portLost (port % 16)) = 0 := by
  have hlink : fldKey (Reg.linkUp (port % 16)) ≠ fldKey (Reg.portLost (port % 16)) := by simp only [fldKey, Reg.linkUp, Reg.portLost]; omega
  unfold effPortUp
  dsimp only
  rw [if_neg (by simp [h6, h4, hc, hl])]
  refine ⟨_, PathsMoved.foldl (fun d peer => (PathsMoved.of_sent (SentFrom.pump d peer)).trans (PathsMoved.showPaths _ _)) _ _, ?_, ?_, ?_⟩
  · rw [raise_wafer, wr_wafer, wr_wafer]
    split <;> rfl
  · rw [rd_raise, rd_wr_of_ne _ _ _ _ hlink, rd_wr]; rfl
  · rw [rd_raise, rd_wr]; rfl

/-- The module's entry in the cage is what a device that has no power there notes. -/
def moduleNoted (d : Dev) (p kind watts : Nat) : Dev := { d with fab := { d.fab with modules := AMap.insert p (kind, watts) d.fab.modules } }

theorem cableModule_eq (d : Dev) (port kind watts : Nat) : effCableModuleDetected port kind watts d =
    let e := moduleNoted d (port % 16) kind watts
    if e.rd Reg.stage < 6 || 4 ≤ e.rd Reg.pstate then e
    else
      let f := (if e.bit (Reg.linkUp (port % 16)) then (e.wr (Reg.linkUp (port % 16)) 0).planeDown (port % 16) else e).emit
        (.portPower (port % 16) (kind != 3 && watts ≤ 15))
      if moduleFits (kind, watts) then f.wr (Reg.portPhy (port % 16)) kind
      else if kind = 3 then (if e.bit (Reg.linkUp (port % 16)) then f.setW1c (Reg.errDown (port % 16)) (50 + port % 16) else f)
      else f.setW1c (Reg.errDown (port % 16)) (50 + port % 16) := rfl

theorem cableModule_of_dark {kind watts : Nat} (h : d.rd Reg.stage < 6 ∨ 4 ≤ d.rd Reg.pstate) :
    effCableModuleDetected port kind watts d = moduleNoted d (port % 16) kind watts := by
  refine if_pos ?_
  show (decide (d.rd Reg.stage < 6) || decide (4 ≤ d.rd Reg.pstate)) = true
  simpa using h

theorem cableModule_of_linkDown {kind watts : Nat} (h6 : 6 ≤ d.rd Reg.stage) (h4 : d.rd Reg.pstate < 4)
    (hl : d.bit (Reg.linkUp (port % 16)) = false) : effCableModuleDetected port kind watts d =
      let e := (moduleNoted d (port % 16) kind watts).emit (.portPower (port % 16) (kind != 3 && watts ≤ 15))
      if moduleFits (kind, watts) = true then e.wr (Reg.portPhy (port % 16)) kind
      else if kind = 3 then e else e.setW1c (Reg.errDown (port % 16)) (50 + port % 16) := by
  have hlink : (moduleNoted d (port % 16) kind watts).bit (Reg.linkUp (port % 16)) = false := hl
  have hstage : (moduleNoted d (port % 16) kind watts).rd Reg.stage = d.rd Reg.stage := rfl
  have hpower : (moduleNoted d (port % 16) kind watts).rd Reg.pstate = d.rd Reg.pstate := rfl
  rw [cableModule_eq]
  dsimp only
  rw [if_neg (by simp [hstage, hpower, h6, h4]), hlink]
  simp only [Bool.false_eq_true, if_false]

end

/-- Settles O53: a port by its stage, its link and its module. -/
theorem portCommands : Obligations.PortCommands := by
  unfold Obligations.PortCommands
  intro s port d p
  have hp : p < 16 := Nat.mod_lt _ (by decide)
  refine ⟨fun fec h => congrArg s.next (portDown_of_off h), fun h6 hl => ?_, fun h6 hl => ?_, fun h => congrArg s.next (portUp_of_off h),
    fun h6 h4 hc hl => ?_, fun kind watts h => congrArg s.next (cableModule_of_dark h),
    fun kind watts h6 h4 hl => congrArg s.next (cableModule_of_linkDown h6 h4 hl)⟩
  · obtain ⟨hserve, hwafer, hlost, hlink, herr⟩ := portDown_leaves (fec := false) h6 hl
    have hc := SameButRecords.closeCycle (effPortDown port false d)
    refine ⟨_, rfl, ?_⟩
    dsimp only
    rw [hc.regs _ (plain_port hp (f := Reg.linkUp p) rfl (Nat.le_of_ble_eq_true rfl)), hc.regs _ (plain_port hp (f := Reg.errDown p) rfl (Nat.le_of_ble_eq_true rfl)),
      hc.regs _ (plain_port hp (f := Reg.portLost p) rfl (Nat.le_of_ble_eq_true rfl)), hc.serve, hc.wafer]
    exact ⟨hlink.trans (portLeft_link d p).1, herr.trans (portLeft_err d p), hlost, hserve, hwafer⟩
  · obtain ⟨hserve, -, hlost, hlink, -⟩ := portDown_leaves (fec := true) h6 hl
    have hc := SameButRecords.closeCycle (effPortDown port true d)
    refine ⟨_, rfl, ?_⟩
    dsimp only
    rw [hc.regs _ (plain_port hp (f := Reg.linkUp p) rfl (Nat.le_of_ble_eq_true rfl)),
      hc.regs _ (plain_port hp (f := Reg.portLost p) rfl (Nat.le_of_ble_eq_true rfl)), hc.serve]
    exact ⟨hlost, hlink.trans (portLeft_link d p).2, hserve⟩
  · obtain ⟨e, hmoved, hwafer, hup, hlost⟩ := portUp_of_down h6 h4 hc hl
    have hc := SameButRecords.closeCycle (effPortUp port d)
    refine ⟨_, rfl, ?_⟩
    dsimp only
    rw [hc.regs _ (plain_port hp (f := Reg.linkUp p) rfl (Nat.le_of_ble_eq_true rfl)),
      hc.regs _ (plain_port hp (f := Reg.portLost p) rfl (Nat.le_of_ble_eq_true rfl)), hc.wafer, hmoved.wafer,
      hmoved.regs _ (portField_ne_pathsUp hp rfl (Nat.le_of_ble_eq_true rfl)), hmoved.regs _ (portField_ne_pathsUp hp rfl (Nat.le_of_ble_eq_true rfl))]
    exact ⟨hup, hlost, hwafer⟩

end Sys2Proof.Proofs
end

section
/-! PROOFS. The inclusion monitor and the girdle (05 R133-R135, 09 R226-R231). -/
namespace Sys2Proof.Proofs
open Sys2Proof.Machine Sys2Proof.Laws

/-! The inclusion monitor. -/

section
variable {d : Dev} {t : Nat}

theorem inclusionSample_of_due {r : TileRec} {p : Nat × Nat} {err : List Int} (hr : d.recOf t = some r) (hi : d.imgActive = true)
    (hd : d.sampleDue t = true) (hv : d.inRecovery t = false) (hw : d.works t = true) (hs : AMap.find d.img.samples t = none)
    (hp : r.products[AMap.get 0 d.img.sampleTurn t % r.products.length]? = some p) : effInclusionSample t err d = { d with
      img := { d.img with
        samples := AMap.insert t (d.sampleOf t p.1 (r.descAt p.1) (AMap.get 0 d.img.sampleTurn t / r.products.length) err) d.img.samples,
        sampleTurn := AMap.set 0 d.img.sampleTurn t (AMap.get 0 d.img.sampleTurn t + 1) },
      mesh := { d.mesh with packets := d.mesh.packets ++
        [{ id := sampleId t, cls := 5, src := t, dst := (d.checkers t).1, request := true, router := t, port := 4 }] } } := by
  simp only [effInclusionSample, hr, hi, hd, hv, hw, hs, hp, Bool.not_true, Bool.or_false, Option.isSome_none, Bool.false_eq_true, if_false]

theorem inclusionSample_of_idle {err : List Int} (h : d.imgActive = false ∨ d.sampleDue t = false ∨ (AMap.find d.img.samples t).isSome = true) :
    effInclusionSample t err d = d := by
  unfold effInclusionSample
  split
  · rfl
  · refine if_pos ?_
    rcases h with h | h | h <;> simp [h]

/-- What a check comes to where a sample is there (05 R134): it passed, or the second checker decides. -/
theorem inclusionCheck_of_sample {x : Sample} (a b : List Int) (hx : AMap.find d.img.samples t = some x) : effInclusionCheck t a b d =
    if x.passes (((d.recOf t).map (·.descAt x.desc)).getD 0) a then
      (d.dropSample t).stat t (d.sampleStage t x.desc) fun y => { y with passed := y.passed + 1 }
    else
      let failed := (d.dropSample t).stat t (d.sampleStage t x.desc) fun y => { y with failed := y.failed + 1 }
      if sameErrors x.rows a b then failed.mismatch t 0 x.beat x.desc (d.sampleStage t x.desc)
      else if x.passes (((d.recOf t).map (·.descAt x.desc)).getD 0) b then
        failed.mismatch (d.checkers t).1 1 x.beat x.desc (d.sampleStage t x.desc)
      else (failed.mismatch t 2 x.beat x.desc (d.sampleStage t x.desc)).mismatch (d.checkers t).1 2 x.beat x.desc (d.sampleStage t x.desc) := by
  simp only [effInclusionCheck, hx]

theorem inclusionCheck_of_none (a b : List Int) (hx : AMap.find d.img.samples t = none) : effInclusionCheck t a b d = d := by
  simp only [effInclusionCheck, hx]

theorem inclusionSkipped_of_sample {x : Sample} (hx : AMap.find d.img.samples t = some x) : effInclusionSkipped t d =
    if d.beat < x.beat + 4096 then d
    else (d.dropSample t).stat t (d.sampleStage t x.desc) fun y => { y with skipped := y.skipped + 1 } := by
  simp only [effInclusionSkipped, hx]

theorem inclusionSkipped_of_none (hx : AMap.find d.img.samples t = none) : effInclusionSkipped t d = d := by
  simp only [effInclusionSkipped, hx]

end

/-- Settles O36: a sample is taken, judged or abandoned by what the tile and the checkers show. -/
theorem inclusionCommands : Obligations.InclusionCommands := by
  unfold Obligations.InclusionCommands
  intro s t d
  refine ⟨fun r p err hr hi hd hv hw hs hp => congrArg s.next (inclusionSample_of_due hr hi hd hv hw hs hp),
    fun err h => congrArg s.next (inclusionSample_of_idle h), fun a b hx => congrArg s.next (inclusionCheck_of_none a b hx),
    fun x n hx hn => ?_, fun hx => congrArg s.next (inclusionSkipped_of_none hx)⟩
  subst hn
  refine ⟨fun a b h => ?_, fun a b h hs => ?_, fun a b h hs h2 => ?_, fun a b h hs h2 => ?_, fun h => ?_, fun h => ?_⟩
  · exact congrArg s.next ((inclusionCheck_of_sample a b hx).trans (if_pos h))
  · exact congrArg s.next ((inclusionCheck_of_sample a b hx).trans ((if_neg (Bool.eq_false_iff.1 h)).trans (if_pos hs)))
  · exact congrArg s.next ((inclusionCheck_of_sample a b hx).trans ((if_neg (Bool.eq_false_iff.1 h)).trans
      ((if_neg (Bool.eq_false_iff.1 hs)).trans (if_pos h2))))
  · exact congrArg s.next ((inclusionCheck_of_sample a b hx).trans ((if_neg (Bool.eq_false_iff.1 h)).trans
      ((if_neg (Bool.eq_false_iff.1 hs)).trans (if_neg (Bool.eq_false_iff.1 h2)))))
  · exact congrArg s.next ((inclusionSkipped_of_sample hx).trans (if_pos h))
  · exact congrArg s.next ((inclusionSkipped_of_sample hx).trans (if_neg (Nat.not_lt.2 h)))

/-! The girdle. -/

/-- `e` is `d` but for its sites and occurrences raised. -/
structure SitesMoved (d e : Dev) : Prop where
  serve : e.serve = d.serve
  img : e.img = d.img
  regs : e.regs = d.regs

namespace SitesMoved

theorem refl (d : Dev) : SitesMoved d d := ⟨rfl, rfl, rfl⟩

theorem trans {d e f : Dev} (h : SitesMoved d e) (k : SitesMoved e f) : SitesMoved d f :=
  ⟨k.serve.trans h.serve, k.img.trans h.img, k.regs.trans h.regs⟩

theorem onTile (d : Dev) (t : Nat) (f : Site → Site) : SitesMoved d (d.onTile t f) := by
  unfold Dev.onTile
  split
  · exact ⟨rfl, rfl, rfl⟩
  · exact refl d

theorem loadProgram (d : Dev) (guest host : Nat) : SitesMoved d (d.loadProgram guest host) := by
  unfold Dev.loadProgram
  split
  · exact onTile _ _ _
  · exact refl d

theorem girdleEvent (d : Dev) (code : Nat) (r : StripeRec) (idx t : Nat) : SitesMoved d (d.girdleEvent code r idx t) := ⟨rfl, rfl, rfl⟩

end SitesMoved

section
variable {d : Dev} {n : Nat}

theorem rebuildChunk_of_blocked {bad : Bool} {x : StripeRec} {i t : Nat} {r : TileRec} {p : ProdDesc} (hq : d.rebuildOf n = some (x, i, t, r, p))
    (h : p.chunks ≤ (d.stripe n).nextChunk ∨ d.rd Reg.swapState = 3) : effRebuildChunk n bad d = d := by
  unfold effRebuildChunk
  rw [hq]
  refine if_pos ?_
  rcases h with h | h <;> simp [h]

/-- A chunk is rebuilt: its stripe moves on by one, and nothing else than sites and that stripe changes. -/
theorem rebuildChunk_of_open {bad : Bool} {x : StripeRec} {i t : Nat} {r : TileRec} {p : ProdDesc} (hq : d.rebuildOf n = some (x, i, t, r, p))
    (hc : (d.stripe n).nextChunk < p.chunks) (hs : d.rd Reg.swapState ≠ 3) (hb : (d.stripe n).target = 1 ∨ d.buffersInUse < 32) :
    ∃ (e : Dev) (y : Stripe), SitesMoved d e ∧ SitesMoved (e.setStripe n y) (effRebuildChunk n bad d) ∧
      y.nextChunk = (d.stripe n).nextChunk + 1 ∧ y.complete = (d.stripe n).complete := by
  have hopen : ¬ (decide (p.chunks ≤ (d.stripe n).nextChunk) ||
      ((d.stripe n).target == 2 && (d.stripe n).buffer.isEmpty && decide (32 ≤ d.buffersInUse)) || decide (d.rd Reg.swapState = 3)) = true := by
    rcases hb with hb | hb <;> simp [hc, hs, hb]
  unfold effRebuildChunk
  rw [hq]
  dsimp only
  rw [if_neg hopen]
  generalize d.rebuiltChunk x i r p (d.stripe n).nextChunk bad = w
  obtain ⟨bs, inconsistent, wrong⟩ := w
  dsimp only
  have hev : SitesMoved d (if inconsistent then d.girdleEvent Rc.girdleInconsistent x i t else d) := by
    split
    · exact SitesMoved.girdleEvent _ _ _ _ _
    · exact SitesMoved.refl d
  by_cases ht : (d.stripe n).target = 1
  · rw [if_pos ht]
    by_cases hlast : (d.stripe n).nextChunk + 1 = p.chunks
    · rw [if_pos hlast]
      refine ⟨_, _, ?_, SitesMoved.loadProgram _ _ _, rfl, rfl⟩
      exact hev.trans (SitesMoved.onTile _ _ _)
    · rw [if_neg hlast]
      refine ⟨_, _, ?_, SitesMoved.refl _, rfl, rfl⟩
      exact hev.trans (SitesMoved.onTile _ _ _)
  · rw [if_neg ht]
    exact ⟨_, _, hev, SitesMoved.refl _, rfl, rfl⟩

theorem girdleRebuilt_of_rebuild {x : StripeRec} {i t : Nat} {r : TileRec} {p : ProdDesc} (hq : d.rebuildOf n = some (x, i, t, r, p)) :
    effGirdleRebuilt n d = if (d.stripe n).nextChunk < p.chunks then d else d.setStripe n { d.stripe n with complete := true } := by
  unfold effGirdleRebuilt
  rw [hq]

section
variable {c : Nat} {bad : Bool} {x : StripeRec} {p : ProdDesc} (hx : d.stripeRec n = some x) (hp : x.members.head?.bind d.stripeProd = some p)
include hx hp

theorem girdleAudit_of_other (h : d.imgActive = false ∨ (d.stripe n).state ≠ 0 ∨ (d.stripe n).lost.isSome = true ∨ c ≠ (d.stripe n).audited ∨
    p.chunks ≤ c ∨ d.rd Reg.swapState = 3) : effGirdleAudit n c bad d = d := by
  unfold effGirdleAudit
  rw [hx]
  dsimp only
  rw [hp]
  refine if_pos ?_
  rcases h with h | h | h | h | h | h <;> simp [h]

theorem girdleAudit_of_next (hi : d.imgActive = true) (h0 : (d.stripe n).state = 0) (hl : (d.stripe n).lost = none)
    (ha : c = (d.stripe n).audited) (hc : c < p.chunks) (hs : d.rd Reg.swapState ≠ 3) (ho : d.chunkOff x p c = false) :
    effGirdleAudit n c bad d = d.setStripe n (if c + 1 = p.chunks then { d.stripe n with audited := 0, reaudit := false }
      else { d.stripe n with audited := c + 1 }) := by
  unfold effGirdleAudit
  rw [hx]
  dsimp only
  rw [hp]
  dsimp only
  rw [if_neg (by simp [hi, h0, hl, ← ha, hc, hs]), if_neg (Bool.eq_false_iff.1 ho)]
  split <;> rfl

end
end

/-- Settles O37: the rebuild and the audit by the stripe's state. -/
theorem girdleCommands : Obligations.GirdleCommands := by
  unfold Obligations.GirdleCommands
  intro s n d st
  refine ⟨fun bad h => ?_, fun bad x i t r p hq => ⟨fun h => congrArg s.next (rebuildChunk_of_blocked hq h), fun hc hs hb => ?_,
    congrArg s.next (girdleRebuilt_of_rebuild hq)⟩, fun c bad x p hx hp => ⟨fun h => congrArg s.next (girdleAudit_of_other hx hp h),
      fun hi h0 hl ha hc hs ho => congrArg s.next (girdleAudit_of_next hx hp hi h0 hl ha hc hs ho)⟩⟩
  · refine congrArg s.next ?_
    unfold effRebuildChunk
    rw [show s.dev.rebuildOf n = none from h]
  · obtain ⟨e, y, hde, hef, hnext, hcomplete⟩ := rebuildChunk_of_open (bad := bad) hq hc hs hb
    have hcl := SameButRecords.closeCycle (effRebuildChunk n bad d)
    have hstripe (m : Nat) : (effRebuildChunk n bad d).closeCycle.stripe m = if m = n then y else d.stripe m := by
      rw [Dev.stripe, hcl.img, hef.img, ← Dev.stripe, stripe_setStripe, Dev.stripe, hde.img, ← Dev.stripe]
    refine ⟨_, rfl, ?_⟩
    dsimp only
    refine ⟨?_, ?_, fun m hm => (hstripe m).trans (if_neg hm), (hcl.serve.trans hef.serve).trans hde.serve, fun f hf => ?_⟩
    · exact (congrArg Stripe.nextChunk ((hstripe n).trans (if_pos rfl))).trans hnext
    · exact (congrArg Stripe.complete ((hstripe n).trans (if_pos rfl))).trans hcomplete
    · refine (hcl.regs f hf).trans ?_
      rw [Dev.rd, hef.regs, setStripe_regs, hde.regs, ← Dev.rd]

end Sys2Proof.Proofs
end

section
/-! PROOFS. What the writing of completion records leaves as it is (12 R300-R302, R311). -/
namespace Sys2Proof.Proofs
open Sys2Proof.Machine Sys2Proof.Laws

/-- A register field that no record written to a completion ring changes. -/
def ReplyLeaves (f : Fld) : Prop :=
  ∀ q, fldKey f ≠ fldKey (Reg.cqTail q) ∧ fldKey f ≠ fldKey (Reg.cqHead q) ∧ fldKey f ≠ fldKey (Reg.errBase q) ∧ fldKey f ≠ fldKey (Reg.cqStall q)

/-- Every field below the entries of the queue pairs is such a field. -/
theorem replyLeaves_of_low {f : Fld} (h : f.off < 0x100000) (hlo : f.lo < 64) : ReplyLeaves f := by
  intro q
  simp only [fldKey, Reg.cqTail, Reg.cqHead, Reg.errBase, Reg.cqStall]
  omega

/-- A stream but for the deliveries that are not yet written. -/
def Stream.served (x : Machine.Stream) : Machine.Stream := { x with unwritten := [] }

/-- `e` is `d` but for what records written to completion rings change: rings and their pairs, deliveries noted as written, occurrences, associations. -/
structure Replied (d e : Dev) : Prop where
  tick : e.tick = d.tick
  wafer : e.wafer = d.wafer
  mesh : e.mesh = d.mesh
  img : e.img = d.img
  wts : e.wts = d.wts
  pwr : e.pwr = d.pwr
  meas : e.meas = d.meas
  allocs : e.mem.allocs = d.mem.allocs
  frames : e.mem.frames = d.mem.frames
  faultLog : e.mem.faultLog = d.mem.faultLog
  fab : e.fab = { d.fab with assocs := e.fab.assocs }
  io : e.io = { d.io with qpWaiting := e.io.qpWaiting, qpPass := e.io.qpPass, outbox := e.io.outbox }
  serve : e.serve = { d.serve with streams := e.serve.streams }
  streams : ∀ i, (AMap.find e.serve.streams i).map Stream.served = (AMap.find d.serve.streams i).map Stream.served
  regs : ∀ f, ReplyLeaves f → e.rd f = d.rd f

namespace Replied

theorem refl (d : Dev) : Replied d d := ⟨rfl, rfl, rfl, rfl, rfl, rfl, rfl, rfl, rfl, rfl, rfl, rfl, rfl, fun _ => rfl, fun _ _ => rfl⟩

theorem trans {d e f : Dev} (h : Replied d e) (k : Replied e f) : Replied d f where
  tick := k.tick.trans h.tick
  wafer := k.wafer.trans h.wafer
  mesh := k.mesh.trans h.mesh
  img := k.img.trans h.img
  wts := k.wts.trans h.wts
  pwr := k.pwr.trans h.pwr
  meas := k.meas.trans h.meas
  allocs := k.allocs.trans h.allocs
  frames := k.frames.trans h.frames
  faultLog := k.faultLog.trans h.faultLog
  fab := by rw [k.fab, h.fab]
  io := by rw [k.io, h.io]
  serve := by rw [k.serve, h.serve]
  streams i := (k.streams i).trans (h.streams i)
  regs g hg := (k.regs g hg).trans (h.regs g hg)

theorem ite {c : Prop} [Decidable c] {d e f : Dev} (h : Replied d e) (k : Replied d f) : Replied d (if c then e else f) := by
  split
  · exact h
  · exact k

theorem foldl {ι : Type} {step : Dev → ι → Dev} (h : ∀ d i, Replied d (step d i)) (l : List ι) (d : Dev) : Replied d (l.foldl step d) := by
  induction l generalizing d with
  | nil => exact refl d
  | cons i l ih => exact (h d i).trans (ih _)

theorem wr (d : Dev) (f : Fld) (v : Nat) (h : ∀ g, ReplyLeaves g → fldKey g ≠ fldKey f) : Replied d (d.wr f v) :=
  { refl d with regs := fun g hg => rd_wr_of_ne d f g v (h g hg) }

theorem raise (d : Dev) (o : Occ) : Replied d (d.raise o) := { refl d with }

theorem setW1c (d : Dev) (f : Fld) (n : Nat) (h : ∀ g, ReplyLeaves g → fldKey g ≠ fldKey f) : Replied d (d.setW1c f n) :=
  (wr d f _ h).trans (raise _ _)

theorem emit (d : Dev) (o : Out) : Replied d (d.emit o) := { refl d with io := rfl }

theorem setWaiting (d : Dev) (q : Nat) (gs : List (List Rec)) : Replied d (d.setWaiting q gs) := { refl d with io := rfl }

theorem of_sent {d e : Dev} (h : SentFrom d e) : Replied d e := by
  obtain ⟨a, n, o, rfl⟩ := h
  exact { refl d with io := rfl, fab := rfl }

theorem ringStore {d e : Dev} {a : Nat} {bs : List Byte} (h : d.ringStore a bs = some e) : Replied d e := by
  unfold Dev.ringStore at h
  by_cases h1 : a + bs.length ≤ d.dramTop
  · rw [if_pos h1] at h
    by_cases h2 : ((firstIn d.protectedAt a bs.length).isSome || d.partialPoison a bs.length) = true
    · rw [if_pos h2] at h; cases h
    · rw [if_neg h2] at h; rw [← Option.some.inj h]; exact { refl d with }
  · rw [if_neg h1] at h
    by_cases h2 : 0x800000000000 ≤ a ∧ a + bs.length ≤ 0x1000000000000
    · rw [if_pos h2] at h
      revert h
      cases d.hostAddr (a + bs.length - 1) with
      | none => intro h; cases h
      | some x => intro h; rw [← Option.some.inj h]; exact { refl d with }
    · rw [if_neg h2] at h
      by_cases h3 : 0x200010000000 ≤ a ∧ a + bs.length ≤ 0x200012000000
      · rw [if_pos h3] at h; rw [← Option.some.inj h]; exact { refl d with }
      · rw [if_neg h3] at h; cases h

theorem putRecord {d e : Dev} {q : Nat} {x : Rec} (h : d.putRecord q x = some e) : Replied d e := by
  unfold Dev.putRecord at h
  dsimp only at h
  cases hs : d.ringStore (d.rd (Reg.cqBase q) + 32 * d.rd (Reg.cqTail q)) (leBytes 32 (d.phased q x)) with
  | none => rw [hs] at h; cases h
  | some d1 =>
    rw [hs] at h
    rw [← Option.some.inj h]
    have htail := (ringStore hs).trans (wr d1 (Reg.cqTail q) ((d.rd (Reg.cqTail q) + 1) % d.cqEntries q) fun g hg => (hg q).1)
    exact ite (htail.trans { refl _ with io := rfl }) htail

theorem putGroup {q : Nat} {g : List Rec} {d e : Dev} (h : d.putGroup q g = some e) : Replied d e := by
  induction g generalizing d with
  | nil => rw [← Option.some.inj h]; exact refl d
  | cons x g ih =>
    rw [Dev.putGroup] at h
    cases hx : d.putRecord q x with
    | none => rw [hx] at h; cases h
    | some d1 => rw [hx] at h; exact (putRecord hx).trans (ih h)

theorem answerZero (d : Dev) (x : Rec) (inl : List Byte) : Replied d (d.answerZero x inl) := by
  unfold Dev.answerZero
  refine trans ?_ (emit _ _)
  refine ite (refl d) ?_
  cases h : d.putRecord 0 x with
  | none => exact refl d
  | some e => exact (putRecord h).trans (wr e _ _ fun g hg => (hg 0).2.1)

theorem noteWritten (d : Dev) (g : List Rec) : Replied d (d.noteWritten g) := by
  unfold Dev.noteWritten
  split
  · dsimp only
    split
    · next r _ _ s hs =>
      refine { refl d with serve := rfl, streams := fun j => ?_ }
      show (AMap.find (AMap.insert (bitsOf r.toNat 32 15) { s with unwritten := s.unwritten.erase g } d.serve.streams) j).map Stream.served = _
      rw [find_insert]
      split
      · next hj =>
        split at hs
        · rw [hj, hs]; rfl
        · cases hs
      · rfl
    · exact refl d
  · exact refl d

theorem carryReplies (d : Dev) (q : Nat) (g : List Rec) : Replied d (d.carryReplies q g) :=
  ite (of_sent (SentFrom.sendMsg _ _ _ _ _)) (refl d)

theorem drainCq (q : Nat) (gs : List (List Rec)) (d : Dev) : Replied d (d.drainCq q gs) := by
  induction gs generalizing d with
  | nil => exact setWaiting d q []
  | cons g gs ih =>
    rw [Dev.drainCq]
    refine ite ?_ (ite (setWaiting _ _ _) ?_)
    · exact ((foldl (fun d r => answerZero d r []) g d).trans (noteWritten _ g)).trans (ih _)
    · cases h : d.putGroup q g with
      | none =>
        have hw := (setWaiting d q (g :: gs)).trans (setW1c _ (Reg.errBase q) 80 fun f hf => (hf q).2.2.1)
        dsimp only
        split
        · exact hw.trans (raise _ _)
        · exact hw
      | some d1 =>
        have hn : Replied d (if d.cqUnread q = 0 then d1.notifyQueue q else d1) := ite ((putGroup h).trans (raise _ _)) (putGroup h)
        exact ((hn.trans (noteWritten _ _)).trans (carryReplies _ _ _)).trans (ih _)

theorem postGroup (d : Dev) (q : Nat) (g : List Rec) : Replied d (d.postGroup q g) := by
  have hd := drainCq q (d.waitingOn q ++ [g]) d
  exact ite (ite hd (hd.trans (setW1c _ (Reg.cqStall q) 80 fun f hf => (hf q).2.2.2))) hd

theorem reply (d : Dev) (r : Rhoic) (h : Nat) (p : Reply) : Replied d (d.reply r h p) :=
  ite (refl d) (ite (answerZero _ _ _) (postGroup _ _ _))

end Replied

/-- A job that completes is answered, and runs no more. -/
theorem finishJob_replied (d : Dev) (j : Job) (p : Reply) :
    Replied { d with io := { d.io with running := d.io.running.erase j } } (d.finishJob j p) := Replied.reply _ _ _ _

end Sys2Proof.Proofs
end

section
/-! PROOFS. Resets of the host link and a device reset (19 R422, R423). -/
namespace Sys2Proof.Proofs
open Sys2Proof.Machine Sys2Proof.Laws

/-- `e` is `d` with queue pairs and event rings taken out of use: registers of their entries alone differ. -/
structure EntriesOff (d e : Dev) : Prop where
  frame : e = { d with regs := e.regs }
  low : ∀ f : Fld, f.off < 0x20000 → f.lo < 64 → e.rd f = d.rd f

namespace EntriesOff

theorem refl (d : Dev) : EntriesOff d d := ⟨rfl, fun _ _ _ => rfl⟩

theorem trans {d e f : Dev} (h : EntriesOff d e) (k : EntriesOff e f) : EntriesOff d f := by
  refine ⟨?_, fun g ho hl => (k.low g ho hl).trans (h.low g ho hl)⟩
  rw [k.frame, h.frame]

theorem ite {c : Prop} [Decidable c] {d e : Dev} (h : EntriesOff d e) : EntriesOff d (if c then e else d) := by
  split
  · exact h
  · exact refl d

theorem foldl {ι : Type} {step : Dev → ι → Dev} (h : ∀ d i, EntriesOff d (step d i)) (l : List ι) (d : Dev) : EntriesOff d (l.foldl step d) := by
  induction l generalizing d with
  | nil => exact refl d
  | cons i l ih => exact (h d i).trans (ih _)

theorem wr (d : Dev) {f : Fld} (v : Nat) (h : 0x20000 ≤ f.off) : EntriesOff d (d.wr f v) := by
  refine ⟨rfl, fun g ho hl => rd_wr_of_ne d f g v ?_⟩
  simp only [fldKey]
  omega

theorem disablePair (d : Dev) (q : Nat) : EntriesOff d (d.disablePair q) :=
  wr d 0 (by simp only [Reg.qEnable]; omega)

theorem disableRing (d : Dev) (r : Nat) : EntriesOff d (d.disableRing r) :=
  (wr d 0 (by simp only [Reg.ringEnable]; omega)).trans (wr _ 0 (by simp only [Reg.ringActive]; omega))

end EntriesOff

/-- `d` with the link down and the registers of its two windows at their reset values (19 R422). -/
def linkDropped (d : Dev) : Dev :=
  { d with regs := d.regs.filter fun e => !(inRange (e.1 / 64) 0x18000 0x8000 || inRange (e.1 / 64) 0x11000 0x100),
           io := { d.io with pcieUp := false } }

theorem pcieResetNow_entriesOff (d : Dev) : EntriesOff (linkDropped d) d.pcieResetNow :=
  (EntriesOff.foldl (fun d q => (EntriesOff.disablePair d q).ite) _ _).trans
    (EntriesOff.foldl (fun d r => (EntriesOff.disableRing d r).ite) _ _)

theorem rd_linkDropped (d : Dev) {f : Fld} (h : (!(inRange (fldKey f / 64) 0x18000 0x8000 || inRange (fldKey f / 64) 0x11000 0x100)) = true) :
    (linkDropped d).rd f = d.rd f :=
  get_filter (f := fun k => !(inRange (k / 64) 0x18000 0x8000 || inRange (k / 64) 0x11000 0x100)) h

theorem pcieReset_of_on {d : Dev} (kind : Nat) (h : d.pwr.aonOn = true) :
    effPcieReset kind d = { d.pcieResetNow with io := { d.pcieResetNow.io with perst := kind == 0 || d.pcieResetNow.io.perst } } :=
  if_neg (by rw [h]; decide)

section
variable (d : Dev)

theorem seal_frame : d.seal = { d with pwr := { d.pwr with sealed := d.seal.pwr.sealed, unjournaled := d.seal.pwr.unjournaled } } := by
  unfold Dev.seal
  split <;> rfl

theorem rd_deviceResetNow_of_kept {f : Fld} (h : keptByDeviceReset (fldKey f) = true) : d.deviceResetNow.rd f = d.rd f := by
  unfold Dev.deviceResetNow
  rw [rd_wr_of_ne]
  · exact get_filter h
  · intro e
    rw [e] at h
    exact absurd h (by decide)

theorem rd_deviceResetNow_of_lost {f : Fld} (h : keptByDeviceReset (fldKey f) = false) (hs : fldKey f ≠ fldKey Reg.stage) :
    d.deviceResetNow.rd f = f.reset := by
  unfold Dev.deviceResetNow
  rw [rd_wr_of_ne _ _ _ _ hs]
  exact get_filter_of_not h

end

/-- Settles O46: the frames of a PCIe reset and of a device reset. -/
theorem linkAndReset : Obligations.LinkAndReset := by
  unfold Obligations.LinkAndReset
  refine ⟨fun s kind => ⟨fun h => congrArg s.next (if_pos (by rw [h]; rfl)), fun h => ⟨_, rfl, ?_⟩⟩, fun s => ⟨fun h => congrArg s.next (if_pos ?_),
    fun h6 h4 => congrArg s.next (if_neg ?_)⟩, fun d => ?_⟩
  · have hc := SameButRecords.closeCycle (effPcieReset kind s.dev)
    have he := pcieResetNow_entriesOff s.dev
    have hio := congrArg Dev.io he.frame
    dsimp only
    rw [hc.serve, hc.wafer, hc.img, hc.regs Reg.stage (plain_of _ (by decide) (by decide)), hc.regs Reg.pstate (plain_of _ (by decide) (by decide)),
      pcieReset_of_on kind h]
    refine ⟨?_, ?_, ?_, ?_, ?_, (he.low _ (by decide) (by decide)).trans (rd_linkDropped _ (by decide)),
      (he.low _ (by decide) (by decide)).trans (rd_linkDropped _ (by decide))⟩
    · have hup := congrArg Io.pcieUp hc.io
      rw [pcieReset_of_on kind h] at hup
      exact hup.trans (congrArg Io.pcieUp hio)
    · intro hk
      have hup := congrArg Io.perst hc.io
      rw [pcieReset_of_on kind h] at hup
      exact hup.trans (by rw [hk]; rfl)
    · exact (congrArg Dev.serve he.frame :)
    · exact (congrArg Dev.wafer he.frame :)
    · exact (congrArg Dev.img he.frame :)
  · simp only [Bool.or_eq_true, decide_eq_true_eq]; exact h
  · simp only [Bool.or_eq_true, decide_eq_true_eq]; omega
  · have hs := seal_frame d
    refine ⟨rd_wr _ _ _, rfl, rfl, rfl, rfl, congrArg (·.mem.hostMem) hs, congrArg (·.pwr.chain) hs, congrArg (·.pwr.packages) hs,
      congrArg (·.pwr.journal) hs, congrArg (·.wafer.bypass) hs, fun f hf => ?_, fun f hf hne => rd_deviceResetNow_of_lost _ hf hne⟩
    refine (rd_deviceResetNow_of_kept _ hf).trans ?_
    rw [hs]
    rfl

end Sys2Proof.Proofs
end

section
/-! PROOFS. The feeds, the ride-through and the hold-up module (17 R388, R397-R402, 21 R464). -/
namespace Sys2Proof.Proofs
open Sys2Proof.Machine Sys2Proof.Laws

/-- `e` is `d` but for registers and occurrences. -/
def RegsMoved (d e : Dev) : Prop := e = { d with regs := e.regs, occ := e.occ }

namespace RegsMoved

theorem refl (d : Dev) : RegsMoved d d := rfl

theorem trans {d e f : Dev} (h : RegsMoved d e) (k : RegsMoved e f) : RegsMoved d f := by
  rw [RegsMoved, k, h]

theorem ite {c : Prop} [Decidable c] {d e f : Dev} (h : RegsMoved d e) (k : RegsMoved d f) : RegsMoved d (if c then e else f) := by
  split
  · exact h
  · exact k

theorem wr (d : Dev) (f : Fld) (v : Nat) : RegsMoved d (d.wr f v) := rfl

theorem raise (d : Dev) (o : Occ) : RegsMoved d (d.raise o) := rfl

theorem setW1c (d : Dev) (f : Fld) (source : Nat) (shared : Bool) (i : Nat) : RegsMoved d (d.setW1c f source shared i) := by
  unfold Dev.setW1c
  exact ite (wr _ _ _) ((wr _ _ _).trans (raise _ _))

theorem latchEdge (d : Dev) (b : Nat) (shared : Bool) : RegsMoved d (d.latchEdge b shared) := latchEdge_frame d b shared

theorem updateRide (d : Dev) : RegsMoved d d.updateRide := (wr _ _ _).trans (wr _ _ _)

theorem pwr {d e : Dev} (h : RegsMoved d e) : e.pwr = d.pwr := (congrArg Dev.pwr h :)
theorem serve {d e : Dev} (h : RegsMoved d e) : e.serve = d.serve := (congrArg Dev.serve h :)
theorem wafer {d e : Dev} (h : RegsMoved d e) : e.wafer = d.wafer := (congrArg Dev.wafer h :)
theorem img {d e : Dev} (h : RegsMoved d e) : e.img = d.img := (congrArg Dev.img h :)

end RegsMoved

section
variable (d : Dev)

/-! The registers of a ride-through, and a loss of power. -/

theorem rd_updateRide_of_ne {f : Fld} (h1 : fldKey f ≠ fldKey Reg.rideEffective) (h2 : fldKey f ≠ fldKey Reg.rideOk) : d.updateRide.rd f = d.rd f := by
  unfold Dev.updateRide
  dsimp only
  rw [rd_wr_of_ne _ _ _ _ h2, rd_wr_of_ne _ _ _ _ h1]

@[simp] theorem updateRide_serve : d.updateRide.serve = d.serve := rfl
@[simp] theorem updateRide_pwr : d.updateRide.pwr = d.pwr := rfl
@[simp] theorem updateRide_wafer : d.updateRide.wafer = d.wafer := rfl
@[simp] theorem updateRide_img : d.updateRide.img = d.img := rfl

theorem rd_powerDown_pstate : d.powerDown.rd Reg.pstate = 4 := rd_wr _ _ _

theorem powerDown_aonOn : d.powerDown.pwr.aonOn = false := rfl

theorem powerDown_sealed : d.powerDown.pwr.sealed = d.pwr.sealed := rfl

theorem powerDown_streams : d.powerDown.serve.streams = [] := rfl

/-! What abandoned waves leave. -/

theorem onTenant_frame (t : Nat) (f : Tenant → Tenant) : d.onTenant t f = { d with serve := (d.onTenant t f).serve } := rfl

theorem giveBack_frame (w : Wave) (i : Nat) : d.giveBack w i = { d with serve := (d.giveBack w i).serve } := by
  unfold Dev.giveBack
  dsimp only
  cases d.stream? i with
  | none => rfl
  | some x => dsimp only; split <;> rfl

theorem foldl_serve_frame {ι : Type} {step : Dev → ι → Dev} (h : ∀ d i, step d i = { d with serve := (step d i).serve }) (l : List ι) (d : Dev) :
    l.foldl step d = { d with serve := (l.foldl step d).serve } := by
  induction l generalizing d with
  | nil => rfl
  | cons i l ih => rw [List.foldl_cons, ih, h]

theorem giveBackAll_frame (ws : List Wave) : d.giveBackAll ws = { d with serve := (d.giveBackAll ws).serve } :=
  foldl_serve_frame (fun d w => foldl_serve_frame (fun d i => giveBack_frame d w i) _ d) ws d

/-- Waves that are abandoned leave the registers, the image, the memories and the power circuits. -/
theorem abandonWaves_frame : d.abandonWaves =
    { d with wafer := { d.wafer with sites := d.abandonWaves.wafer.sites }, mesh := d.abandonWaves.mesh, serve := d.abandonWaves.serve } := by
  unfold Dev.abandonWaves
  rw [giveBackAll_frame]
  rfl

end

/-- A command answers what every state says that is its device after the effect but for records. -/
theorem answers_of_eff {c : Instr} {s : State} {e : Dev} {P : State → Prop} (h : exec c s = s.next e)
    (hp : ∀ u : State, SameButRecords e u.dev → P u) : Answers c s P :=
  ⟨_, h, hp _ (SameButRecords.closeCycle e)⟩

/-! One feed. -/

theorem feedOk_cases (n : Nat) : feedOk n = Reg.feedAOk ∨ feedOk n = Reg.feedBOk := by
  unfold feedOk
  split
  · exact .inl rfl
  · exact .inr rfl

theorem errFeed_cases (n : Nat) : errFeed n = Reg.errFeedA ∨ errFeed n = Reg.errFeedB := by
  unfold errFeed
  split
  · exact .inl rfl
  · exact .inr rfl

/-- The device once a feed is lost (17 R388), before what follows from the loss of both. -/
def feedGone (n : Nat) (ov : Bool) (energy watts : Nat) (d : Dev) : Dev :=
  (((((({ d.wr (feedOk n) 0 with pwr := { d.pwr with
      feeds := AMap.insert n false d.pwr.feeds, energyJ := energy,
      feedOpen := if ov then n :: d.pwr.feedOpen.filter (· != n) else d.pwr.feedOpen } } : Dev).wr Reg.humEnergyJ energy).wr
    Reg.inputW watts).raise { code := Rc.feedLost, detail := n, source := 67 + n, unitKind := 8, unit := n }).setW1c (errFeed n) (67 + n) true).latchEdge
      (2 + n) true).updateRide

section
variable {d : Dev} {feed e watts : Nat} {ov : Bool}

theorem feedLost_of_held (hon : d.pwr.aonOn = true) (hf : AMap.get false d.pwr.feeds (feed % 2) = true) : ∃ j,
    effFeedLost feed ov e watts d = if (feedGone (feed % 2) ov j watts d).pwr.feeds.any (·.2) then feedGone (feed % 2) ov j watts d
      else (feedGone (feed % 2) ov j watts d).bothFeedsLost :=
  ⟨if d.pwr.hum.isSome then e else 0, if_neg (by rw [hon, hf]; decide)⟩

theorem feedLost_of_off (h : d.pwr.aonOn = false ∨ AMap.get false d.pwr.feeds (feed % 2) = false) : effFeedLost feed ov e watts d = d := by
  refine if_pos ?_
  rcases h with h | h <;> rw [h]
  · rfl
  · exact Bool.or_true _

theorem feedRestored_of_off (h : d.pwr.aonOn = false ∨ AMap.get false d.pwr.feeds (feed % 2) = true) : effFeedRestored feed d = d := by
  refine if_pos ?_
  rcases h with h | h <;> rw [h]
  · rfl
  · exact Bool.or_true _

/-- A feed that returns (17 R400), before what follows where a ride-through was on. -/
def feedBack (n : Nat) (d : Dev) : Dev :=
  ({ d.wr (feedOk n) 1 with pwr := { d.pwr with feeds := AMap.insert n true d.pwr.feeds, feedOpen := d.pwr.feedOpen.filter (· != n) } }).raise
    { code := Rc.feedRestored, detail := n, source := 67 + n, unitKind := 8, unit := n }

theorem feedRestored_of_gone (hon : d.pwr.aonOn = true) (hf : AMap.get false d.pwr.feeds (feed % 2) = false) (hr : d.pwr.ride = none) :
    effFeedRestored feed d = feedBack (feed % 2) d := by
  refine (if_neg (by rw [hon, hf]; decide)).trans ?_
  dsimp only
  split
  · next h => exact absurd (hr.symm.trans h) (by simp)
  · rfl

/-- The device once its ride-through is over (17 R400). -/
def rideEnded (d : Dev) : Dev := { d.wr Reg.onHum 0 with pwr := { d.pwr with ride := none } }.updateRide

theorem rd_rideEnded_of_ne {f : Fld} (h : fldKey f ≠ fldKey Reg.onHum ∧ fldKey f ≠ fldKey Reg.rideEffective ∧ fldKey f ≠ fldKey Reg.rideOk) :
    (rideEnded d).rd f = d.rd f :=
  (rd_updateRide_of_ne _ h.2.1 h.2.2).trans (rd_wr_of_ne d Reg.onHum f 0 h.1)

theorem rd_rideEnded_onHum : (rideEnded d).rd Reg.onHum = 0 :=
  (rd_updateRide_of_ne _ (by decide) (by decide)).trans (rd_wr d Reg.onHum 0)

theorem rideEnded_ride : (rideEnded d).pwr.ride = none := rfl

theorem rideEnded_serve : (rideEnded d).serve = d.serve := rfl

theorem feedRestored_of_ride {r : Nat × Nat} (hon : d.pwr.aonOn = true) (hf : AMap.get false d.pwr.feeds (feed % 2) = false) (hr : d.pwr.ride = some r) :
    effFeedRestored feed d = (rideEnded (feedBack (feed % 2) d)).raise
      { code := Rc.rideEnd, detail := min ((d.tick - r.2) / 2500) 0xFFFF, source := 69, unitKind := 9, unit := 0 } := by
  refine (if_neg (by rw [hon, hf]; decide)).trans ?_
  dsimp only
  split
  · next h =>
    cases hr.symm.trans h
    rfl
  · next h => exact absurd (hr.symm.trans h) (by simp)

end

section
variable (d : Dev) {n : Nat} (ov : Bool) (e watts : Nat)

theorem feedGone_regsMoved : RegsMoved { d with pwr := { d.pwr with
      feeds := AMap.insert n false d.pwr.feeds, energyJ := e,
      feedOpen := if ov then n :: d.pwr.feedOpen.filter (· != n) else d.pwr.feedOpen } } (feedGone n ov e watts d) :=
  (((((RegsMoved.wr _ _ _).trans (.wr _ _ _)).trans (.wr _ _ _)).trans (.raise _ _)).trans (.setW1c _ _ _ _ _)).trans
    ((RegsMoved.latchEdge _ _ _).trans (.updateRide _))

/-- A register that neither the latch of a feed's edge nor the ride-through's registers change. -/
theorem rd_feedGone {f : Fld} (hn : n < 2) (h : ∀ b < 6, LatchLeaves b f ∧ fldKey f ≠ fldKey Reg.rideEffective ∧ fldKey f ≠ fldKey Reg.rideOk) :
    (feedGone n ov e watts d).rd f = ((((({ d.wr (feedOk n) 0 with pwr := { d.pwr with
      feeds := AMap.insert n false d.pwr.feeds, energyJ := e,
      feedOpen := if ov then n :: d.pwr.feedOpen.filter (· != n) else d.pwr.feedOpen } } : Dev).wr Reg.humEnergyJ e).wr
    Reg.inputW watts).raise { code := Rc.feedLost, detail := n, source := 67 + n, unitKind := 8, unit := n }).setW1c (errFeed n) (67 + n) true).rd f := by
  unfold feedGone
  obtain ⟨hl, h1, h2⟩ := h (2 + n) (by omega)
  rw [rd_updateRide_of_ne _ h1 h2, rd_latchEdge _ _ hl]

theorem feedFields_apart (n : Nat) : ∀ f ∈ [feedOk n, errFeed n, Reg.inputW, Reg.stage], ∀ b < 6,
    LatchLeaves b f ∧ fldKey f ≠ fldKey Reg.rideEffective ∧ fldKey f ≠ fldKey Reg.rideOk := by
  unfold LatchLeaves
  rcases feedOk_cases n with h | h <;> rcases errFeed_cases n with k | k <;> rw [h, k] <;> decide

theorem rd_feedGone_feedOk (hn : n < 2) : (feedGone n ov e watts d).rd (feedOk n) = 0 := by
  rw [rd_feedGone d ov e watts hn (feedFields_apart n _ (by simp)), rd_setW1c_of_ne, rd_raise, rd_wr_of_ne, rd_wr_of_ne]
  · exact (rd_wr d (feedOk n) 0).trans (Nat.zero_mod _)
  all_goals rcases feedOk_cases n with h | h <;> rcases errFeed_cases n with k | k <;> simp only [h, k] <;> decide

theorem rd_feedGone_errFeed (hn : n < 2) : (feedGone n ov e watts d).rd (errFeed n) = 1 := by
  rw [rd_feedGone d ov e watts hn (feedFields_apart n _ (by simp))]
  refine rd_setW1c_bit _ ?_
  rcases errFeed_cases n with k | k <;> rw [k] <;> rfl

theorem rd_feedGone_inputW (hn : n < 2) : (feedGone n ov e watts d).rd Reg.inputW = watts % 2 ^ 24 := by
  rw [rd_feedGone d ov e watts hn (feedFields_apart n _ (by simp)), rd_setW1c_of_ne, rd_raise]
  · exact rd_wr _ _ _
  · rcases errFeed_cases n with k | k <;> rw [k] <;> decide

theorem rd_feedGone_stage (hn : n < 2) : (feedGone n ov e watts d).rd Reg.stage = d.rd Reg.stage := by
  rw [rd_feedGone d ov e watts hn (feedFields_apart n _ (by simp)), rd_setW1c_of_ne, rd_raise, rd_wr_of_ne _ _ _ _ (by decide), rd_wr_of_ne _ _ _ _ (by decide)]
  · refine rd_wr_of_ne d _ _ _ ?_
    rcases feedOk_cases n with k | k <;> rw [k] <;> decide
  · rcases errFeed_cases n with k | k <;> rw [k] <;> decide

theorem rd_feedBack_feedOk : (feedBack n d).rd (feedOk n) = 1 := by
  refine (rd_wr d (feedOk n) 1).trans ?_
  rcases feedOk_cases n with h | h <;> rw [h] <;> rfl

theorem plain_feedField (f : Fld) (h : f ∈ [feedOk n, errFeed n]) : Plain f := by
  simp only [List.mem_cons, List.not_mem_nil, or_false] at h
  rcases h with rfl | rfl
  · rcases feedOk_cases n with h | h <;> rw [h] <;> exact plain_of _ (by decide) (by decide)
  · rcases errFeed_cases n with h | h <;> rw [h] <;> exact plain_of _ (by decide) (by decide)

end

theorem rd_seal (d : Dev) (f : Fld) : d.seal.rd f = d.rd f := by rw [seal_frame]; rfl

theorem feeds_of_runPreserve (d : Dev) : d.abandonWaves.seal.pwr.feeds = d.pwr.feeds := by
  rw [seal_frame, abandonWaves_frame]

theorem rd_abandonWaves (d : Dev) (f : Fld) : d.abandonWaves.rd f = d.rd f := by rw [abandonWaves_frame]; rfl

theorem sealed_of_serving {d : Dev} (h7 : 7 ≤ d.rd Reg.stage) (hp : d.pwr.packages ≠ []) : d.seal.pwr.sealed.isSome = true := by
  unfold Dev.seal
  rw [if_neg (by rintro (h | h); omega; exact hp h)]
  rfl

/-- Preserve with both feeds gone takes the part down with its serving state sealed (17 R400). -/
theorem runPreserve_of_feedless {d : Dev} (hf : (d.pwr.feeds.any fun x => x.2) = false) : d.runPreserve = d.abandonWaves.seal.powerDown := by
  unfold Dev.runPreserve
  dsimp only
  rw [feeds_of_runPreserve, if_neg (by rw [hf]; decide)]

/-- Settles O48: the edge of a feed changes registers alone, and the rest follows from what is left of the feeds. -/
theorem feedsAndPreserve : Obligations.FeedsAndPreserve := by
  unfold Obligations.FeedsAndPreserve
  refine fun s => ⟨fun feed ov e w h => congrArg s.next (feedLost_of_off h), fun feed ov e w hon hf hany => ?_, fun feed ov e w hon hf hany h7 => ?_,
    fun feed h => congrArg s.next (feedRestored_of_off h), fun feed hon hf hr => congrArg s.next (feedRestored_of_gone hon hf hr), fun feed r hon hf hr => ?_,
    fun hr => congrArg s.next (if_neg ?_), fun hr h7 hp hf => ?_⟩
  · obtain ⟨j, hj⟩ := feedLost_of_held (feed := feed) (e := e) (watts := w) (ov := ov) hon hf
    have hm := feedGone_regsMoved s.dev (n := feed % 2) ov j w
    have hn : feed % 2 < 2 := Nat.mod_lt _ (by decide)
    rw [if_pos (by rw [hm.pwr]; exact hany)] at hj
    refine answers_of_eff (congrArg s.next hj) fun u hu => ?_
    rw [hu.pwr, hu.serve, hu.wafer, hu.img, hm.pwr, hm.serve, hm.wafer, hm.img, hu.regs (feedOk _) (plain_feedField (n := feed % 2) _ (by simp)),
      hu.regs (errFeed _) (plain_feedField (n := feed % 2) _ (by simp)), hu.regs Reg.inputW (plain_of _ (by decide) (by decide))]
    refine ⟨rd_feedGone_feedOk _ _ _ _ hn, rd_feedGone_errFeed _ _ _ _ hn, rfl, fun hov => ?_, rd_feedGone_inputW _ _ _ _ hn, rfl, rfl, rfl, rfl⟩
    rw [if_pos hov]
    exact List.mem_cons_self
  · obtain ⟨j, hj⟩ := feedLost_of_held (feed := feed) (e := e) (watts := w) (ov := ov) hon hf
    have hm := feedGone_regsMoved s.dev (n := feed % 2) ov j w
    have hn : feed % 2 < 2 := Nat.mod_lt _ (by decide)
    rw [if_neg (by rw [hm.pwr, hany]; decide), Dev.bothFeedsLost, if_pos (by rw [rd_feedGone_stage _ _ _ _ hn]; exact h7)] at hj
    refine answers_of_eff (congrArg s.next hj) fun u hu => ?_
    rw [hu.pwr, hu.regs Reg.pstate (plain_of _ (by decide) (by decide))]
    exact ⟨rd_powerDown_pstate _, rfl⟩
  · refine answers_of_eff (congrArg s.next (feedRestored_of_ride hon hf hr)) fun u hu => ?_
    rw [hu.pwr, hu.serve, hu.regs (feedOk _) (plain_feedField (n := feed % 2) _ (by simp)), hu.regs Reg.onHum (plain_of _ (by decide) (by decide)), rd_raise, rd_raise,
      rd_rideEnded_onHum, rd_rideEnded_of_ne, rd_feedBack_feedOk, raise_pwr, rideEnded_ride, raise_serve, rideEnded_serve]
    · exact ⟨rfl, rfl, rfl, rfl⟩
    · rcases feedOk_cases (feed % 2) with k | k <;> rw [k] <;> decide
  · rw [hr]; decide
  · obtain ⟨r, hr⟩ := Option.ne_none_iff_exists'.1 hr
    have he : effPreserve s.dev = s.dev.abandonWaves.seal.powerDown := (if_pos (by rw [hr]; rfl)).trans (runPreserve_of_feedless hf)
    refine answers_of_eff (congrArg s.next he) fun u hu => ?_
    rw [hu.pwr, hu.serve, hu.regs Reg.pstate (plain_of _ (by decide) (by decide))]
    refine ⟨rd_powerDown_pstate _, ?_, rfl⟩
    rw [powerDown_sealed]
    exact sealed_of_serving (by rw [rd_abandonWaves]; exact h7) (by rw [abandonWaves_frame]; exact hp)

end Sys2Proof.Proofs
end

section
/-! PROOFS. The hold-up module (17 R397, R402, 21 R464, 23 R488). -/
namespace Sys2Proof.Proofs
open Sys2Proof.Machine Sys2Proof.Laws

theorem RegsMoved.challengeHum (d : Dev) : RegsMoved d d.challengeHum := by
  unfold Dev.challengeHum
  cases d.pwr.hum with
  | none => exact .refl d
  | some h =>
    exact RegsMoved.ite ((((RegsMoved.wr _ _ _).trans (.wr _ _ _)).trans (.wr _ _ _)).trans (.raise _ _))
      ((((RegsMoved.wr _ _ _).trans (.wr _ _ _)).trans (.raise _ _)).trans ((RegsMoved.setW1c _ _ _ _ _).trans (.setW1c _ _ _ _ _)))

section
variable {d : Dev} {h : Hum}

theorem challengeHum_of_genuine (hm : d.pwr.hum = some h) (hg : h.genuine = true) :
    d.challengeHum = (((d.wr Reg.humAuthOk 1).wr Reg.humCycles h.cycles).wr Reg.humHours h.hours).raise (humOcc 2) := by
  simp only [Dev.challengeHum, hm, if_pos hg]

theorem challengeHum_of_counterfeit (hm : d.pwr.hum = some h) (hg : h.genuine = false) :
    d.challengeHum = ((((d.wr Reg.humAuthOk 0).bump Reg.humAuthFails).raise (humOcc 3)).setW1c Reg.errHum 69 true).setW1c Reg.errAuth 81 := by
  simp only [Dev.challengeHum, hm, hg, Bool.false_eq_true, if_false]

/-- A challenge's outcome in `HUM_AUTH_OK` (21 R464). -/
theorem rd_challengeHum_authOk (hm : d.pwr.hum = some h) : d.challengeHum.rd Reg.humAuthOk = b2n h.genuine := by
  cases hg : h.genuine with
  | true =>
    rw [challengeHum_of_genuine hm hg, rd_raise, rd_wr_of_ne _ _ _ _ (by decide), rd_wr_of_ne _ _ _ _ (by decide)]
    exact rd_wr _ _ _
  | false =>
    rw [challengeHum_of_counterfeit hm hg, rd_setW1c_of_ne _ _ _ _ _ _ (by decide), rd_setW1c_of_ne _ _ _ _ _ _ (by decide), rd_raise, Dev.bump,
      rd_wr_of_ne _ _ _ _ (by decide)]
    exact rd_wr _ _ _

theorem rd_challengeHum_present : d.challengeHum.rd Reg.humPresent = d.rd Reg.humPresent := by
  cases hm : d.pwr.hum with
  | none => simp only [Dev.challengeHum, hm]
  | some h =>
    cases hg : h.genuine with
    | true =>
      rw [challengeHum_of_genuine hm hg, rd_raise, rd_wr_of_ne _ _ _ _ (by decide), rd_wr_of_ne _ _ _ _ (by decide), rd_wr_of_ne _ _ _ _ (by decide)]
    | false =>
      rw [challengeHum_of_counterfeit hm hg, rd_setW1c_of_ne _ _ _ _ _ _ (by decide), rd_setW1c_of_ne _ _ _ _ _ _ (by decide), rd_raise, Dev.bump,
        rd_wr_of_ne _ _ _ _ (by decide), rd_wr_of_ne _ _ _ _ (by decide)]

theorem rd_challengeHum_errors (hm : d.pwr.hum = some h) (hg : h.genuine = false) :
    d.challengeHum.rd Reg.errHum = 1 ∧ d.challengeHum.rd Reg.errAuth = 1 := by
  rw [challengeHum_of_counterfeit hm hg]
  exact ⟨(rd_setW1c_of_ne _ _ _ _ _ _ (by decide)).trans (rd_setW1c_bit _ rfl), rd_setW1c_bit _ rfl⟩

/-! Insertion and removal. -/

/-- The device with a module just inserted. -/
def humIn (h : Hum) (d : Dev) : Dev :=
  ({ d.wr Reg.humPresent 1 with pwr := { d.pwr with hum := some h, humReplace := false } }).raise (humOcc 1)

/-- The device with its module just removed. -/
def humOut (d : Dev) : Dev :=
  ((((({ d with pwr := { d.pwr with hum := none, energyJ := 0, humReplace := false } } : Dev).wr Reg.humPresent 0).wr Reg.humAuthOk 0).wr
    Reg.humEnergyJ 0).raise (humOcc 0)).setW1c Reg.errHum 69 true

theorem humChanged_of_in (hon : d.pwr.aonOn = true) (hm : d.pwr.hum = none) :
    effHumChanged (some h) d = (if 1 ≤ (humIn h d).rd Reg.stage then (humIn h d).challengeHum else humIn h d).updateRide := by
  refine (if_neg (by rw [hon]; decide)).trans ?_
  rw [hm]
  rfl

theorem humChanged_of_out (hon : d.pwr.aonOn = true) (hm : d.pwr.hum = some h) :
    effHumChanged none d = if (humOut d).pwr.ride.isSome then (humOut d).powerDown else (humOut d).updateRide := by
  refine (if_neg (by rw [hon]; decide)).trans ?_
  rw [hm]
  rfl

theorem humIn_hum : (humIn h d).pwr.hum = some h := rfl

theorem rd_humIn_stage : (humIn h d).rd Reg.stage = d.rd Reg.stage := rd_wr_of_ne d Reg.humPresent Reg.stage 1 (by decide)

theorem rd_humIn_present : (humIn h d).rd Reg.humPresent = 1 := rd_wr d Reg.humPresent 1

theorem humOut_regsMoved : RegsMoved { d with pwr := { d.pwr with hum := none, energyJ := 0, humReplace := false } } (humOut d) :=
  (((RegsMoved.wr _ _ _).trans (.wr _ _ _)).trans (.wr _ _ _)).trans ((RegsMoved.raise _ _).trans (.setW1c _ _ _ _ _))

theorem rd_humOut : (humOut d).rd Reg.humPresent = 0 ∧ (humOut d).rd Reg.humAuthOk = 0 ∧ (humOut d).rd Reg.humEnergyJ = 0 ∧ (humOut d).rd Reg.errHum = 1 := by
  unfold humOut
  refine ⟨?_, ?_, ?_, rd_setW1c_bit _ rfl⟩
  · rw [rd_setW1c_of_ne _ _ _ _ _ _ (by decide), rd_raise, rd_wr_of_ne _ _ _ _ (by decide), rd_wr_of_ne _ _ _ _ (by decide)]
    exact rd_wr _ _ _
  · rw [rd_setW1c_of_ne _ _ _ _ _ _ (by decide), rd_raise, rd_wr_of_ne _ _ _ _ (by decide)]
    exact rd_wr _ _ _
  · rw [rd_setW1c_of_ne _ _ _ _ _ _ (by decide), rd_raise]
    exact rd_wr _ _ _

/-! The hourly measurement. -/

/-- The registers that the measurement fills, and what it finds of the module. -/
def humMeasured (mf esr energy days : Nat) (d : Dev) : Dev :=
  { (((d.wr Reg.humMf mf).wr Reg.humEsrUohm esr).wr Reg.humEnergyJ energy).wr Reg.humDays days with
    pwr := { d.pwr with energyJ := energy, humReplace := decide (mf < 1200) || decide (8000 < esr) } }

/-- With the replacement that a limit just passed calls for. -/
def humCalled (mf esr energy days : Nat) (d : Dev) : Dev :=
  if (decide (mf < 1200) || decide (8000 < esr)) && !d.pwr.humReplace then
    ((humMeasured mf esr energy days d).raise { code := Rc.humReplace, detail := days, source := 69, unitKind := 9, unit := 0 }).setW1c Reg.errHum 69 true
  else humMeasured mf esr energy days d

section
variable {mf esr energy days : Nat}

theorem humHealth_of_out (hd : d.rd Reg.stage < 7 ∨ d.pwr.hum = none ∨ d.pwr.humAlarm = true) : effHumHealth mf esr energy days d = d := by
  refine if_pos ?_
  rcases hd with h | h | h
  · simp only [h, decide_true, Bool.true_or]
  · simp only [h, Option.isNone_none, Bool.true_or, Bool.or_true]
  · simp only [h, Bool.true_or, Bool.or_true]

theorem humHealth_of_in (h7 : 7 ≤ d.rd Reg.stage) (hm : d.pwr.hum ≠ none) (ha : d.pwr.humAlarm = false) (hf : (d.pwr.feeds.any fun x => x.2) = true) :
    effHumHealth mf esr energy days d = (humCalled mf esr energy days d).updateRide := by
  refine if_neg ?_
  obtain ⟨x, hx⟩ := Option.ne_none_iff_exists'.1 hm
  rw [hf, ha, hx, decide_eq_false (Nat.not_lt.2 h7)]
  exact Bool.false_ne_true

theorem humCalled_regsMoved : RegsMoved (humMeasured mf esr energy days d) (humCalled mf esr energy days d) :=
  RegsMoved.ite ((RegsMoved.raise _ _).trans (.setW1c _ _ _ _ _)) (.refl _)

theorem rd_humMeasured_mf : (humMeasured mf esr energy days d).rd Reg.humMf = mf % 2 ^ 16 := by
  show ((((d.wr Reg.humMf mf).wr Reg.humEsrUohm esr).wr Reg.humEnergyJ energy).wr Reg.humDays days).rd Reg.humMf = _
  rw [rd_wr_of_ne _ _ _ _ (by decide), rd_wr_of_ne _ _ _ _ (by decide), rd_wr_of_ne _ _ _ _ (by decide)]
  exact rd_wr _ _ _

theorem rd_humCalled_mf : (humCalled mf esr energy days d).rd Reg.humMf = mf % 2 ^ 16 := by
  unfold humCalled
  split
  · rw [rd_setW1c_of_ne _ _ _ _ _ _ (by decide), rd_raise, rd_humMeasured_mf]
  · exact rd_humMeasured_mf

theorem rd_humCalled_errHum (hm : mf < 1200) (hr : d.pwr.humReplace = false) : (humCalled mf esr energy days d).rd Reg.errHum = 1 := by
  unfold humCalled
  rw [if_pos (by rw [hr, decide_eq_true hm]; rfl)]
  exact rd_setW1c_bit _ rfl

end

end

/-- Settles O49: each edge of the module by the registers that it writes. -/
theorem holdUpModule : Obligations.HoldUpModule := by
  unfold Obligations.HoldUpModule
  intro s
  dsimp only
  refine ⟨fun h hon => congrArg s.next (if_pos (by rw [hon]; rfl)), fun h hon hm => ?_, fun h hon hm hr => ?_, fun h r hon hm hr => ?_, fun hon hr => ?_,
    fun hon => congrArg s.next (if_pos (by rw [hon]; rfl)), rfl, fun mf esr e days hd => congrArg s.next (humHealth_of_out hd), fun mf esr e days h7 hm ha hf => ?_,
    fun hc => congrArg s.next (if_pos (by simpa only [Bool.or_eq_true, decide_eq_true_eq] using hc)), fun h h1 h4 hm => ?_⟩
  · refine answers_of_eff (congrArg s.next (humChanged_of_in hon hm)) fun u hu => ?_
    rw [hu.pwr, hu.regs Reg.humPresent (plain_of _ (by decide) (by decide)), hu.regs Reg.humAuthOk (plain_of _ (by decide) (by decide)), updateRide_pwr,
      rd_updateRide_of_ne _ (by decide) (by decide), rd_updateRide_of_ne _ (by decide) (by decide), rd_humIn_stage]
    by_cases h1 : 1 ≤ s.dev.rd Reg.stage
    · rw [if_pos h1, (RegsMoved.challengeHum _).pwr, rd_challengeHum_present]
      exact ⟨rd_humIn_present, humIn_hum, fun _ => rd_challengeHum_authOk humIn_hum⟩
    · rw [if_neg h1]
      exact ⟨rd_humIn_present, humIn_hum, fun h => absurd h h1⟩
  · have he := humChanged_of_out hon hm
    rw [if_neg (by rw [humOut_regsMoved.pwr]; show ¬ s.dev.pwr.ride.isSome = true; rw [hr]; decide)] at he
    obtain ⟨hp, ha, hj, hx⟩ := rd_humOut (d := s.dev)
    refine answers_of_eff (congrArg s.next he) fun u hu => ?_
    rw [hu.pwr, hu.serve, hu.regs Reg.humPresent (plain_of _ (by decide) (by decide)), hu.regs Reg.humAuthOk (plain_of _ (by decide) (by decide)),
      hu.regs Reg.humEnergyJ (plain_of _ (by decide) (by decide)), hu.regs Reg.errHum (plain_of _ (by decide) (by decide))]
    iterate 4 rw [rd_updateRide_of_ne _ (by decide) (by decide)]
    rw [updateRide_pwr, updateRide_serve, humOut_regsMoved.pwr, humOut_regsMoved.serve]
    exact ⟨hp, ha, hj, hx, rfl, rfl⟩
  · have he := humChanged_of_out hon hm
    rw [if_pos (by rw [humOut_regsMoved.pwr]; show s.dev.pwr.ride.isSome = true; rw [hr]; rfl)] at he
    refine answers_of_eff (congrArg s.next he) fun u hu => ?_
    rw [hu.pwr, hu.regs Reg.pstate (plain_of _ (by decide) (by decide))]
    exact ⟨rd_powerDown_pstate _, rfl⟩
  · have he : effHumAlarm s.dev = ({ s.dev with pwr := { s.dev.pwr with humAlarm := true } }.latchEdge 4 false).updateRide := by
      refine (if_neg (by rw [hon]; decide)).trans (if_neg ?_)
      rw [latchEdge_pwr, hr]
      decide
    refine answers_of_eff (congrArg s.next he) fun u hu => ?_
    rw [hu.pwr, hu.serve, hu.regs Reg.aonLatch (plain_of _ (by decide) (by decide)), rd_updateRide_of_ne _ (by decide) (by decide), updateRide_pwr,
      updateRide_serve, latchEdge_pwr, latchEdge_serve]
    exact ⟨rfl, latchEdge_sets false (by decide) hon, rfl⟩
  · refine answers_of_eff (congrArg s.next (humHealth_of_in h7 hm ha hf)) fun u hu => ?_
    rw [hu.pwr, hu.serve, hu.regs Reg.humMf (plain_of _ (by decide) (by decide)), hu.regs Reg.errHum (plain_of _ (by decide) (by decide)),
      rd_updateRide_of_ne _ (by decide) (by decide), rd_updateRide_of_ne _ (by decide) (by decide), updateRide_pwr, updateRide_serve,
      humCalled_regsMoved.pwr, humCalled_regsMoved.serve]
    exact ⟨rd_humCalled_mf, rfl, rd_humCalled_errHum, rfl⟩
  · have he : effHumChallenge s.dev = s.dev.challengeHum := if_neg (by simp only [Bool.or_eq_true, decide_eq_true_eq]; omega)
    refine ⟨fun hg => congrArg s.next (he.trans (challengeHum_of_genuine hm hg)), fun hg => answers_of_eff (congrArg s.next he) fun u hu => ?_⟩
    rw [hu.regs Reg.humAuthOk (plain_of _ (by decide) (by decide)), hu.regs Reg.errHum (plain_of _ (by decide) (by decide)),
      hu.regs Reg.errAuth (plain_of _ (by decide) (by decide)), rd_challengeHum_authOk hm, hg]
    exact ⟨rfl, rd_challengeHum_errors hm hg⟩

end Sys2Proof.Proofs
end

section
/-! PROOFS. The commands on streams: opening, tokens and generations (11 R275-R281, 12 R313). -/
namespace Sys2Proof.Proofs
open Sys2Proof.Machine Sys2Proof.Laws

/-! OPEN_STREAM. -/

/-- `e` is `d` but for its memories. -/
def MemMoved (d e : Dev) : Prop := e = { d with mem := e.mem }

theorem MemMoved.trans {d e f : Dev} (h : MemMoved d e) (k : MemMoved e f) : MemMoved d f := by
  rw [MemMoved, k, h]

theorem allocLow_memMoved {d : Dev} {m : Bool} {n kind owner b : Nat} {e : Dev} (h : d.allocLow m n kind owner = some (b, e)) : MemMoved d e := by
  unfold Dev.allocLow at h
  by_cases hn : n = 0
  · rw [if_pos hn] at h
    cases h
    rfl
  · rw [if_neg hn] at h
    obtain ⟨c, -, hc⟩ := Option.map_eq_some_iff.1 h
    cases hc
    rfl

theorem streamRoom_memMoved {d : Dev} {i blocks pt re hi : Nat} {e : Dev} (h : d.streamRoom i blocks = some (pt, re, hi, e)) : MemMoved d e := by
  unfold Dev.streamRoom at h
  cases h1 : d.allocLow false (d.image.kvLayers * blocks * 16) 0 i with
  | none => rw [h1] at h; cases h
  | some p1 =>
    obtain ⟨b1, d1⟩ := p1
    rw [h1] at h
    dsimp only at h
    cases h2 : d1.allocLow false d.image.residBytes 1 i with
    | none => rw [h2] at h; cases h
    | some p2 =>
      obtain ⟨b2, d2⟩ := p2
      rw [h2] at h
      obtain ⟨⟨b3, d3⟩, h3, hc⟩ := Option.map_eq_some_iff.1 h
      cases hc
      exact ((allocLow_memMoved h1).trans (allocLow_memMoved h2)).trans (allocLow_memMoved h3)

section
variable (r : Rhoic) (d : Dev)

/-- The stream that OPEN_STREAM opens that shares no history, in the room it found (11 R275). -/
def openedStream (r : Rhoic) (d : Dev) (pt re hi : Nat) : Stream :=
  { strict := bitOf (arg r 10 1) 0, persist := bitOf (arg r 10 1) 1, textOut := bitOf (arg r 10 1) 2, kMax := arg r 11 1, tenant := d.tenantArg r 8,
    queue := (d.replyPair r).getD r.qp, ptBase := pt, ptBlocks := ceilDiv (arg r 12 4) 256, residBase := re, histBase := hi,
    temperature := BitVec.ofNat 32 (arg r 32 4), topK := arg r 36 2, topP := arg r 38 2, stop0 := arg r 40 4, stop1 := arg r 44 4,
    sampleSeed := if bitOf (arg r 10 1) 4 then BitVec.ofNat 64 (arg r 24 8) else Config.freeWord d.freeCtr, partner := d.pickPartner }

/-- The device once that stream is open: of the room that was found, the structures are `e`'s. -/
def openedDev (r : Rhoic) (d e : Dev) (i pt re hi : Nat) : Dev :=
  { e.setStream i (openedStream r d pt re hi) with freeCtr := if bitOf (arg r 10 1) 4 then d.freeCtr else d.freeCtr + 1 }

/-- The seed that the stream samples with (11 R275). -/
theorem openedStream_seed {pt re hi : Nat} (h : bitOf (arg r 10 1) 4 = true) : (openedStream r d pt re hi).sampleSeed.toNat = arg r 24 8 % 2 ^ 64 := by
  simp only [openedStream, h, if_true, BitVec.toNat_ofNat]

end

section
variable {r : Rhoic} {d : Dev}

theorem openStream_noImage (h : d.img.everActive = false) : startOpenStream r d = .done (bad St.noImage) d := if_pos (by rw [h]; rfl)

section
variable (hi : d.img.everActive = true)
include hi

theorem openStream_stopped (hs : d.rd Reg.imageState = 2) : startOpenStream r d = .done (bad St.imageStopped) d :=
  (if_neg (by rw [hi]; decide)).trans (if_pos hs)

variable (hs : d.rd Reg.imageState ≠ 2)
include hs

theorem openStream_host (hh : d.hostMode 1 = true) (hc : d.classOf r.qp = 3) : startOpenStream r d = .done (bad St.modeHost 1) d :=
  (if_neg (by rw [hi]; decide)).trans ((if_neg hs).trans (if_pos ⟨hh, hc⟩))

variable (hh : ¬ (d.hostMode 1 = true ∧ d.classOf r.qp = 3))
include hh

theorem openStream_reserved (hf : 32 ≤ arg r 10 1) : startOpenStream r d = .done (bad St.paramReserved 10) d :=
  (if_neg (by rw [hi]; decide)).trans ((if_neg hs).trans ((if_neg hh).trans (if_pos (by omega))))

section
variable (hf : arg r 10 1 / 32 = 0) (hq : (d.fab.leaving || d.rd Reg.fabRole == 1 || d.rd Reg.fabRole == 2) = false)
include hf hq

theorem openStream_full (hn : lowestIndex d.serve.streams 32768 = none) : startOpenStream r d = .done (bad St.streamLimit) d := by
  simp only [startOpenStream, hi, hs, if_neg hh, hf, hq, Config.streamCount, hn]
  simp

section
variable {i : Nat} (hn : lowestIndex d.serve.streams 32768 = some i)
include hn

theorem openStream_badTenant (ht : 4096 ≤ d.tenantArg r 8) : startOpenStream r d = .done (bad St.paramRange 8) d := by
  simp only [startOpenStream, hi, hs, if_neg hh, hf, hq, Config.streamCount, hn, Config.tenantCount, if_pos ht]
  simp

variable (ht : d.tenantArg r 8 < 4096)
include ht

omit hh in
theorem openStream_tenantFull (ha : d.hostMode 1 = false) (hm : (d.tenant (d.tenantArg r 8)).maxStreams ≤ d.openOf (d.tenantArg r 8)) :
    startOpenStream r d = .done (bad St.tenantLimit) d := by
  simp only [startOpenStream, hi, hs, hf, hq, Config.streamCount, hn, Config.tenantCount, if_neg (Nat.not_le.2 ht), ha, hm]
  simp

variable (hm : d.hostMode 1 = true ∨ d.openOf (d.tenantArg r 8) < (d.tenant (d.tenantArg r 8)).maxStreams)
  (hk : arg r 11 1 ≤ 3) (hd : arg r 11 1 = 0 ∨ d.image.hasDraft = true) (hp1 : 1 ≤ arg r 12 4) (hp2 : arg r 12 4 ≤ 16776960)
  (htemp : tempOk (arg r 32 4) = true) (htop : arg r 36 2 ≤ 1024) (hpfx : bitOf (arg r 10 1) 3 = false)
include hm hk hd hp1 hp2 htemp htop hpfx

theorem openStream_of_room : startOpenStream r d = match d.streamRoom i (ceilDiv (arg r 12 4) 256) with
    | none => .done (bad St.dramCapacity) d
    | some (pt, re, hi, e) => .done { result := i, result2 := (openedStream r d pt re hi).sampleSeed.toNat } (openedDev r d e i pt re hi) := by
  have hlim : ¬ (!d.hostMode 1 && decide ((d.tenant (d.tenantArg r 8)).maxStreams ≤ d.openOf (d.tenantArg r 8))) = true := by
    rcases hm with h | h <;> simp [h]
  have hrange : rangeFault [(11, arg r 11 1 ≤ 3 && (arg r 11 1 == 0 || d.image.hasDraft)), (12, 1 ≤ arg r 12 4 && arg r 12 4 ≤ 16776960),
      (32, tempOk (arg r 32 4)), (36, arg r 36 2 ≤ 1024)] = none := by
    rcases hd with h | h <;> simp [rangeFault, hk, h, hp1, hp2, htemp, htop]
  simp only [startOpenStream, hi, hs, if_neg hh, hf, hq, Config.streamCount, hn, Config.tenantCount, if_neg (Nat.not_le.2 ht), if_neg hlim, hrange,
    hpfx]
  simp
  rcases d.streamRoom i (ceilDiv (arg r 12 4) 256) with - | ⟨pt, re, hi, e⟩ <;> rfl

end
end
end

end

/-- Settles O21: the checks of admission in order, then the room found. -/
theorem openStream : Obligations.OpenStream := by
  unfold Obligations.OpenStream
  intro s r d t flags h
  refine ⟨fun hi => next_of_done h (openStream_noImage hi), fun hi hs => next_of_done h (openStream_stopped hi hs),
    fun hi hs hh hc => next_of_done h (openStream_host hi hs hh hc), fun hi hs hh hf => next_of_done h (openStream_reserved hi hs hh hf),
    fun hi hs hh hf hl h1 h2 => ?_⟩
  have hz : arg r 10 1 / 32 = 0 := Nat.div_eq_of_lt hf
  have hq : (d.fab.leaving || d.rd Reg.fabRole == 1 || d.rd Reg.fabRole == 2) = false := by simp [hl, h1, h2]
  refine ⟨fun hn => next_of_done h (openStream_full hi hs hh hz hq hn), fun i hn => ⟨fun ht => next_of_done h (openStream_badTenant hi hs hh hz hq hn ht),
    fun ht ha hm => next_of_done h (openStream_tenantFull hi hs hz hq hn ht ha hm), fun ht hm hk hd hp1 hp2 htemp htop hpfx => ?_⟩⟩
  have hroom := openStream_of_room hi hs hh hz hq hn ht hm hk hd hp1 hp2 htemp htop hpfx
  refine ⟨fun hr => next_of_done h (hroom.trans (by rw [hr])), fun room hr => ?_⟩
  obtain ⟨pt, re, hi, e⟩ := room
  have hmem := streamRoom_memMoved hr
  refine ⟨_, openedDev r d e i pt re hi, openedStream r d pt re hi, next_of_done h (hroom.trans (by rw [hr])), openedStream_seed r d, ?_, fun j hj => ?_, rfl, rfl, rfl, rfl, rfl,
    rfl, rfl, rfl, rfl, rfl, rfl, rfl, rfl, (congrArg Dev.regs hmem :), (congrArg Dev.wafer hmem :), (congrArg Dev.img hmem :)⟩
  · exact (find_insert _ _ _ _).trans (if_pos rfl)
  · exact ((find_insert _ _ _ _).trans (if_neg hj)).trans (by rw [hmem])

/-! APPEND_TOKENS, APPEND_TEXT and GENERATE. -/

section
variable {r : Rhoic} {d : Dev}

theorem tokenCommands_of_unnamed {p : Reply} (hp : d.named r (arg r 8 2) false true = .inl p) :
    startAppendTokens r d = .done p d ∧ startGenerate r d = .done p d ∧ (d.hostMode 0 = false → startAppendText r d = .done p d) := by
  refine ⟨?_, ?_, fun hh => ?_⟩
  · simp only [startAppendTokens, hp]
  · simp only [startGenerate, hp]
  · simp only [startAppendText, hp, hh, Bool.false_eq_true, if_false]

section
variable {x : Stream} (hx : d.named r (arg r 8 2) false true = .inr x)
include hx

theorem appendTokens_of_named : startAppendTokens r d =
    if arg r 12 4 = 0 ∨ 16776960 < arg r 12 4 then .done (bad St.paramRange 12) d
    else if x.live = .generating then .done (bad St.busy) d
    else match d.payload r (arg r 12 4) 10 4 with
    | .inl p => .done p d
    | .inr (bs, d1) => match d1.appendTo (arg r 8 2) x (tokensOf bs (arg r 12 4)) with
      | .inl p => .done p d1
      | .inr d2 => .done { result := x.appended + arg r 12 4 } d2 := by
  simp only [startAppendTokens, hx] <;> rfl

theorem generate_of_named : startGenerate r d =
    if arg r 12 4 = 0 then .done (bad St.paramRange 12) d
    else if x.live = .generating ∨ x.genWaits then .done (bad St.busy) d
    else if x.live = .idle ∧ x.appended = x.committed then .done (bad St.emptyStream) d
    else if x.live = .prefill then .run { op := 0x23, req := r, effective := true }
      (d.setStream (arg r 8 2) { x with genRemaining := arg r 12 4, genTag := tagOf r % 65536, kCur := x.kMax, genWaits := true })
    else if 256 * x.ptBlocks ≤ x.appended then .quiet
      ((d.setStream (arg r 8 2) (({ x with genRemaining := arg r 12 4, genTag := tagOf r % 65536, kCur := x.kMax } : Stream).enter .generating)).beginGen (arg r 8 2))
    else .run { op := 0x23, req := r, effective := true }
      (d.setStream (arg r 8 2) (({ x with genRemaining := arg r 12 4, genTag := tagOf r % 65536, kCur := x.kMax } : Stream).enter .generating)) := by
  simp only [startGenerate, hx]

theorem appendText_of_named (hh : d.hostMode 0 = false) : startAppendText r d =
    if arg r 12 4 = 0 ∨ 1048576 < arg r 12 4 then .done (bad St.paramRange 12) d
    else if x.live = .generating then .done (bad St.busy) d
    else match d.image.tok with
    | none => .done (bad St.paramRange 12) d
    | some t => match d.payload r (arg r 12 4) 40 1 with
      | .inl p => .done p d
      | .inr (bs, d1) => match d1.appendTo (arg r 8 2) x (tokenise t bs) with
        | .inl p => .done p d1
        | .inr d2 => .done { result := (tokenise t bs).length, result2 := x.appended + (tokenise t bs).length } d2 := by
  simp only [startAppendText, hx, hh] <;> rfl

end

theorem appendTo_full {i : Nat} {x : Stream} {toks : List Nat} (h : 256 * x.ptBlocks < x.appended + toks.length) :
    d.appendTo i x toks = .inl (bad St.contextFull) := if_pos h

theorem appendTo_of_room {i : Nat} {x : Stream} {toks : List Nat} (h : x.appended + toks.length ≤ 256 * x.ptBlocks) (ht : d.image.tok = none) :
    d.appendTo i x toks = .inr ((d.setStream i (if x.committed + 2 ≤ x.appended + toks.length then
      ({ x with appended := x.appended + toks.length, history := x.history.take x.appended ++ toks } : Stream).enter .prefill
      else { x with appended := x.appended + toks.length, history := x.history.take x.appended ++ toks })).sendJournal i toks) := by
  simp only [Dev.appendTo, if_neg (Nat.not_lt.2 h), ht]

/-- A generation that starts on a full stream ends at once (log entry 114). -/
theorem beginGen_of_full {i : Nat} {x : Stream} (h : 256 * x.ptBlocks ≤ x.appended) :
    (d.setStream i x).beginGen i = ((d.setStream i x).deliverEnd i 1).generationOver i 1 := by
  have hx : (d.setStream i x).stream? i = some x := (find_insert _ _ _ _).trans (if_pos rfl)
  simp only [Dev.beginGen, hx, if_pos h]

theorem ptBlocks_enter (x : Stream) (st : SState) : (x.enter st).ptBlocks = x.ptBlocks ∧ (x.enter st).appended = x.appended := by
  unfold Stream.enter
  split <;> exact ⟨rfl, rfl⟩

end

/-- Settles O22: the refusals of each command in order, then what it does. -/
theorem appendAndGenerate : Obligations.AppendAndGenerate := by
  unfold Obligations.AppendAndGenerate
  intro s r d i n
  refine ⟨fun p h hp => next_of_done h (tokenCommands_of_unnamed hp).1, fun x h hx => ⟨fun hn => ?_, fun h1 hn hg => ?_, fun bs e h1 hn hg hp => ⟨fun hf => ?_, fun hf ht => ?_⟩⟩,
    fun x k bs e e2 h hh hx h1 hn hg hk hp he => ?_, fun h hh => ?_, fun p h hh hp => next_of_done h ((tokenCommands_of_unnamed hp).2.2 hh), fun x h hh hx => ⟨fun hn => ?_, fun h1 hn hg => ?_⟩,
    fun p h hp => next_of_done h (tokenCommands_of_unnamed hp).2.1, fun x h hx => ⟨fun hn => ?_, fun h1 hg => ?_, fun h1 hi hw ha => ?_, fun h1 hg hw ha => ⟨fun hp => ?_, fun hp hl => ?_, fun hp hl => ?_⟩⟩⟩
  · exact next_of_done h ((appendTokens_of_named hx).trans (if_pos hn))
  · exact next_of_done h ((appendTokens_of_named hx).trans ((if_neg (by omega)).trans (if_pos hg)))
  · refine next_of_done h ((appendTokens_of_named hx).trans ((if_neg (by omega)).trans ((if_neg hg).trans ?_)))
    rw [show (fetchedDev s r).payload r (arg r 12 4) 10 4 = .inr (bs, e) from hp]
    dsimp only
    rw [show e.appendTo (arg r 8 2) x (tokensOf bs (arg r 12 4)) = _ from appendTo_full hf]
  · refine next_of_done h ((appendTokens_of_named hx).trans ((if_neg (by omega)).trans ((if_neg hg).trans ?_)))
    rw [show (fetchedDev s r).payload r (arg r 12 4) 10 4 = .inr (bs, e) from hp]
    dsimp only
    rw [show e.appendTo (arg r 8 2) x (tokensOf bs (arg r 12 4)) = _ from appendTo_of_room hf ht]
  · refine next_of_done h ((appendText_of_named hx hh).trans ((if_neg (by omega)).trans ((if_neg hg).trans ?_)))
    rw [show (fetchedDev s r).image.tok = some k from hk]
    dsimp only
    rw [show (fetchedDev s r).payload r (arg r 12 4) 40 1 = .inr (bs, e) from hp]
    dsimp only
    rw [show e.appendTo (arg r 8 2) x (tokenise k bs) = .inr e2 from he]
  · exact next_of_done h (if_pos hh)
  · exact next_of_done h ((appendText_of_named hx hh).trans (if_pos hn))
  · exact next_of_done h ((appendText_of_named hx hh).trans ((if_neg (by omega)).trans (if_pos hg)))
  · exact next_of_done h ((generate_of_named hx).trans (if_pos hn))
  · exact next_of_done h ((generate_of_named hx).trans ((if_neg (by omega)).trans (if_pos hg)))
  · have hlive : ¬ (x.live = .generating ∨ x.genWaits = true) := by simp [hi, hw]
    exact next_of_done h ((generate_of_named hx).trans ((if_neg (by omega)).trans ((if_neg hlive).trans (if_pos ⟨hi, ha⟩))))
  · have hlive : ¬ (x.live = .generating ∨ x.genWaits = true) := by simp [hg, hw]
    exact next_of_run h ((generate_of_named hx).trans ((if_neg (by omega)).trans ((if_neg hlive).trans ((if_neg ha).trans (if_pos hp)))))
  · have hlive : ¬ (x.live = .generating ∨ x.genWaits = true) := by simp [hg, hw]
    exact next_of_run h ((generate_of_named hx).trans ((if_neg (by omega)).trans ((if_neg hlive).trans ((if_neg ha).trans
      ((if_neg hp).trans (if_neg (Nat.not_le.2 hl)))))))
  · have hlive : ¬ (x.live = .generating ∨ x.genWaits = true) := by simp [hg, hw]
    refine (next_of_quiet h ((generate_of_named hx).trans ((if_neg (by omega)).trans ((if_neg hlive).trans ((if_neg ha).trans
      ((if_neg hp).trans (if_pos hl))))))).trans (congrArg s.next (beginGen_of_full ?_))
    obtain ⟨hb, hap⟩ := ptBlocks_enter { x with genRemaining := arg r 12 4, genTag := tagOf r % 65536, kCur := x.kMax } .generating
    rw [hb, hap]
    exact hl

end Sys2Proof.Proofs
end

section
/-! PROOFS. CANCEL, CLOSE_STREAM, STREAM_SET, and the lives of prefixes (10 R265, R266, 11 R281, 12 R313). -/
namespace Sys2Proof.Proofs
open Sys2Proof.Machine Sys2Proof.Laws

/-! CANCEL, CLOSE_STREAM and STREAM_SET. -/

section
variable {r : Rhoic} {d : Dev} {x : Stream}

section
variable (hx : d.named r (arg r 8 2) true false = .inr x)
include hx

theorem cancel_of_named : startCancel r d =
    if x.state = .ended then .done (bad St.notActive (if x.endReason = 1 then 1 else 3)) d
    else if x.live = .idle then .done (bad St.notActive 2) d
    else if x.state = .held then .done {} (if x.migrating.isSome then (d.applyCancel (arg r 8 2)).abandonMigration (arg r 8 2) else d.applyCancel (arg r 8 2))
    else .run { op := 0x24, req := r } (d.setStream (arg r 8 2) { x with cancelPending := true }) := by
  simp only [startCancel, hx]

theorem closeStream_of_named : startCloseStream r d =
    if d.inFlight (arg r 8 2) then .run { op := 0x25, req := r } (d.setStream (arg r 8 2) { x with closing := true })
    else .done { result := x.committed } ((d.endStream (arg r 8 2) 3).freeStream (arg r 8 2)) := by
  simp only [startCloseStream, hx]

end

section
variable (hx : d.named r (arg r 8 2) false false = .inr x)
include hx

theorem streamSet_reserved (hf : 64 ≤ arg r 10 1) : startStreamSet r d = .done (bad St.paramReserved 10) d := by
  have hz : arg r 10 1 / 64 ≠ 0 := by omega
  simp only [startStreamSet, hx, if_pos hz]

theorem streamSet_of_named : startStreamSet r d =
    if arg r 10 1 / 64 ≠ 0 then .done (bad St.paramReserved 10) d
    else if bitOf (arg r 10 1) 5 && !d.hostMode 4 then .done (bad St.modeDevice 4) d
    else match rangeFault [(11, !(bitOf (arg r 10 1) 4 || bitOf (arg r 10 1) 5) || (arg r 11 1 ≤ 3 && (arg r 11 1 == 0 || d.image.hasDraft) &&
          (bitOf (arg r 10 1) 4 || arg r 11 1 ≤ x.kMax))), (32, !bitOf (arg r 10 1) 0 || tempOk (arg r 32 4)),
          (36, !bitOf (arg r 10 1) 1 || arg r 36 2 ≤ 1024)] with
    | some o => .done (bad St.paramRange o) d
    | none => .done {} (d.setStream (arg r 8 2) (if d.inRound (arg r 8 2) x then { x with sets := x.sets ++ [r.pkt] } else applySet r.pkt x)) := by
  simp only [startStreamSet, hx] <;> rfl

omit hx in
/-- STREAM_SET without the bits of the draft length leaves it. -/
theorem applySet_of_low (h4 : bitOf (arg r 10 1) 4 = false) (h5 : bitOf (arg r 10 1) 5 = false) : applySet r.pkt x = { x with
    temperature := if bitOf (arg r 10 1) 0 then BitVec.ofNat 32 (arg r 32 4) else x.temperature
    topK := if bitOf (arg r 10 1) 1 then arg r 36 2 else x.topK
    topP := if bitOf (arg r 10 1) 2 then arg r 38 2 else x.topP
    stop0 := if bitOf (arg r 10 1) 3 then arg r 40 4 else x.stop0
    stop1 := if bitOf (arg r 10 1) 3 then arg r 44 4 else x.stop1 } := by
  change bitOf (arg { qp := 0, pkt := r.pkt } 10 1) 4 = false at h4
  change bitOf (arg { qp := 0, pkt := r.pkt } 10 1) 5 = false at h5
  simp only [applySet, h4, h5]
  rfl

/-- Without the bits of the draft length it stores the parameters of its flags. -/
theorem streamSet_of_flags (hf : arg r 10 1 < 16) (hr : d.inRound (arg r 8 2) x = false) (ht : bitOf (arg r 10 1) 0 = true → tempOk (arg r 32 4) = true)
    (hk : bitOf (arg r 10 1) 1 = true → arg r 36 2 ≤ 1024) : startStreamSet r d = .done {} (d.setStream (arg r 8 2) { x with
      temperature := if bitOf (arg r 10 1) 0 then BitVec.ofNat 32 (arg r 32 4) else x.temperature
      topK := if bitOf (arg r 10 1) 1 then arg r 36 2 else x.topK
      topP := if bitOf (arg r 10 1) 2 then arg r 38 2 else x.topP
      stop0 := if bitOf (arg r 10 1) 3 then arg r 40 4 else x.stop0
      stop1 := if bitOf (arg r 10 1) 3 then arg r 44 4 else x.stop1 }) := by
  have hz : arg r 10 1 / 64 = 0 := by omega
  have hhigh (i : Nat) (hi : 4 ≤ i) : bitOf (arg r 10 1) i = false := by
    rw [bitOf_eq_testBit]
    exact Nat.testBit_lt_two_pow (Nat.lt_of_lt_of_le hf (show 2 ^ 4 ≤ 2 ^ i from Nat.pow_le_pow_right (by decide) hi))
  have hrange : rangeFault [(11, !(bitOf (arg r 10 1) 4 || bitOf (arg r 10 1) 5) || (arg r 11 1 ≤ 3 && (arg r 11 1 == 0 || d.image.hasDraft) &&
      (bitOf (arg r 10 1) 4 || arg r 11 1 ≤ x.kMax))), (32, !bitOf (arg r 10 1) 0 || tempOk (arg r 32 4)), (36, !bitOf (arg r 10 1) 1 || arg r 36 2 ≤ 1024)] =
      none := by
    cases h0 : bitOf (arg r 10 1) 0 <;> cases h1 : bitOf (arg r 10 1) 1 <;>
      simp [rangeFault, hhigh 4 (by decide), hhigh 5 (by decide), h0, h1, ht, hk]
  rw [streamSet_of_named hx, if_neg (Classical.not_not.2 hz), if_neg (by rw [hhigh 5 (by decide)]; exact Bool.false_ne_true), hrange, hr,
    applySet_of_low (hhigh 4 (by decide)) (hhigh 5 (by decide))]
  rfl

end
end

/-- Settles O23: each command by the state of its stream. -/
theorem cancelCloseSet : Obligations.CancelCloseSet := by
  unfold Obligations.CancelCloseSet
  intro s r d i
  refine ⟨fun x h hx => ⟨fun he => ?_, fun he hl => ?_, fun hs hl hm => ?_, fun he hs hl => ?_⟩, fun x h hx => ⟨fun hf => ?_, fun hf => ?_⟩,
    fun x h hx => ⟨fun hf => next_of_done h (streamSet_reserved hx hf), fun hf hr ht hk => next_of_done h (streamSet_of_flags hx hf hr ht hk)⟩⟩
  · exact next_of_done h ((cancel_of_named hx).trans (if_pos he))
  · exact next_of_done h ((cancel_of_named hx).trans ((if_neg he).trans (if_pos hl)))
  · refine next_of_done h ((cancel_of_named hx).trans ((if_neg (by rw [hs]; decide)).trans ((if_neg hl).trans ((if_pos hs).trans ?_))))
    rw [hm]
    rfl
  · exact next_of_run h ((cancel_of_named hx).trans ((if_neg he).trans ((if_neg hl).trans (if_neg hs))))
  · exact next_of_done h ((closeStream_of_named hx).trans (if_neg (Bool.eq_false_iff.1 hf)))
  · exact next_of_run h ((closeStream_of_named hx).trans (if_pos hf))

/-! DEFINE_PREFIX and RELEASE_PREFIX. -/

section
variable {r : Rhoic} {d : Dev} {x : Stream}

/-- The first parameter of DEFINE_PREFIX that is out of range, on a stream with `committed` positions (12 R313). -/
def definePrefixFault (r : Rhoic) (committed : Nat) : Option Nat :=
  rangeFault [(10, arg r 10 1 ≤ 2), (11, arg r 11 1 ≤ 8), (12, arg r 12 4 != 0 && arg r 12 4 % 256 == 0 && arg r 12 4 ≤ committed),
    (24, 1 ≤ arg r 24 4 && arg r 24 4 ≤ 86400)]

/-- What DEFINE_PREFIX makes, in the room it found (10 R265). -/
def definedPrefix (r : Rhoic) (d : Dev) (x : Stream) (pt re : Nat) : Pfx :=
  { handle := arg r 16 8, owner := x.tenant, access := arg r 10 1,
    listed := (List.range (if arg r 10 1 = 1 then arg r 11 1 else 0)).map fun k => arg r (32 + 2 * k) 2,
    positions := arg r 12 4, tokens := x.history.take (arg r 12 4), expiry := d.tick + arg r 24 4 * Config.ticksPerSecond, refs := 1,
    version := d.rd Reg.activeVersion, epoch := d.rd Reg.imageEpoch, live := true, ptBase := pt,
    lastCommit := x.lastCommit, residBase := re, parent := x.pfx }

/-- The device once the record `p` is made: of the room found, the structures are `e`'s. -/
def definedDev (r : Rhoic) (d e : Dev) (x : Stream) (p pt re : Nat) : Dev :=
  (({ e with serve := { e.serve with prefixes := AMap.insert p (definedPrefix r d x pt re) e.serve.prefixes } }).movePages (arg r 8 2) p
    (arg r 12 4 / 256)).setStream (arg r 8 2) { x with pfx := some p }

section
variable (hx : d.named r (arg r 8 2) false true = .inr x)
include hx

theorem definePrefix_of_fault {o : Nat} (hf : definePrefixFault r x.committed = some o) : startDefinePrefix r d = .done (bad St.paramRange o) d := by
  unfold definePrefixFault at hf
  simp only [startDefinePrefix, hx, hf]

variable (hf : definePrefixFault r x.committed = none)
include hf

theorem definePrefix_exists (h : d.livePrefix x.tenant (arg r 16 8) ≠ none) : startDefinePrefix r d = .done (bad St.prefixExists) d := by
  unfold definePrefixFault at hf
  simp only [startDefinePrefix, hx, hf, if_pos (Option.isSome_iff_ne_none.2 h)]

theorem definePrefix_of_room {p pt re : Nat} {e : Dev} (hl : d.livePrefix x.tenant (arg r 16 8) = none)
    (ha : d.awayBelow (arg r 8 2) (arg r 12 4 / 256) = false) (hp : lowestIndex d.serve.prefixes 65536 = some p)
    (hr : d.pfxRoom p (arg r 12 4) = some (pt, re, e)) : startDefinePrefix r d = .done { result := p } (definedDev r d e x p pt re) := by
  unfold definePrefixFault at hf
  simp only [startDefinePrefix, hx, hf, hl, ha, hp, hr]
  rfl

end
end

theorem pfxRoom_memMoved {d : Dev} {p n pt re : Nat} {e : Dev} (h : d.pfxRoom p n = some (pt, re, e)) : MemMoved d e := by
  unfold Dev.pfxRoom at h
  cases h1 : d.allocLow false (d.image.kvLayers * (n / 256) * 16) 0 (65536 + p) with
  | none => rw [h1] at h; cases h
  | some p1 =>
    obtain ⟨b1, d1⟩ := p1
    rw [h1] at h
    dsimp only at h
    cases h2 : d1.allocLow false d.image.residBytes 1 (65536 + p) with
    | none => rw [h2] at h; cases h
    | some p2 =>
      obtain ⟨b2, d2⟩ := p2
      rw [h2] at h
      obtain ⟨⟨b3, d3⟩, h3, hc⟩ := Option.map_eq_some_iff.1 h
      cases hc
      exact ((allocLow_memMoved h1).trans (allocLow_memMoved h2)).trans (allocLow_memMoved h3)

/-! The end of a lease. -/

/-- The shared record `p` is free, or its lease is over. -/
def LeaseOver (d : Dev) (p : Nat) : Prop := ((AMap.find d.serve.prefixes p).all fun x => !x.live) = true

theorem releasePage_serve (d : Dev) (p : Pte) : (d.releasePage p).serve = d.serve := by
  unfold Dev.releasePage
  split <;> rfl

theorem freePages_prefixes (d : Dev) (owner : Nat) : (d.freePages owner).serve.prefixes = d.serve.prefixes := by
  have hfold (l : List Pte) (e : Dev) : (l.foldl (fun d p => d.releasePage p) e).serve = e.serve := by
    induction l generalizing e with
    | nil => rfl
    | cons p l ih => rw [List.foldl_cons, ih, releasePage_serve]
  exact (congrArg Serve.prefixes (hfold (d.serve.ptes.filter fun p => p.owner == owner) d) :)

section
variable {d : Dev} {p : Nat}

theorem leaseOver_onPrefix {q : Nat} {f : Pfx → Pfx} (hf : ∀ y, q = p → y.live = false → (f y).live = false) (h : LeaseOver d p) :
    LeaseOver (d.onPrefix q f) p := by
  unfold LeaseOver Dev.onPrefix at *
  cases hq : AMap.find d.serve.prefixes q with
  | none => exact h
  | some y =>
    dsimp only
    rw [find_insert]
    split
    · next e =>
      rw [e, hq] at h
      simpa using hf y e.symm (by simpa using h)
    · exact h

/-- What is left of a record whose lease ended is reaped, and its lease stays over. -/
theorem leaseOver_reapFrom (fuel : Nat) : ∀ (d : Dev) (q : Nat), LeaseOver d p → LeaseOver (d.reapFrom q fuel) p := by
  induction fuel with
  | zero => exact fun d q h => h
  | succ fuel ih =>
    intro d q h
    rw [Dev.reapFrom]
    cases hq : AMap.find d.serve.prefixes q with
    | none => exact h
    | some x =>
      dsimp only
      split
      · have herase : LeaseOver { d.freePages (65536 + q) with
            serve := { (d.freePages (65536 + q)).serve with prefixes := AMap.erase q (d.freePages (65536 + q)).serve.prefixes }
            mem := { (d.freePages (65536 + q)).mem with allocs := (d.freePages (65536 + q)).mem.allocs.filter fun a => a.owner != 65536 + q } } p := by
          unfold LeaseOver at *
          dsimp only
          rw [find_erase, freePages_prefixes]
          split
          · rfl
          · exact h
        cases x.parent with
        | none => exact herase
        | some r => exact ih _ _ (leaseOver_onPrefix (fun _ _ hl => hl) herase)
      · exact h

theorem leaseOver_endLease : LeaseOver (d.endLease p) p := by
  refine leaseOver_reapFrom _ _ _ ?_
  unfold LeaseOver Dev.onPrefix
  cases hp : AMap.find d.serve.prefixes p with
  | none => dsimp only; rw [hp]; rfl
  | some x => dsimp only; rw [find_insert, if_pos rfl]; rfl

end

theorem ticksPerSecond_eq : Config.ticksPerSecond = 25000000 := rfl

/-- Settles O24: DEFINE_PREFIX by its ranges, the handle and the room; the end of a lease by what reaping leaves. -/
theorem prefixLives : Obligations.PrefixLives := by
  unfold Obligations.PrefixLives
  intro s r d i n handle
  refine ⟨fun x h hx => ⟨fun ha => ?_, fun ha hl => ?_, fun ha hl hn => ?_, fun ha hl h0 hb hc => ⟨fun ht => ?_, fun ht1 ht2 => ?_⟩⟩,
    fun p h hi hp => next_of_done h ?_, fun h hi hp => next_of_done h ?_, fun p => answers_of_eff rfl fun u hu => ?_⟩
  · exact next_of_done h (definePrefix_of_fault hx (by simp [definePrefixFault, rangeFault, Nat.not_le.2 ha]))
  · exact next_of_done h (definePrefix_of_fault hx (by
      simp [definePrefixFault, rangeFault, show arg r 10 1 ≤ 2 from ha, Nat.not_le.2 hl]))
  · have hbad : (arg r 12 4 != 0 && arg r 12 4 % 256 == 0 && arg r 12 4 ≤ x.committed) = false := by
      rcases hn with hn | hn | hn <;> simp [show arg r 12 4 = n from rfl, hn]
    exact next_of_done h (definePrefix_of_fault hx (by
      simp [definePrefixFault, rangeFault, show arg r 10 1 ≤ 2 from ha, show arg r 11 1 ≤ 8 from hl, hbad]))
  · have hbad : ¬ arg r 24 4 = 0 → 86400 < arg r 24 4 := by omega
    exact next_of_done h (definePrefix_of_fault hx (by
      simpa [definePrefixFault, rangeFault, show arg r 10 1 ≤ 2 from ha, show arg r 11 1 ≤ 8 from hl, show arg r 12 4 ≠ 0 from Nat.pos_iff_ne_zero.1 h0,
        show arg r 12 4 % 256 = 0 from hb, show arg r 12 4 ≤ x.committed from hc] using hbad))
  · have hf : definePrefixFault r x.committed = none := by
      simp [definePrefixFault, rangeFault, show arg r 10 1 ≤ 2 from ha, show arg r 11 1 ≤ 8 from hl, show arg r 12 4 ≠ 0 from Nat.pos_iff_ne_zero.1 h0,
        show arg r 12 4 % 256 = 0 from hb, show arg r 12 4 ≤ x.committed from hc, ht1, ht2]
    refine ⟨fun he => next_of_done h (definePrefix_exists hx hf he), fun p room hl ha hp hr => ?_⟩
    obtain ⟨pt, re, e⟩ := room
    refine ⟨definedDev r d e x p pt re, definedPrefix r d x pt re, next_of_done h (definePrefix_of_room hx hf hl ha hp hr),
      (find_insert _ _ _ _).trans (if_pos rfl), rfl, rfl, rfl, rfl, rfl, rfl, ?_, (find_insert _ _ _ _).trans (if_pos rfl)⟩
    show d.tick + arg r 24 4 * Config.ticksPerSecond = _
    rw [ticksPerSecond_eq]
  · refine (if_neg (by rw [show (fetchedDev s r).img.everActive = true from hi]; decide)).trans ?_
    rw [show (fetchedDev s r).livePrefix ((fetchedDev s r).tenantArg r 8) (arg r 16 8) = some p from hp]
    rfl
  · refine (if_neg (by rw [show (fetchedDev s r).img.everActive = true from hi]; decide)).trans ?_
    rw [show (fetchedDev s r).livePrefix ((fetchedDev s r).tenantArg r 8) (arg r 16 8) = none from hp]
  · rw [hu.serve]
    exact leaseOver_endLease

end Sys2Proof.Proofs
end

section
/-! PROOFS. Host-assisted scheduling and paging, and LOUPE_RUN (05 R122, 10 R262, 11 R283, 12 R316, R318). -/
namespace Sys2Proof.Proofs
open Sys2Proof.Machine Sys2Proof.Laws

/-! SCHEDULE_WAVE, PAGE_DROP and PAGE_MIGRATE. -/

section
variable {r : Rhoic} {d : Dev}

section
variable (hi : d.img.everActive = true) (hs : d.rd Reg.imageState ≠ 2)
include hi hs

theorem scheduleWave_device (hh : d.hostMode 2 = false) : startScheduleWave r d = .done (bad St.modeDevice 2) d :=
  (if_neg (by rw [hi]; decide)).trans ((if_neg hs).trans (if_pos (by rw [hh]; rfl)))

variable (hh : d.hostMode 2 = true)
include hh

theorem scheduleWave_badKind (h : 1 < arg r 8 1) : startScheduleWave r d = .done (bad St.paramRange 8) d :=
  (if_neg (by rw [hi]; decide)).trans ((if_neg hs).trans ((if_neg (by rw [hh]; decide)).trans (if_pos h)))

theorem scheduleWave_of_entries (h : arg r 8 1 ≤ 1) (hr : ∀ k < 4, arg r (16 + 8 * k) 8 < 2 ^ 21)
    (he : ∀ k < 4, (schedEntry r k).2.1 ≠ 0 → 1 ≤ (schedEntry r k).2.2 ∧ (schedEntry r k).2.2 ≤ 4) :
    startScheduleWave r d = .run { op := 0x2A, req := r } d := by
  have hreserved : ((List.range 4).find? fun k => arg r (16 + 8 * k) 8 / 2 ^ 21 != 0) = none := by
    refine List.find?_eq_none.2 fun k hk => ?_
    simpa using Nat.div_eq_of_lt (hr k (List.mem_range.1 hk))
  have hrange : ((List.range 4).find? fun k => (schedEntry r k).2.1 != 0 && ((schedEntry r k).2.2 == 0 || decide (4 < (schedEntry r k).2.2))) = none := by
    refine List.find?_eq_none.2 fun k hk => ?_
    have hek := he k (List.mem_range.1 hk)
    simp only [Bool.and_eq_true, Bool.or_eq_true, bne_iff_ne, beq_iff_eq, decide_eq_true_eq]
    rintro ⟨h0, h1 | h1⟩
    · exact absurd (hek h0).1 (by omega)
    · exact absurd (hek h0).2 (by omega)
  refine (if_neg (by rw [hi]; decide)).trans ((if_neg hs).trans ((if_neg (by rw [hh]; decide)).trans ((if_neg (Nat.not_lt.2 h)).trans ?_)))
  rw [hreserved]
  dsimp only
  rw [hrange]

end

theorem pageDrop_device (hh : d.hostMode 6 = false) : startPageDrop r d = .done (bad St.modeDevice 6) d := if_pos (by rw [hh]; rfl)

section
variable (hh : d.hostMode 6 = true)
include hh

theorem pageDrop_badTarget (h : 1 < arg r 10 1) : startPageDrop r d = .done (bad St.paramRange 10) d :=
  (if_neg (by rw [hh]; decide)).trans (if_pos h)

variable (h0 : arg r 10 1 = 0)
include h0

theorem pageDrop_unknown (hx : d.stream? (arg r 8 2) = none) : startPageDrop r d = .done (bad St.streamUnknown) d :=
  (if_neg (by rw [hh]; decide)).trans ((if_neg (by omega)).trans (if_pos ⟨h0, by rw [hx]; rfl⟩))

variable {x : Stream} (hx : d.stream? (arg r 8 2) = some x)
include hx

theorem pageDrop_ended (he : x.state = .ended) : startPageDrop r d = .done (bad St.notActive 4) d := by
  refine (if_neg (by rw [hh]; decide)).trans ((if_neg (by omega)).trans ((if_neg ?_).trans (if_pos ⟨h0, ?_⟩)))
  · rw [hx]; simp
  · rw [hx, Option.map_some, he]

theorem pageDrop_of_stream (he : x.state ≠ .ended) : startPageDrop r d =
    if d.noBeats then .done (d.decideDrop r).1 (d.decideDrop r).2 else .run { op := 0x53, req := r } d := by
  refine (if_neg (by rw [hh]; decide)).trans ((if_neg (by omega)).trans ((if_neg ?_).trans ((if_neg ?_).trans (if_neg (by omega)))))
  · rw [hx]; simp
  · rw [hx]; simpa using fun _ => he

omit hh hx in
theorem decideDrop_of_free (hu : d.unitBusy (arg r 8 2) (arg r 16 4) = none) : d.decideDrop r = ({}, d.dropUnit (arg r 8 2) (arg r 16 4)) := by
  have howner : arg r 8 2 + (if arg r 10 1 = 1 then 65536 else 0) = arg r 8 2 := by rw [if_neg (by omega), Nat.add_zero]
  simp only [Dev.decideDrop, howner, hu]

end

theorem pageMigrate_device (hc : d.classOf r.qp = 2) (hh : d.hostMode 6 = false) : startPageMigrate r d = .done (bad St.modeDevice 6) d :=
  if_pos ⟨hc, by rw [hh]; rfl⟩

section
variable (hh : ¬ (d.classOf r.qp = 2 ∧ d.hostMode 6 = false))
include hh

theorem pageMigrate_unknown (hx : d.stream? (arg r 8 2) = none) : startPageMigrate r d = .done (bad St.streamUnknown) d := by
  refine (if_neg (by simpa using hh)).trans ?_
  rw [hx]

variable {x : Stream} (hx : d.stream? (arg r 8 2) = some x)
include hx

theorem pageMigrate_ended (he : x.state = .ended) : startPageMigrate r d = .done (bad St.notActive 4) d := by
  refine (if_neg (by simpa using hh)).trans ?_
  rw [hx]
  exact if_pos he

theorem pageMigrate_of_range (he : x.state ≠ .ended) (h10 : arg r 10 1 ≤ 1) (h12 : arg r 12 2 < 1024) (hc : d.isCache (arg r 12 2) = true)
    (h16 : arg r 16 4 < x.ptBlocks) (h20 : arg r 16 4 + arg r 20 4 ≤ x.ptBlocks) : startPageMigrate r d =
    if d.peerGone (arg r 12 2) then .done (bad St.peerUnreachable (arg r 12 2)) d
    else if (d.fab.moving.any fun m => m.stream == arg r 8 2) || (d.movesOf r).any (fun m => 255 ≤ (d.pte m.stream m.layer m.block).pins) then .wait d
    else if (d.movesOf r).isEmpty then .done {} d
    else .run { op := 0x52, req := r } ((d.movesOf r).foldl (fun d m => d.stepMove m) { d with fab := { d.fab with moving := d.fab.moving ++ d.movesOf r } }) := by
  have hrange : rangeFault [(10, arg r 10 1 ≤ 1), (12, arg r 12 2 < 1024 && d.isCache (arg r 12 2)), (16, arg r 16 4 < x.ptBlocks),
      (20, arg r 16 4 + arg r 20 4 ≤ x.ptBlocks)] = none := by
    simp [rangeFault, h10, h12, hc, h16, h20]
  refine (if_neg (by simpa using hh)).trans ?_
  rw [hx]
  refine (if_neg he).trans ?_
  rw [hrange]

end

end

/-- Settles O25: the mode first, then what each command names. -/
theorem hostAssisted : Obligations.HostAssisted := by
  unfold Obligations.HostAssisted
  intro s r d
  refine ⟨fun objs ho h hi hs => ?_, fun objs ho h => ?_, fun h => ⟨fun hc hh => next_of_done h (pageMigrate_device hc hh),
    fun hh hx => next_of_done h (pageMigrate_unknown hh hx), fun x hh hx he => next_of_done h (pageMigrate_ended hh hx he),
    fun x hh hx he h10 h12 hc h16 h20 => ?_⟩⟩
  · subst ho
    exact ⟨fun hh => next_of_done h (scheduleWave_device hi hs hh), fun hh hk => next_of_done h (scheduleWave_badKind hi hs hh hk),
      fun hh hk hr he => next_of_run h (scheduleWave_of_entries hi hs hh hk hr he)⟩
  · subst ho
    refine ⟨fun hh => next_of_done h (pageDrop_device hh), fun hh ht => next_of_done h (pageDrop_badTarget hh ht),
      fun hh h0 hx => next_of_done h (pageDrop_unknown hh h0 hx), fun x hh h0 hx he => next_of_done h (pageDrop_ended hh h0 hx he),
      fun x hh h0 hx he hb => next_of_run h ((pageDrop_of_stream hh h0 hx he).trans (if_neg (Bool.eq_false_iff.1 hb))),
      fun x hh h0 hx he hb hu => next_of_done h ((pageDrop_of_stream hh h0 hx he).trans ((if_pos hb).trans ?_))⟩
    rw [decideDrop_of_free h0 hu]
  · have hm := pageMigrate_of_range hh hx he h10 h12 hc h16 h20
    refine ⟨fun hg => next_of_done h (hm.trans (if_pos hg)), fun hg hf he => next_of_done h (hm.trans ((if_neg (Bool.eq_false_iff.1 hg)).trans ?_)),
      fun hg hf he hp => next_of_run h (hm.trans ((if_neg (Bool.eq_false_iff.1 hg)).trans ?_))⟩
    · rw [show (fetchedDev s r).fab.moving = [] from hf, show (fetchedDev s r).movesOf r = [] from he]
      rfl
    · have hpins : ((fetchedDev s r).movesOf r).any (fun m => 255 ≤ ((fetchedDev s r).pte m.stream m.layer m.block).pins) = false := by
        refine List.any_eq_false.2 fun m hmem => ?_
        simpa using hp m hmem
      rw [show (fetchedDev s r).fab.moving = [] from hf, hpins]
      refine (if_neg Bool.false_ne_true).trans (if_neg ?_)
      simpa using he

/-! LOUPE_RUN. -/

section
variable {r : Rhoic} {d : Dev} {x : Stream} (hx : d.named r (arg r 8 2) false true = .inr x)
include hx

theorem loupeRun_of_named : startLoupeRun r d =
    if 1 < arg r 10 1 then .done (bad St.paramRange 10) d
    else if arg r 14 2 < arg r 12 2 then .done (bad St.paramRange 12) d
    else if d.image.stagesM1 < arg r 14 2 then .done (bad St.paramRange 14) d
    else if x.committed ≤ arg r 16 8 then .done (bad St.paramRange 16) d
    else match d.image.loupeOut.find? fun l => arg r 12 2 ≤ l && l ≤ arg r 14 2 with
    | some l => .done (bad St.loupeRange l) d
    | none =>
      (d.outBeyond r (arg r 24 8) (arg r 32 4)).getD <|
      if [0x11, 0x12, 0x14, 0x70].any (fun op => !(d.jobs op).isEmpty) || d.awayBelow (arg r 8 2) (arg r 16 8 / 256 + 1) ||
          d.holdsFull (arg r 8 2) (arg r 16 8 / 256 + 1) then .wait d
      else .run { op := 0x70, req := r, arg := arg r 8 2, arg2 := arg r 16 8 / 256 + 1 } ((d.pinBlocks (arg r 8 2) (arg r 16 8 / 256 + 1) true).hold 6) := by
  simp only [startLoupeRun, hx] <;> rfl

/-- A range of layers of the image at a committed position, with nothing in its way, runs (12 R316). -/
theorem loupeRun_of_free (h10 : arg r 10 1 ≤ 1) (h12 : arg r 12 2 ≤ arg r 14 2) (h14 : arg r 14 2 ≤ d.image.stagesM1) (h16 : arg r 16 8 < x.committed)
    (hl : ∀ l ∈ d.image.loupeOut, ¬ (arg r 12 2 ≤ l ∧ l ≤ arg r 14 2)) (h11 : d.jobs 0x11 = []) (hj12 : d.jobs 0x12 = []) (hj14 : d.jobs 0x14 = [])
    (h70 : d.jobs 0x70 = []) (ha : d.awayBelow (arg r 8 2) (arg r 16 8 / 256 + 1) = false)
    (hf : d.holdsFull (arg r 8 2) (arg r 16 8 / 256 + 1) = false) (ho : d.outBeyond r (arg r 24 8) (arg r 32 4) = none) :
    startLoupeRun r d = .run { op := 0x70, req := r, arg := arg r 8 2, arg2 := arg r 16 8 / 256 + 1 }
      ((d.pinBlocks (arg r 8 2) (arg r 16 8 / 256 + 1) true).hold 6) := by
  have hfind : (d.image.loupeOut.find? fun l => arg r 12 2 ≤ l && l ≤ arg r 14 2) = none := by
    refine List.find?_eq_none.2 fun l hmem => ?_
    simpa using hl l hmem
  rw [loupeRun_of_named hx, if_neg (by omega), if_neg (by omega), if_neg (by omega), if_neg (by omega), hfind]
  dsimp only
  rw [ho, ha, hf]
  refine if_neg ?_
  simp [h11, hj12, hj14, h70]

end

/-! What a write over the bus leaves of the commands that run. -/

/-- The commands that run stay, or a reset has ended them all. -/
def RunningKept (d e : Dev) : Prop := e.io.running = d.io.running ∨ e.io.running = []

theorem foldl_running {ι : Type} {step : Dev → ι → Dev} (h : ∀ d i, (step d i).io.running = d.io.running) (l : List ι) (d : Dev) :
    (l.foldl step d).io.running = d.io.running := by
  induction l generalizing d with
  | nil => rfl
  | cons i l ih => rw [List.foldl_cons, ih, h]

theorem Replied.running {d e : Dev} (h : Replied d e) : e.io.running = d.io.running := by rw [h.io]

/-- A choice of two devices with the same commands running. -/
theorem running_ite {c : Prop} [Decidable c] {d e f : Dev} (h : e.io.running = d.io.running) (k : f.io.running = d.io.running) :
    (if c then e else f).io.running = d.io.running := by
  split
  · exact h
  · exact k

section
variable (d : Dev) (w : WordWrite)

theorem storeW1_running (fs : List Fld) : (d.storeW1 w fs).io.running = d.io.running := by
  refine foldl_running (fun e f => ?_) fs d
  exact running_ite rfl (running_ite rfl (running_ite rfl rfl))

theorem storeRw_running (fs : List Fld) : (d.storeRw w fs).io.running = d.io.running := by
  refine foldl_running (fun e f => ?_) fs d
  exact running_ite rfl rfl

theorem storePlain_running : (d.storePlain w).io.running = d.io.running := (storeW1_running _ _ _).trans (storeRw_running _ _ _)

theorem pumpCq_running (q : Nat) : (d.pumpCq q).io.running = d.io.running := (Replied.drainCq q _ d).running

theorem storeQueue_running (q : Nat) : (d.storeQueue q w).io.running = d.io.running := by
  have h1 : (if bitOf (d.rd (Reg.errBase q)) 0 && !bitOf ((d.storeW1 w (Reg.queueFields q)).rd (Reg.errBase q)) 0 then
      (d.storeW1 w (Reg.queueFields q)).pumpCq q else d.storeW1 w (Reg.queueFields q)).io.running = d.io.running :=
    running_ite ((pumpCq_running _ _).trans (storeW1_running _ _ _)) (storeW1_running _ _ _)
  unfold Dev.storeQueue
  have h2 := (storeRw_running (if bitOf (d.rd (Reg.errBase q)) 0 && !bitOf ((d.storeW1 w (Reg.queueFields q)).rd (Reg.errBase q)) 0 then
      (d.storeW1 w (Reg.queueFields q)).pumpCq q else d.storeW1 w (Reg.queueFields q)) w
    ((Reg.queueFields q).filter fun f => f != Reg.qEnable q)).trans h1
  exact running_ite h1 (running_ite (running_ite h1 h1) (running_ite ((pumpCq_running _ _).trans h2) h2))

theorem sendIrq_running (r : Nat) : (d.sendIrq r).io.running = d.io.running :=
  (congrArg Io.running (SameButRecords.sendIrq d r).io :)

theorem eoi_running (r : Nat) : (d.eoi r).io.running = d.io.running :=
  running_ite rfl (running_ite (sendIrq_running _ _) rfl)

theorem storeRing_running (r : Nat) : (d.storeRing r w).io.running = d.io.running := by
  have h1 := storeW1_running d w (Reg.ringFields r)
  have h2 : (if w.covers (Reg.ringHead r) then (d.storeW1 w (Reg.ringFields r)).moveHead r (w.value (Reg.ringHead r)) else
      d.storeW1 w (Reg.ringFields r)).io.running = d.io.running := running_ite (running_ite h1 h1) h1
  have h3 := (storeRw_running (if w.covers (Reg.ringHead r) then (d.storeW1 w (Reg.ringFields r)).moveHead r (w.value (Reg.ringHead r)) else
      d.storeW1 w (Reg.ringFields r)) w [Reg.ringBase r, Reg.ringSize r, Reg.ringTarget r, Reg.ringVector r]).trans h2
  unfold Dev.storeRing
  exact running_ite (running_ite h2 h2) (running_ite h3 h3)

theorem bankEoi_running (k line : Nat) : (d.bankEoi k line).io.running = d.io.running :=
  running_ite rfl (foldl_running eoi_running _ d)

theorem unmask_running (v : Nat) : (d.unmask v).io.running = d.io.running := running_ite rfl rfl

theorem clearLatch_running (bits : Nat) : (d.clearLatch bits).io.running = d.io.running := by
  unfold Dev.clearLatch forN
  refine foldl_running (fun e i => ?_) (List.range 6) d
  exact running_ite rfl rfl

theorem setMirror_running (g : Nat) : (d.setMirror g).io.running = d.io.running := by
  unfold Dev.setMirror
  dsimp only
  split
  · exact running_ite rfl rfl
  · rfl

theorem storeHbmCtrl_running : (d.storeHbmCtrl w).io.running = d.io.running := by
  have h1 : (if w.covers Reg.eccMode then d.wr Reg.eccMode (w.value Reg.eccMode) else d).io.running = d.io.running := running_ite rfl rfl
  exact running_ite ((setMirror_running _ _).trans h1) h1

theorem storePlane_running (p : Nat) : (d.storePlane p w).io.running = d.io.running :=
  running_ite (storeW1_running _ _ _) ((storeRw_running _ _ _).trans (storeW1_running _ _ _))

theorem storeFabCfg_running : (d.storeFabCfg w).io.running = d.io.running := by
  have h1 := storeRw_running d w [Reg.migratePages]
  have h2 := (storeRw_running _ w [Reg.timeSrc]).trans h1
  exact running_ite h1 (running_ite h2 ((storeRw_running _ _ _).trans h2))

/-- A register write leaves the commands that run, but for the reset that it may order (22 R477). -/
theorem storeWord_runningKept : RunningKept d (d.storeWord w) := by
  unfold Dev.storeWord
  split
  · unfold Dev.storeReset
    split
    · exact .inr rfl
    · exact .inl rfl
  refine .inl ?_
  cases Reg.entryAt w.off 0x100000 64 16384 with
  | some q => exact storeQueue_running d w q
  | none =>
  cases Reg.entryAt w.off 0x20000 32 4096 with
  | some r => exact storeRing_running d w r
  | none =>
  cases Reg.entryAt w.off 0x14000 256 16 with
  | some k => exact running_ite (running_ite (bankEoi_running _ _ _) (storePlain_running _ _)) rfl
  | none =>
  cases Reg.entryAt w.off 0x18000 16 2048 with
  | some v => exact (unmask_running _ _).trans (storePlain_running _ _)
  | none =>
  cases Reg.entryAt w.off 0x400100 16 16 with
  | some p => exact storePlane_running d w p
  | none =>
  cases Reg.entryAt w.off 0x200108 16 36 with
  | some n => exact running_ite (running_ite rfl rfl) (storePlain_running _ _)
  | none =>
  have hown := storePlain_running d w
  exact running_ite (running_ite (eoi_running _ _) rfl) <| running_ite (running_ite (running_ite rfl rfl) rfl) <|
    running_ite (running_ite (clearLatch_running _ _) rfl) <| running_ite (storeHbmCtrl_running _ _) <| running_ite (running_ite rfl rfl) <|
    running_ite (running_ite rfl rfl) <| running_ite (running_ite rfl rfl) <| running_ite (running_ite rfl rfl) <|
    running_ite (running_ite rfl rfl) <| running_ite (storeFabCfg_running _ _) hown

end

theorem RunningKept.trans {d e f : Dev} (h : RunningKept d e) (k : RunningKept e f) : RunningKept d f := by
  rcases k with k | k
  · rcases h with h | h
    · exact .inl (k.trans h)
    · exact .inr (k.trans h)
  · exact .inr k

theorem windowStore_running (d : Dev) (physical : Bool) (id off : Nat) (b : Byte) : (d.windowStore physical id off b).2.io.running = d.io.running := by
  unfold Dev.windowStore
  dsimp only
  repeat' split
  all_goals rfl

theorem storeAt_running (d : Dev) (a : Nat) (b : Byte) : (d.storeAt a b).2.io.running = d.io.running := by
  unfold Dev.storeAt
  split
  · rfl
  split
  · exact windowStore_running _ _ _ _ _
  split
  · exact windowStore_running _ _ _ _ _
  split
  · rfl
  split
  · split <;> rfl
  · rfl

theorem slotStore_running (d : Dev) (n off : Nat) (b : Byte) : (d.slotStore n off b).2.io.running = d.io.running := by
  unfold Dev.slotStore
  split
  · exact windowStore_running _ _ _ _ _
  · rfl

theorem regStore_runningKept (off b0 b1 v : Nat) (d : Dev) : RunningKept d (regStore off b0 b1 v d) := by
  unfold regStore Dev.regWrite
  split
  · exact .inl rfl
  · exact storeWord_runningKept _ _

/-- By the recursion of the bus write on its fuel, in the form the definition compiles to. What would evaluate an address of the map is replaced by a variable first: the kernel would count it down. -/
theorem busWrite_runningKept (fuel : Nat) : ∀ (d : Dev) (a : Nat) (bs : List Byte), RunningKept d (Dev.busWrite regStore d a bs fuel).dev := by
  obtain ⟨slot, hslot⟩ : ∃ slot, slot = slotAt := ⟨_, rfl⟩
  obtain ⟨base, hbase⟩ : ∃ base, base = 0x200000000000 := ⟨_, rfl⟩
  obtain ⟨store, hstore⟩ : ∃ store, store = Dev.storeAt := ⟨_, rfl⟩
  have hkeep := storeAt_running
  rw [← hstore] at hkeep
  delta Dev.busWrite Dev.busWrite._f
  rw [← hslot, ← hbase, ← hstore]
  induction fuel with
  | zero => exact fun _ _ _ => .inl rfl
  | succ fuel ih =>
    intro d a bs
    cases bs with
    | nil => exact .inl rfl
    | cons b rest =>
      dsimp only
      split
      · split
        · exact RunningKept.trans (.inl (slotStore_running _ _ _ _)) (ih _ _ _)
        · exact (regStore_runningKept _ _ _ _ _).trans (ih _ _ _)
      · exact RunningKept.trans (.inl (hkeep _ _ _)) (ih _ _ _)

theorem cmdWrite_runningKept (d : Dev) (q a : Nat) (bs : List Byte) : RunningKept d (d.cmdWrite q a bs).2.2 := by
  have hbus := busWrite_runningKept bs.length d a bs
  unfold Dev.cmdWrite
  dsimp only
  split
  · exact .inl rfl
  split
  · exact .inl rfl
  split
  · split
    · exact .inl rfl
    split
    · exact .inl rfl
    · exact .inl rfl
  · split
    · exact hbus
    · exact hbus

/-! The end of a LOUPE_RUN. -/

theorem pinBlocks_running (d : Dev) (owner n : Nat) (up : Bool) : (d.pinBlocks owner n up).io.running = d.io.running := by
  unfold Dev.pinBlocks
  refine foldl_running (fun e p => ?_) _ d
  rfl

/-- A job that ends, in a device that has kept what runs, runs no more. -/
theorem jobs_of_erased {d e : Dev} {j : Job} {op : Nat} (hj : d.jobs op = [j]) (h : e.io.running = d.io.running.erase j ∨ e.io.running = []) :
    e.jobs op = [] := by
  unfold Dev.jobs at *
  rcases h with h | h
  · rw [h, ← List.erase_filter, hj, List.erase_cons_head]
  · rw [h]
    rfl

theorem waitLoupe_jobs {d : Dev} {j : Job} {op : Nat} (hj : d.jobs op = [j]) : (d.waitLoupe j).jobs op = [] := by
  refine jobs_of_erased hj (.inl ?_)
  show (d.endLoupe j).io.running.erase j = _
  rw [show (d.endLoupe j).io.running = d.io.running from pinBlocks_running _ _ _ _]

theorem bufOut_runningKept (d : Dev) (r : Rhoic) (a : Nat) (bs : List Byte) (p : Reply) :
    ∃ q e, d.bufOut r a bs p = .done q e ∧ RunningKept d e := by
  unfold Dev.bufOut
  split
  · exact ⟨_, d, rfl, .inl rfl⟩
  · have hw := cmdWrite_runningKept d r.qp a bs
    dsimp only
    split
    · exact ⟨_, _, rfl, hw⟩
    · exact ⟨_, _, rfl, hw⟩

theorem closeLoupe_jobs {d : Dev} {j : Job} {op : Nat} (hj : d.jobs op = [j]) : (d.closeLoupe j).jobs op = [] := by
  obtain ⟨q, e, he, hk⟩ := bufOut_runningKept (d.endLoupe j) j.req (arg j.req 24 8) (d.loupeBytes j.req) {}
  have hclose : d.closeLoupe j = e.finishJob j q := by
    simp only [Dev.closeLoupe, he]
  rw [hclose]
  refine jobs_of_erased hj ?_
  rw [(finishJob_replied e j q).running]
  rcases hk with h | h
  · exact .inl (congrArg (List.erase · j) (h.trans (pinBlocks_running _ _ _ _)))
  · exact .inr (by rw [h]; rfl)

/-- Settles O27: the ranges of LOUPE_RUN in order; its end takes it off the commands that run, whatever its buffer's write does. -/
theorem loupeRuns : Obligations.LoupeRuns := by
  unfold Obligations.LoupeRuns
  constructor
  · intro s r x d i h hx
    refine ⟨fun h10 => ?_, fun h10 h12 => ?_, fun h10 h12 h14 => ?_, fun h10 h12 h14 h16 => ?_,
      fun h10 h12 h14 h16 hl h11 hj12 hj14 h70 ha hf ho => next_of_run h (loupeRun_of_free hx h10 h12 h14 h16 hl h11 hj12 hj14 h70 ha hf ho)⟩
    · exact next_of_done h ((loupeRun_of_named hx).trans (if_pos h10))
    · exact next_of_done h ((loupeRun_of_named hx).trans ((if_neg (by omega)).trans (if_pos h12)))
    · exact next_of_done h ((loupeRun_of_named hx).trans ((if_neg (by omega)).trans ((if_neg (by omega)).trans (if_pos h14))))
    · exact next_of_done h ((loupeRun_of_named hx).trans ((if_neg (by omega)).trans ((if_neg (by omega)).trans ((if_neg (Nat.not_lt.2 h14)).trans (if_pos h16)))))
  · refine fun s => ⟨fun hd => congrArg s.next (if_pos (by rw [hd]; rfl)), fun j hd hj => ?_⟩
    have he : effLoupeReferenceDone s.dev = if s.dev.awayBelow j.arg j.arg2 then s.dev.waitLoupe j else s.dev.closeLoupe j := by
      refine (if_neg (by rw [hd]; decide)).trans ?_
      rw [hj]
      rfl
    refine answers_of_eff (congrArg s.next he) fun u hu => ?_
    have hrun : u.dev.io.running = _ := (congrArg Io.running hu.io :)
    rw [Dev.jobs, hrun, ← Dev.jobs]
    split
    · exact waitLoupe_jobs hj
    · exact closeLoupe_jobs hj

end Sys2Proof.Proofs
end

section
/-! PROOFS. ATTEST, HUM_AUTH and ROTATE_KEY, and what leaves over MCTP (21 R451-R465). -/
namespace Sys2Proof.Proofs
open Sys2Proof.Machine Sys2Proof.Laws

/-! ATTEST and HUM_AUTH. -/

section
variable {sec : Sec} {r : Rhoic} {d : Dev}

theorem attest_of_request {x : Nat} {msg : List Byte} {e : Dev} (ho : d.outBeyond r (arg r 32 8) (arg r 40 4) = none)
    (hb : d.bufIn r (arg r 16 8) (arg r 24 4) = (St.success, x, msg, e)) : startAttest sec r d =
      if arg r 40 4 < (e.spdm sec msg).1.length then .done (bad St.paramRange 40) (e.spdm sec msg).2
      else (e.spdm sec msg).2.bufOut r (arg r 32 8) (e.spdm sec msg).1 {} := by
  simp only [startAttest, ho, hb, Option.getD_none, ne_eq, not_true_eq_false, if_false]

/-- An output buffer beyond its region ends the command at once. -/
theorem outBeyond_done {a n : Nat} {st : Start} (h : d.outBeyond r a n = some st) :
    st = .done (bad St.unmappedAddress) (d.unmappedBy r.qp true (d.regionEnd a)) := by
  unfold Dev.outBeyond at h
  split at h
  · exact (Option.some.inj h).symm
  · cases h

theorem attest_of_beyond {st : Start} (ho : d.outBeyond r (arg r 32 8) (arg r 40 4) = some st) :
    startAttest sec r d = .done (bad St.unmappedAddress) (d.unmappedBy r.qp true (d.regionEnd (arg r 32 8))) := by
  rw [← outBeyond_done ho]
  simp only [startAttest, ho, Option.getD_some]

theorem humAuth_of_beyond {st : Start} (ho : d.outBeyond r (arg r 16 8) 64 = some st) :
    startHumAuth r d = .done (bad St.unmappedAddress) (d.unmappedBy r.qp true (d.regionEnd (arg r 16 8))) := by
  rw [← outBeyond_done ho]
  simp only [startHumAuth, ho, Option.getD_some]

theorem humAuth_of_buffer (ho : d.outBeyond r (arg r 16 8) 64 = none) : startHumAuth r d =
    let d2 := (d.challengeHum.updateRide.fresh 6).2
    let result := match d2.pwr.hum with
      | some h => if h.genuine then 0 else 1
      | none => 2
    d2.bufOut r (arg r 16 8) (humBlock result d2.pwr.hum (d.challengeHum.updateRide.fresh 6).1) (if result = 0 then {} else bad St.authFailed) := by
  simp only [startHumAuth, ho, Option.getD_none] <;> rfl

end

/-! ROTATE_KEY. -/

section
variable {sec : Sec} {r : Rhoic} {d : Dev}

theorem rotateKey_badOp (h : 2 < arg r 8 1) : rotateKey r sec d = (sec, .done (bad St.paramRange 8) d) := if_pos h

theorem rotateKey_badSlot (h : arg r 8 1 ≤ 2) (hs : 7 < arg r 9 1) : rotateKey r sec d = (sec, .done (bad St.paramRange 9) d) :=
  (if_neg (Nat.not_lt.2 h)).trans (if_pos hs)

/-- A request whose bytes arrive and which nothing refuses gives the key state of 21 R456. -/
theorem rotateKey_of_accepted {x : Nat} {b : List Byte} {e : Dev} (h : arg r 8 1 ≤ 2) (hs : arg r 9 1 ≤ 7)
    (hn : arg r 24 4 = 16 + rotatePayload (arg r 8 1) + (if (sec.keys.isEmpty && arg r 8 1 == 0 && r.qp == 0) = true then 0 else 4627))
    (hb : d.bufIn r (arg r 16 8) (arg r 24 4) = (St.success, x, b, e))
    (ha : (if (sec.keys.isEmpty && arg r 8 1 == 0 && r.qp == 0) = true then none else e.rotateRefusal sec (arg r 8 1) (arg r 9 1) b) = none)
    (hp : e.pwr.packages ≠ []) : (rotateKey r sec d).1 = rotated sec (arg r 8 1) (arg r 9 1) b := by
  simp only [rotateKey, if_neg (Nat.not_lt.2 h), if_neg (Nat.not_lt.2 hs), ne_eq, hn, not_true_eq_false, if_false]
  rw [← hn, hb]
  simp only [not_true_eq_false, if_false, ha, if_neg hp]
  rfl

/-- A ROTATE_KEY that starts leaves the key state that its request comes to. -/
theorem rotatedSec_of_starts (h : Starts d rowRotateKey [] r) : d.rotatedSec r sec = (rotateKey r sec (d.fetched r).2).1 := by
  obtain ⟨hm, hr, hw⟩ := h
  change (d.fetched r).2.mustWait 0x81 (d.fetched r).1.2 [] r = false at hw
  simp only [Dev.rotatedSec, hm, hr, hw, Bool.not_true, Option.isSome_none, Bool.or_false, Bool.false_eq_true, if_false]

end

theorem exec_rotateKey_of_starts {s : State} {r : Rhoic} (h : Starts s.dev rowRotateKey [] r) :
    exec (.rotateKey r) s = s.nextSec (rotateKey r s.sec (fetchedDev s r)).1 (s.dev.rhoic rowRotateKey [] r fun d => (rotateKey r s.sec d).2) :=
  congrArg (fun k => s.nextSec k (s.dev.rhoic rowRotateKey [] r fun d => (rotateKey r s.sec d).2)) (rotatedSec_of_starts h)

/-- Settles O28: ATTEST and HUM_AUTH by their output buffer, ROTATE_KEY by its checks in order. -/
theorem securityCommands : Obligations.SecurityCommands := by
  unfold Obligations.SecurityCommands
  refine ⟨?_, ?_⟩
  · intro s r d
    refine ⟨fun x msg e h hb ho => ?_, fun st => ⟨fun ho h => next_of_done h (attest_of_beyond ho), fun ho h => next_of_done h (humAuth_of_beyond ho)⟩,
      fun h ho => next_of_bufOut h (humAuth_of_buffer ho), fun h => ⟨fun hop => ?_, fun hop hs => ?_⟩⟩
    · have hs := attest_of_request (sec := s.sec) ho hb
      split
      case isTrue hl => exact next_of_done h (hs.trans (if_pos hl))
      case isFalse hl => exact next_of_bufOut h (hs.trans (if_neg hl))
    · have hk := rotateKey_badOp (sec := s.sec) (r := r) (d := fetchedDev s r) hop
      rw [exec_rotateKey_of_starts h, hk]
      exact next_of_done (start := fun d => (rotateKey r s.sec d).2) h (congrArg Prod.snd hk)
    · have hk := rotateKey_badSlot (sec := s.sec) (r := r) (d := fetchedDev s r) hop hs
      rw [exec_rotateKey_of_starts h, hk]
      exact next_of_done (start := fun d => (rotateKey r s.sec d).2) h (congrArg Prod.snd hk)
  · intro s r d slot n h hs hp
    refine ⟨fun x b e hk h0 hq hn hb he => ⟨_, exec_rotateKey_of_starts h, ?_⟩, fun x b e hk h2 hn hb ha he => ⟨_, exec_rotateKey_of_starts h, ?_⟩⟩
    · have hfirst : (s.sec.keys.isEmpty && arg r 8 1 == 0 && r.qp == 0) = true := by rw [hk, h0, hq]; rfl
      have hrot := rotateKey_of_accepted (sec := s.sec) (d := fetchedDev s r) (by omega) hs (by rw [if_pos hfirst, h0]; exact hn) hb (if_pos hfirst) he
      dsimp only
      rw [hrot, h0, rotated, if_pos rfl, hk]
      exact ⟨rfl, rfl, rfl⟩
    · have hfirst : ¬ (s.sec.keys.isEmpty && arg r 8 1 == 0 && r.qp == 0) = true := by rw [h2]; simp
      have hrot := rotateKey_of_accepted (sec := s.sec) (d := fetchedDev s r) (by omega) hs (by rw [if_neg hfirst, h2]; exact hn) hb
        (by rw [if_neg hfirst, h2]; exact ha) he
      obtain ⟨-, -, hfloor⟩ := rotationAllowed_of_notRefused (by decide) ha
      dsimp only
      rw [hrot, h2, rotated, if_neg (by decide), if_neg (by decide)]
      exact ⟨rfl, hfloor rfl, rfl⟩

/-! What leaves over MCTP. -/

section
variable {d : Dev} (h : ServesMctp d)
include h

theorem overMctp_of_serves (f : Dev → List Byte × Dev) : d.overMctp f = (f d).2.emit (.mctp 0x05 (f d).1) :=
  if_neg (by obtain ⟨h1, h4⟩ := h; simp only [Bool.or_eq_true, decide_eq_true_eq]; omega)

/-- A request that is answered takes one free value (log entry 8). -/
theorem overMctp_of_answer {f : Dev → List Byte × Dev} {code : Nat} {content : List Byte} (hf : f d = d.answer code content) : d.overMctp f =
    answeredMctp d 0x05 (leBytes 1 0x13 ++ leBytes 1 code ++ content ++ Config.standardBytes d.freeCtr content) := by
  rw [overMctp_of_serves h, hf]
  rfl

theorem overMctp_of_error {f : Dev → List Byte × Dev} {code : Nat} (hf : f d = (spdmError code, d)) : d.overMctp f =
    d.emit (.mctp 0x05 (leBytes 1 0x13 ++ leBytes 1 0x7F ++ leBytes 1 code ++ leBytes 1 0)) := by
  rw [overMctp_of_serves h, hf]
  rfl

theorem servesUpdate_of_mctp : d.servesUpdate = true := by
  obtain ⟨h1, h4⟩ := h
  simp only [Dev.servesUpdate, h4, h1, decide_true, Bool.true_and, Bool.true_or]

omit h in
theorem spdmMeasurements_of_all {sec : Sec} {msg : List Byte} (hw : numAt msg 3 1 = 0) (hs : numAt msg 2 1 % 2 = 0) :
    d.spdmMeasurements sec msg = d.answer 0x60 (leBytes 1 7) := by
  simp [Dev.spdmMeasurements, hw, hs]

omit h in
theorem spdmMeasurements_of_one {sec : Sec} {msg : List Byte} (h1 : 1 ≤ numAt msg 3 1) (h7 : numAt msg 3 1 ≤ 7) (hs : numAt msg 2 1 % 2 = 0) :
    d.spdmMeasurements sec msg = d.answer 0x60 (leBytes 1 1 ++ leBytes 1 (numAt msg 3 1) ++ d.measurement sec (numAt msg 3 1)) := by
  have h0 : numAt msg 3 1 ≠ 0 := by omega
  have hff : numAt msg 3 1 ≠ 0xFF := by omega
  simp [Dev.spdmMeasurements, h0, hff, hs, Nat.not_lt.2 h7]

theorem firmwareUpdate_of_serves {sec : Sec} {b : List Byte} : d.firmwareUpdate sec b =
    answeredMctp (if numAt b 8 4 < sec.minSvn ∨ fwGood b = true then d else d.setW1c Reg.errAuth 81) 0x01 (Config.standardBytes d.freeCtr []) := by
  have hctr : (if numAt b 8 4 < sec.minSvn ∨ fwGood b = true then d else d.setW1c Reg.errAuth 81).freeCtr = d.freeCtr := by
    split
    · rfl
    · exact setW1c_freeCtr _ _ _ _ _
  simp only [Dev.firmwareUpdate, servesUpdate_of_mctp h, Bool.or_eq_true, decide_eq_true_eq]
  rw [hctr, if_neg (by decide), answeredMctp, hctr]

theorem updatedFw_of_serves {sec : Sec} {b : List Byte} : updatedFw sec d b =
    if numAt b 8 4 < sec.minSvn then sec else { sec with fw := AMap.insert (1 - d.rd Reg.fwSlot) (fwSlotOf b) sec.fw } := by
  simp [updatedFw, servesUpdate_of_mctp h]

theorem activateFirmware_of_serves (b : Bool) : effActivateFirmware b d =
    if b then (answeredMctp d 0x01 (Config.standardBytes d.freeCtr [])).doDeviceReset else answeredMctp d 0x01 (Config.standardBytes d.freeCtr []) :=
  if_neg (by rw [servesUpdate_of_mctp h]; decide)

theorem pldmMonitoring_of_serves (k : Nat) : effPldmMonitoring k d = answeredMctp d 0x01 (leBytes 2 k ++ Config.pldmBytes d.freeCtr) :=
  if_neg (by obtain ⟨h1, h4⟩ := h; simp only [Bool.or_eq_true, decide_eq_true_eq]; omega)

theorem mctpControl_of_serves (hon : d.pwr.aonOn = true) (m : MctpCtl) : effMctpControl m d =
    let d1 := if m.cmd = 1 then { d with io := { d.io with eids := AMap.insert (m.binding % 2) (m.eid % 256) d.io.eids } } else d
    answeredMctp d1 0x00 (leBytes 1 m.cmd ++ leBytes 1 (AMap.get 0 d1.io.eids (m.binding % 2)) ++ Config.standardBytes d1.freeCtr []) :=
  if_neg (by rw [hon, decide_eq_false (Nat.not_le.2 h.2)]; decide)

end

theorem fresh_length (d : Dev) (words : Nat) : (d.fresh words).1.length = 8 * words := by
  show ((List.range words).flatMap fun i => leBytes 8 (Config.freeWord (d.freeCtr + i)).toNat).length = 8 * words
  induction words with
  | zero => rfl
  | succ n ih =>
    rw [List.range_succ, List.flatMap_append, List.length_append, ih, List.flatMap_cons, List.flatMap_nil, List.append_nil, leBytes_length]
    omega

/-- Settles O29: each request by its answer. -/
theorem mctpAnswers : Obligations.MctpAnswers := by
  unfold Obligations.MctpAnswers
  refine ⟨?_, ?_⟩
  · intro s m h
    refine ⟨congrArg s.next (overMctp_of_answer h rfl), congrArg s.next (overMctp_of_answer h rfl), fun hs => congrArg s.next (overMctp_of_answer h (if_pos hs)),
      fun hs => congrArg s.next (overMctp_of_error h (if_neg (Bool.eq_false_iff.1 hs))), congrArg s.next (overMctp_of_answer h rfl),
      fun hs => congrArg s.next (overMctp_of_error h (if_pos hs)), fun hs => congrArg s.next (overMctp_of_answer h (if_neg (Classical.not_not.2 hs))), ?_,
      fun h7 hff => congrArg s.next (overMctp_of_error h (if_pos ⟨h7, hff⟩)), fun hw hs => congrArg s.next (overMctp_of_answer h (spdmMeasurements_of_all hw hs)),
      fun h1 h7 hs => congrArg s.next (overMctp_of_answer h (spdmMeasurements_of_one h1 h7 hs)), congrArg s.next (overMctp_of_error h rfl)⟩
    refine ⟨_, _, (s.dev.fresh 4).1, _, congrArg s.next (overMctp_of_serves h _), ?_, fresh_length _ _, rfl⟩
    rw [← List.append_assoc]
    exact List.prefix_append _ _
  · intro s h
    refine ⟨fun b => ⟨_, congrArg (fun k => s.nextSec k (s.dev.firmwareUpdate s.sec b)) (updatedFw_of_serves h), firmwareUpdate_of_serves h⟩,
      congrArg s.next (activateFirmware_of_serves h false), congrArg s.next (activateFirmware_of_serves h true),
      fun k => congrArg s.next (pldmMonitoring_of_serves h k), fun m hon hc => ⟨Config.standardBytes s.dev.freeCtr [], congrArg s.next ?_⟩,
      fun m hon hc => ⟨Config.standardBytes s.dev.freeCtr [], congrArg s.next ?_⟩⟩
    · refine (mctpControl_of_serves h hon m).trans ?_
      dsimp only
      rw [if_pos hc, hc]
      dsimp only
      rw [get_insert, if_pos rfl]
    · refine (mctpControl_of_serves h hon m).trans ?_
      dsimp only
      rw [if_neg hc]

end Sys2Proof.Proofs
end

section
/-! PROOFS. Compute descriptors (06 R150-R158). -/
namespace Sys2Proof.Proofs
open Sys2Proof.Machine Sys2Proof.Laws

section
variable {d : Dev} {t n : Nat}

theorem prodBody_run {direct : Bool} {e : Dev} (h : prodBody t direct n d = .run e) : e = d.product t (prodDesc direct n) := by
  unfold prodBody at h
  exact (issueOr_run h).2

/-- A REDUCE of a node of its tree gives its input to the buffer and waits for the tree (06 R155). -/
theorem redBody_run {r : TreeRec} {q : Nat × NodeRec} {e : Dev} (hr : d.treeRec (redDesc n).tree = some r) (hq : d.nodeAt r t = some q)
    (h : redBody t n d = .run e) : e = ((d.setRedBuf { d.redBuf q.2.tile (redDesc n).tree with
        loc := some (if d.recoveryTree (redDesc n).tree = true then ((d.tile t).exact.take (redDesc n).count).flatMap (·.2)
          else redLocal (d.tile t) r (redDesc n))
        desc := n, exact := d.recoveryTree (redDesc n).tree }).waitDesc t none (some (redDesc n).tree) false).redTry q.2.tile (redDesc n).tree := by
  simp only [redBody, hr, Option.bind_some, hq] at h
  exact (issueOr_run h).2

end

/-- Settles O30: each body, past its checks, is its effect. -/
theorem computeDescriptorsRun : Obligations.ComputeDescriptorsRun := by
  unfold Obligations.ComputeDescriptorsRun
  intro s t desc m hi d x n
  refine ⟨fun e he => ⟨prodBody_run he, ?_⟩, fun e he => ⟨prodBody_run he, ?_⟩, fun hf => congrArg s.next (issue_run hi (issueOr_none hf)),
    fun r q b hr hq hb ⟨e, he⟩ => ?_, fun hf => congrArg s.next (issue_run hi (issueOr_none hf)), fun hf => congrArg s.next (issue_run hi (issueOr_none hf)),
    fun hf => congrArg s.next (issue_run hi (issueOr_none hf))⟩
  · rw [← prodBody_run he]
    exact congrArg s.next (issue_run hi he)
  · rw [← prodBody_run he]
    exact congrArg s.next (issue_run hi he)
  · subst hb
    exact congrArg s.next ((issue_run (body := fun _ n d => redBody t n d) hi he).trans (redBody_run hr hq he))

end Sys2Proof.Proofs
end

section
/-! PROOFS. Transfer descriptors (06 R145, R159-R162). -/
namespace Sys2Proof.Proofs
open Sys2Proof.Machine Sys2Proof.Laws

/-! A tile's site after a change of it. -/

section
variable (d : Dev) (t : Nat) (f : Site → Site)

@[simp] theorem onTile_mesh : (d.onTile t f).mesh = d.mesh := by unfold Dev.onTile; split <;> rfl

@[simp] theorem onTile_seatOf (u : Nat) : (d.onTile t f).seatOf u = d.seatOf u := by unfold Dev.onTile; split <;> rfl

theorem tile_onTile (h : (d.seatOf t).isSome = true) : (d.onTile t f).tile t = f (d.tile t) := by
  obtain ⟨p, hp⟩ := Option.isSome_iff_exists.1 h
  rw [Dev.tile, onTile_seatOf, Dev.tile, hp]
  show (d.onTile t f).site p = f (d.site p)
  rw [Dev.onTile, hp, site_setSite, if_pos rfl]

/-- What every site keeps under `f` stays on the tile, whether or not it has a site. -/
theorem onTile_keeps {β : Type} (g : Site → β) (hf : ∀ x, g (f x) = g x) : g ((d.onTile t f).tile t) = g (d.tile t) := by
  by_cases h : (d.seatOf t).isSome = true
  · rw [tile_onTile d t f h, hf]
  · unfold Dev.onTile
    rw [Option.not_isSome_iff_eq_none.1 h]

@[simp] theorem nextDesc_mesh : (d.nextDesc t).mesh = d.mesh := onTile_mesh _ _ _

@[simp] theorem nextDesc_seatOf (u : Nat) : (d.nextDesc t).seatOf u = d.seatOf u := onTile_seatOf _ _ _ _

theorem nextDesc_tokens : ((d.nextDesc t).tile t).tokens = (d.tile t).tokens := by
  refine onTile_keeps d t _ Site.tokens fun x => ?_
  split <;> rfl

end

/-! The tokens of a tile. -/

theorem mem_insert_self {α : Type} (m : List (Nat × α)) (k : Nat) (v : α) : (k, v) ∈ AMap.insert k v m := by
  induction m with
  | nil => exact List.mem_cons_self
  | cons p m ih =>
    rw [AMap.insert]
    split
    · exact List.mem_cons_self
    · split
      · exact List.mem_cons_self
      · exact List.mem_cons_of_mem _ ih

theorem mem_of_mem_insert {α : Type} {m : List (Nat × α)} {k : Nat} {v : α} {e : Nat × α} (h : e ∈ AMap.insert k v m) : e = (k, v) ∨ e ∈ m := by
  induction m with
  | nil => exact .inl (List.mem_singleton.1 h)
  | cons p m ih =>
    rw [AMap.insert] at h
    split at h
    · exact List.mem_cons.1 h
    · split at h
      · rcases List.mem_cons.1 h with h | h
        · exact .inl h
        · exact .inr (List.mem_cons_of_mem _ h)
      · rcases List.mem_cons.1 h with h | h
        · exact .inr (h ▸ List.mem_cons_self)
        · exact (ih h).imp_right (List.mem_cons_of_mem _)

theorem mem_insert_of_ne {α : Type} {m : List (Nat × α)} {k : Nat} {v : α} {e : Nat × α} (h : e ∈ m) (hk : e.1 ≠ k) : e ∈ AMap.insert k v m := by
  induction m with
  | nil => cases h
  | cons p m ih =>
    rw [AMap.insert]
    split
    · exact List.mem_cons_of_mem _ h
    · split
      · next hp =>
        rcases List.mem_cons.1 h with rfl | h
        · exact absurd hp hk
        · exact List.mem_cons_of_mem _ h
      · rcases List.mem_cons.1 h with rfl | h
        · exact List.mem_cons_self
        · exact List.mem_cons_of_mem _ (ih h)

theorem ne_of_find_none {α : Type} {m : List (Nat × α)} {k : Nat} (h : AMap.find m k = none) : ∀ e ∈ m, e.1 ≠ k := by
  induction m with
  | nil => intro e he; cases he
  | cons p m ih =>
    intro e he hk
    rw [AMap.find] at h
    split at h
    · cases h
    · next hp =>
      rcases List.mem_cons.1 he with rfl | he
      · exact hp hk
      · exact ih h e he hk

/-- Every token of the number is one of the opcode, and there is one. -/
def TokenOf (ks : List (Nat × Tok)) (token op : Nat) : Prop := (∃ e ∈ ks, e.1 = token) ∧ ∀ e ∈ ks, e.1 = token → e.2.op = op

section
variable {ks : List (Nat × Tok)} {token op : Nat}

theorem tokenOf_issued {k : Tok} (h : AMap.find ks token = none) (hk : k.op = op) : TokenOf (AMap.insert token k ks) token op := by
  refine ⟨⟨_, mem_insert_self _ _ _, rfl⟩, fun e he ht => ?_⟩
  rcases mem_of_mem_insert he with rfl | he
  · exact hk
  · exact absurd ht (ne_of_find_none h e he)

theorem tokenOf_insert {j : Nat} {k : Tok} (h : TokenOf ks token op) (hk : j = token → k.op = op) : TokenOf (AMap.insert j k ks) token op := by
  obtain ⟨⟨e, he, het⟩, hall⟩ := h
  refine ⟨?_, fun e he ht => ?_⟩
  · by_cases hj : j = token
    · exact ⟨_, mem_insert_self _ _ _, hj⟩
    · exact ⟨e, mem_insert_of_ne he (fun hk => hj (hk.symm.trans het)), het⟩
  · rcases mem_of_mem_insert he with rfl | he
    · exact hk ht
    · exact hall e he ht

theorem tokenOf_any (h : TokenOf ks token op) : (ks.any fun k => k.1 == token && k.2.op == op) = true := by
  obtain ⟨⟨e, he, het⟩, hall⟩ := h
  exact List.any_eq_true.2 ⟨e, he, by simp [het, hall e he het]⟩

end

theorem mem_of_mem_insertBy {α : Type} {before : α → α → Bool} {x y : α} {l : List α} (h : y ∈ insertBy before x l) : y = x ∨ y ∈ l := by
  induction l with
  | nil => exact .inl (List.mem_singleton.1 h)
  | cons z l ih =>
    rw [insertBy] at h
    split at h
    · exact List.mem_cons.1 h
    · rcases List.mem_cons.1 h with h | h
      · exact .inr (h ▸ List.mem_cons_self)
      · exact (ih h).imp_right (List.mem_cons_of_mem _)

theorem mem_of_mem_sortBy {α : Type} {before : α → α → Bool} {y : α} {l : List α} (h : y ∈ sortBy before l) : y ∈ l := by
  suffices hs : ∀ acc, y ∈ l.foldl (fun acc x => insertBy before x acc) acc → y ∈ acc ∨ y ∈ l from (hs [] h).resolve_left (List.not_mem_nil)
  clear h
  induction l with
  | nil => exact fun _ h => .inl h
  | cons x l ih =>
    intro acc h
    rcases ih _ h with h | h
    · exact (mem_of_mem_insertBy h).elim (fun h => .inr (h ▸ List.mem_cons_self)) .inl
    · exact .inr (List.mem_cons_of_mem _ h)

/-- A device in which the packets of a queue have been added to the mesh. -/
def withPackets (d : Dev) (ps : List Packet) : Dev := { d with mesh := { d.mesh with packets := ps } }

/-- The lines of a queue that leave keep each token's number and opcode. -/
theorem pumpQueue_tokenOf {d : Dev} {t token op : Nat} (queue : Nat) (write : Bool) (hs : (d.seatOf t).isSome = true)
    (h : TokenOf (d.tile t).tokens token op) : TokenOf ((d.pumpQueue t queue write).tile t).tokens token op := by
  have hstep (e : Dev) (p : Nat × Tok) (n : Nat) (hse : (e.seatOf t).isSome = true) (he : TokenOf (e.tile t).tokens token op)
      (hp : p ∈ (d.tile t).tokens) : ((e.sendLines t p.1 p.2 n).seatOf t).isSome = true ∧ TokenOf ((e.sendLines t p.1 p.2 n).tile t).tokens token op := by
    unfold Dev.sendLines
    refine ⟨(congrArg Option.isSome (onTile_seatOf (withPackets e _) t _ t)).trans hse, ?_⟩
    show TokenOf (((withPackets e _).onTile t _).tile t).tokens token op
    rw [tile_onTile]
    · exact tokenOf_insert he fun hj => h.2 p hp hj
    · exact hse
  have hall : ∀ p ∈ (d.tile t).queueTokens queue write, p ∈ (d.tile t).tokens := fun p hp => (List.mem_filter.1 (mem_of_mem_sortBy hp)).1
  unfold Dev.pumpQueue
  generalize (d.tile t).queueTokens queue write = l at hall
  suffices hl : ∀ (e : Dev), (e.seatOf t).isSome = true → TokenOf (e.tile t).tokens token op →
      TokenOf ((l.foldl (fun (d : Dev) e => d.sendLines t e.1 e.2 (32 - d.queueFlight t queue write)) e).tile t).tokens token op from hl d hs h
  induction l with
  | nil => exact fun _ _ he => he
  | cons p l ih =>
    intro e hse he
    have hnext := hstep e p (32 - e.queueFlight t queue write) hse he (hall p List.mem_cons_self)
    exact ih (fun p hp => hall p (List.mem_cons_of_mem _ hp)) _ hnext.1 hnext.2

section
variable {d : Dev} {t token : Nat} {k : Tok}

/-- A descriptor that takes its token leaves one of its opcode under the number. -/
theorem issueTok_tokenOf (hs : (d.seatOf t).isSome = true) (hf : AMap.find (d.tile t).tokens token = none) :
    TokenOf (((d.issueTok t token k).tile t).tokens) token k.op := by
  unfold Dev.issueTok
  dsimp only
  rw [nextDesc_tokens]
  split
  · rw [tile_onTile d t _ hs]
    exact tokenOf_issued hf rfl
  · refine pumpQueue_tokenOf _ _ ((congrArg Option.isSome (onTile_seatOf d t _ t)).trans hs) ?_
    rw [tile_onTile d t _ hs]
    exact tokenOf_issued hf rfl

/-- A token that has nothing to move is done at once. -/
theorem issueTok_done (hs : (d.seatOf t).isSome = true) (hk : k.done = true) :
    (((d.issueTok t token k).tile t).tokens.any fun k => k.1 == token && k.2.done) = true := by
  unfold Dev.issueTok
  dsimp only
  rw [nextDesc_tokens, if_pos (by simp [hk]), tile_onTile d t _ hs]
  exact List.any_eq_true.2 ⟨_, mem_insert_self _ _ _, by simp [hk]⟩

theorem issueTok_mesh (hk : k.op ≤ 0x11) : (d.issueTok t token k).mesh = d.mesh := by
  unfold Dev.issueTok
  dsimp only
  rw [if_pos (by simp [hk]), nextDesc_mesh, onTile_mesh]

end

theorem none_of_firstFault {cs : List (Option (Nat × Nat))} (h : firstFault cs = none) : ∀ c ∈ cs, c = none := by
  induction cs with
  | nil => exact fun c hc => absurd hc List.not_mem_nil
  | cons f cs ih =>
    intro c hc
    cases f with
    | some f => exact absurd h (Option.some_ne_none f)
    | none => exact (List.mem_cons.1 hc).elim id (ih h c)

theorem find_of_tokenBusy {x : Site} {token : Nat} (h : tokenBusy x token = none) : AMap.find x.tokens token = none := by
  unfold tokenBusy fault? at h
  split at h
  · cases h
  · next hn => simpa using hn

/-! What each transfer runs to, once no check refuses it. -/

section
variable {d e : Dev} {t n : Nat}

theorem sendBody_run (h : sendBody t n d = .run e) :
    e = if (d.tile t).tokens.any (fun k => k.2.op == 0x10 && k.2.chan == bitsOf n 6 12 && !k.2.done) = true then d.waitDesc t none none false
      else (d.setChan (bitsOf n 6 12) { d.chan (bitsOf n 6 12) with flight := (d.chan (bitsOf n 6 12)).flight ++
          (if bitsOf n 37 20 = 0 then [({ signal := true, last := true } : ChFlit)]
            else flitsOf (memRead (d.tile t).sram (bitsOf n 18 19) (bitsOf n 37 20)) (bitsOf n 37 20 / 64)) }).issueTok t (bitsOf n 57 6)
          { mkTok 0x10 (bitsOf n 18 19) (bitsOf n 37 20) false 0 0 0 false n with chan := bitsOf n 6 12 } := by
  unfold sendBody at h
  exact (issueOr_run h).2

/-- What a RECV posts on its channel. -/
def postedRecv (t n : Nat) : Posted :=
  { tile := t, token := bitsOf n 57 6, loc := bitsOf n 18 19, bytes := bitsOf n 37 20, got := 0, arrived := false }

theorem recvBody_run (h : recvBody t n d = .run e) : e =
    if (d.chan (bitsOf n 6 12)).posted.isSome = true then d.waitDesc t none none false
    else (((d.setChan (bitsOf n 6 12) { d.chan (bitsOf n 6 12) with posted := some (postedRecv t n) }).onTile t fun x =>
          { x with curBind := bitsOf n 18 19 :: x.curBind.filter (· != bitsOf n 18 19),
                   kvBind := x.kvBind.filter fun b => b.1 != bitsOf n 18 19 }).issueTok t (bitsOf n 57 6)
        { mkTok 0x11 (bitsOf n 18 19) (bitsOf n 37 20) true 0 0 0 false n with chan := bitsOf n 6 12 }).takeHeld (bitsOf n 6 12)
        (d.chan (bitsOf n 6 12)).held.length := by
  unfold recvBody at h
  exact (issueOr_run h).2

theorem dramBody_run {write : Bool} (h : dramBody t n write d = .run e) :
    e = if 8 ≤ (d.tile t).queued (bitsOf n 6 2) write then d.waitDesc t none none false
      else (d.unbind t write (bitsOf n 14 19)).issueTok t (bitsOf n 8 6)
        (mkTok (if write then 0x13 else 0x12) (bitsOf n 14 19) (bitsOf n 33 20) (!write) (bitsOf n 6 2) (bitsOf n 53 48) (bitsOf n 33 20) write n) := by
  unfold dramBody at h
  exact (issueOr_run h).2

/-- A fetch with eight reads of its queue outstanding waits; one of a column that holds nothing is done at once. -/
theorem fetchBody_run (hs : (d.seatOf t).isSome = true) (h : fetchBody t n d = .run e) :
    (8 ≤ (d.tile t).queued (bitsOf n 6 2) false → e = d.waitDesc t none none false) ∧
    ((d.tile t).queued (bitsOf n 6 2) false < 8 → ((d.tile t).col (kvDesc n).2.1).valid = false →
      ((e.tile t).tokens.any fun k => k.1 == bitsOf n 8 6 && k.2.done) = true) := by
  unfold fetchBody at h
  have he := (issueOr_run h).2
  subst he
  refine ⟨fun hq => if_pos hq, fun hq hv => ?_⟩
  have hv : ((d.tile t).col (bitsOf n 43 2)).valid = false := hv
  dsimp only
  rw [if_neg (Nat.not_le.2 hq), if_pos (by simp [hv])]
  exact issueTok_done ((congrArg Option.isSome (onTile_seatOf d t _ t)).trans hs) rfl

/-- A store with eight writes of its queue outstanding waits; one of a column that holds nothing is done at once. -/
theorem storeBody_run (hs : (d.seatOf t).isSome = true) (h : storeBody t n d = .run e) :
    (8 ≤ (d.tile t).queued (bitsOf n 6 2) true → e = d.waitDesc t none none false) ∧
    ((d.tile t).queued (bitsOf n 6 2) true < 8 → ((d.tile t).col (kvDesc n).2.1).valid = false →
      ((e.tile t).tokens.any fun k => k.1 == bitsOf n 8 6 && k.2.done) = true) := by
  unfold storeBody at h
  have he := (issueOr_run h).2
  subst he
  refine ⟨fun hq => if_pos hq, fun hq hv => ?_⟩
  have hv : ((d.tile t).col (bitsOf n 43 2)).valid = false := hv
  dsimp only
  rw [if_neg (Nat.not_le.2 hq), if_pos (by simp [hv])]
  exact issueTok_done hs rfl

/-- A residual transfer with eight of its queue outstanding waits, and else takes its token. -/
theorem residBody_run {load : Bool} (hs : (d.seatOf t).isSome = true) (h : residBody t n load d = .run e) :
    (8 ≤ (d.tile t).queued (bitsOf n 6 2) (!load) → e = d.waitDesc t none none false) ∧
    ((d.tile t).queued (bitsOf n 6 2) (!load) < 8 →
      ((e.tile t).tokens.any fun k => k.1 == bitsOf n 8 6 && k.2.op == if load then 0x16 else 0x17) = true) := by
  unfold residBody at h
  obtain ⟨hf, he⟩ := issueOr_run h
  subst he
  have hfree : AMap.find (d.tile t).tokens (bitsOf n 8 6) = none :=
    find_of_tokenBusy (none_of_firstFault hf _ (by simp))
  refine ⟨fun hq => if_pos hq, fun hq => ?_⟩
  dsimp only
  rw [if_neg (Nat.not_le.2 hq)]
  split
  · exact tokenOf_any (issueTok_tokenOf hs hfree)
  · exact tokenOf_any (issueTok_tokenOf hs hfree)

end

/-- Settles O31: each body, past its checks, waits or takes its token. -/
theorem transferDescriptorsRun : Obligations.TransferDescriptorsRun := by
  unfold Obligations.TransferDescriptorsRun
  intro s t desc m hi d x n q token lo waits
  refine ⟨fun e he => ?_, fun e he hp => ?_, fun e he hp hh => ?_, fun e he => ?_, fun e he => ?_,
    fun e he => ⟨congrArg s.next (issue_run hi he), fetchBody_run hi.1 he⟩, fun e he => ⟨congrArg s.next (issue_run hi he), storeBody_run hi.1 he⟩,
    fun e he => ⟨congrArg s.next (issue_run (body := fun _ n d => residBody t n true d) hi he), residBody_run hi.1 he⟩,
    fun e he => ⟨congrArg s.next (issue_run (body := fun _ n d => residBody t n false d) hi he), residBody_run hi.1 he⟩⟩
  · refine (congrArg s.next ((issue_run hi he).trans (sendBody_run he))).trans ?_
    split <;> rfl
  · exact congrArg s.next ((issue_run hi he).trans ((recvBody_run he).trans (if_pos hp)))
  · refine answers_of_eff (congrArg s.next ((issue_run hi he).trans ((recvBody_run he).trans (if_neg (by simp [hp]))))) fun u hu => ?_
    rw [Dev.chan, hu.mesh, hh, List.length_nil]
    unfold Dev.takeHeld
    rw [issueTok_mesh (Nat.le_refl 0x11), onTile_mesh]
    exact congrArg Chan.posted ((chan_setChan d _ _ _).trans (if_pos rfl))
  · refine (congrArg s.next ((issue_run (body := fun _ n d => dramBody t n false d) hi he).trans (dramBody_run he))).trans ?_
    split <;> rfl
  · refine (congrArg s.next ((issue_run (body := fun _ n d => dramBody t n true d) hi he).trans (dramBody_run he))).trans ?_
    split <;> rfl

end Sys2Proof.Proofs
end

section
/-! PROOFS. Control descriptors, the end of a token, the beat watchdog (06 R138, R145, R163). -/
namespace Sys2Proof.Proofs
open Sys2Proof.Machine Sys2Proof.Laws

section
variable {d : Dev} {t : Nat}

/-- A device that has counted one more corrected descriptor. -/
def corrected (d : Dev) : Dev := { d with wafer := { d.wafer with descCorr := d.wafer.descCorr + 1 } }

theorem corrected_seatOf (d : Dev) (t : Nat) : (corrected d).seatOf t = d.seatOf t := rfl

theorem corrected_tile (d : Dev) (t : Nat) : (corrected d).tile t = d.tile t := rfl

/-- A descriptor whose fetch corrects an error is counted, and runs as it does otherwise (06 R138). -/
theorem issue_corr {op : Nat} {desc : Desc} {m : Met} {body : Bool → Nat → Dev → Issue} (hs : d.seatOf t ≠ none)
    (hr : (d.tile t).ready = true) (he : m.descEcc = false) :
    d.issue t op desc { m with descCorr := true } body = (corrected d).issue t op desc { m with descCorr := false } body := by
  have hoff : ((d.seatOf t).isNone || !(d.tile t).ready) = false := by simp [hr, Option.isSome_iff_ne_none.2 hs]
  unfold Dev.issue
  dsimp only
  rw [corrected_seatOf, corrected_tile, hoff, he]
  rfl

/-- A token that is waited for is freed once done, and else keeps the sequencer waiting. -/
theorem issue_waitToken {desc : Desc} {m : Met} {k : Tok} (hi : Issues d t m) (hres : reserved? (withOp 0x20 desc) [(12, 116)] = none)
    (hf : AMap.find (d.tile t).tokens (bitsOf (withOp 0x20 desc) 6 6) = some k) : effWaitToken t desc m d =
      if k.done = true then (d.freeTok t (bitsOf (withOp 0x20 desc) 6 6)).nextDesc t
      else d.waitDesc t (some (bitsOf (withOp 0x20 desc) 6 6)) none false := by
  refine issue_run hi ((issueOr_none (by rw [hres, hf]; rfl)).trans ?_)
  rw [hf]
  rfl

theorem issue_waitToken_unknown {desc : Desc} {m : Met} (hi : Issues d t m) (hres : reserved? (withOp 0x20 desc) [(12, 116)] = none)
    (hf : AMap.find (d.tile t).tokens (bitsOf (withOp 0x20 desc) 6 6) = none) :
    effWaitToken t desc m d = d.imageFault t Rc.tokenNotIssued (bitsOf (withOp 0x20 desc) 6 6) :=
  issue_refuse hi (issueOr_some (f := (Rc.tokenNotIssued, bitsOf (withOp 0x20 desc) 6 6)) (by rw [hres, hf]; rfl))

theorem issue_opcodeInvalid {desc : Desc} {m : Met} (hi : Issues d t m) (hl : listedOpcode (desc.toNat % 64) = false) :
    effOpcodeInvalid t desc m d = d.imageFault t Rc.opcodeInvalid (desc.toNat % 64) := by
  obtain ⟨hseat, hready, hecc, hsram, hbytes, hcorr⟩ := hi
  unfold effOpcodeInvalid
  dsimp only
  rw [if_neg (by simp [hl])]
  exact issue_refuse (m := { m with sramBad := none }) ⟨hseat, hready, hecc, rfl, hbytes, hcorr⟩ rfl

section
variable {token : Nat} {k : Tok} (bad : Option Nat)

theorem effTokenDone_unknown (hf : AMap.find (d.tile t).tokens token = none) : effTokenDone t token bad d = d := by
  unfold effTokenDone
  dsimp only
  rw [hf]

theorem effTokenDone_waiting (hf : AMap.find (d.tile t).tokens token = some k)
    (h : k.done = true ∨ (d.tile t).earlierInQueue k = true ∨ d.moved t token k = false) : effTokenDone t token bad d = d := by
  unfold effTokenDone
  dsimp only
  rw [hf]
  exact if_pos (by rcases h with h | h | h <;> simp [h])

end
end

/-- Settles O32: each control descriptor past its checks, the cases of a token's end, and the watchdog's guard. -/
theorem sequencerCommands : Obligations.SequencerCommands := by
  unfold Obligations.SequencerCommands
  intro s t d x
  refine ⟨fun desc m hs hr he c hc => ?_, ?_, fun token bad => ⟨fun hf => congrArg s.next (effTokenDone_unknown bad hf),
    fun k hf h => congrArg s.next (effTokenDone_waiting bad hf h), ?_⟩, fun h => congrArg s.next (if_pos (by simpa using h)),
    fun hw hf => congrArg s.next (if_neg (Bool.eq_false_iff.1 ?_))⟩
  · simp only [List.mem_cons, List.not_mem_nil, or_false] at hc
    rcases hc with rfl | rfl | rfl | rfl | rfl | rfl | rfl | rfl | rfl | rfl | rfl | rfl | rfl | rfl | rfl | rfl | rfl | rfl
    all_goals exact congrArg s.next (issue_corr hs hr he)
  · intro desc m hi n token
    refine ⟨fun k hres hf => congrArg s.next (issue_waitToken hi hres hf), fun hres hf => congrArg s.next (issue_waitToken_unknown hi hres hf),
      fun hres => congrArg s.next (issue_run hi (issueOr_none (by rw [hres]; rfl))),
      fun hres => congrArg s.next (issue_run hi (issueOr_none (by rw [hres]; rfl))), fun hl => congrArg s.next (issue_opcodeInvalid hi hl)⟩
  · intro k hf hd hq hm hb hop e
    refine congrArg s.next ?_
    unfold effTokenDone
    dsimp only
    rw [hf]
    dsimp only
    have hgo : (k.done || x.earlierInQueue k || !d.moved t token k) = false := by rw [hd, hq, hm]; rfl
    rw [if_neg (Bool.eq_false_iff.1 hgo), hb, if_neg hop]
  · rw [hf, Bool.or_false]
    exact decide_eq_false (Classical.not_not.2 hw)

end Sys2Proof.Proofs
end

section
/-! PROOFS. What FACET_OP and LOG_PRODUCT write, and all that they leave (06 R154, R157). -/
namespace Sys2Proof.Proofs
open Sys2Proof.Machine Sys2Proof.Laws

theorem seatOf_of_wafer {d e : Dev} (h : e.wafer = d.wafer) (t : Nat) : e.seatOf t = d.seatOf t := by
  unfold Dev.seatOf Dev.physOf Dev.table
  rw [h]

theorem site_of_wafer {d e : Dev} (h : e.wafer = d.wafer) (p : Nat) : e.site p = d.site p := by
  unfold Dev.site
  rw [h]

theorem tile_of_wafer {d e : Dev} (h : e.wafer = d.wafer) (t : Nat) : e.tile t = d.tile t := by
  unfold Dev.tile
  rw [seatOf_of_wafer h, show e.site = d.site from funext (site_of_wafer h)]

/-- What no part other than one site of the wafer, the counts of a stage and the occurrences is changed by. -/
structure OneSite (d : Dev) (t : Nat) (x : Site) (e : Dev) : Prop where
  seat : (e.seatOf t).isSome = true
  tile : e.tile t = x
  site : ∀ q, some q ≠ d.seatOf t → e.site q = d.site q
  seatOf : e.seatOf t = d.seatOf t
  regs : e.regs = d.regs
  serve : e.serve = d.serve
  mesh : e.mesh = d.mesh
  fab : e.fab = d.fab
  pwr : e.pwr = d.pwr
  wts : e.wts = d.wts

/-- What differs in occurrences and counts of stages alone. -/
def Counted (d e : Dev) : Prop := e = { d with occ := e.occ, img := { d.img with stats := e.img.stats } }

namespace Counted
variable {d e g : Dev}

theorem refl (d : Dev) : Counted d d := rfl

theorem trans (h : Counted d e) (h' : Counted e g) : Counted d g := by
  unfold Counted at h'
  rw [h] at h'
  exact h'

theorem ite {c : Prop} [Decidable c] (h : Counted d e) : Counted d (if c then e else d) := by
  split
  · exact h
  · exact refl d

theorem descEvent (d : Dev) (t code detail : Nat) : Counted d (d.descEvent t code detail) := rfl

theorem stat (d : Dev) (t stage : Nat) (f : StageStat → StageStat) : Counted d (d.stat t stage f) := rfl

theorem foldl {α : Type} {f : Dev → α → Dev} (hf : ∀ d a, Counted d (f d a)) (l : List α) (d : Dev) : Counted d (l.foldl f d) := by
  induction l generalizing d with
  | nil => exact refl d
  | cons a l ih => exact (hf d a).trans (ih _)

theorem nonfinite (d : Dev) (t : Nat) (cols : List Nat) : Counted d (d.nonfinite t cols) :=
  foldl (fun d c => (descEvent d t _ c).trans (stat _ _ _ _)) cols d

end Counted

namespace OneSite
variable {d e g : Dev} {t : Nat} {x : Site}

theorem onTile (h : OneSite d t x e) (f : Site → Site) : OneSite d t (f x) (e.onTile t f) := by
  obtain ⟨p, hp⟩ := Option.isSome_iff_exists.1 h.seat
  have he : e.onTile t f = e.setSite p (f (e.site p)) := by rw [Dev.onTile, hp]
  refine ⟨by rw [onTile_seatOf]; exact h.seat, by rw [tile_onTile e t f h.seat, h.tile], fun q hq => ?_, by rw [onTile_seatOf]; exact h.seatOf,
    ?_, ?_, ?_, ?_, ?_, ?_⟩
  · rw [onTile_site e t q f (by rw [h.seatOf]; exact hq), h.site q hq]
  all_goals rw [he]
  · exact h.regs
  · exact h.serve
  · exact h.mesh
  · exact h.fab
  · exact h.pwr
  · exact h.wts

theorem refl (h : (d.seatOf t).isSome = true) : OneSite d t (d.tile t) d := ⟨h, rfl, fun _ _ => rfl, rfl, rfl, rfl, rfl, rfl, rfl, rfl⟩

theorem counted (h : OneSite d t x e) (hc : Counted e g) : OneSite d t x g := by
  unfold Counted at hc
  have hw : g.wafer = e.wafer := by rw [hc]
  refine ⟨by rw [seatOf_of_wafer hw]; exact h.seat, by rw [tile_of_wafer hw]; exact h.tile, fun q hq => by rw [site_of_wafer hw]; exact h.site q hq,
    by rw [seatOf_of_wafer hw]; exact h.seatOf, ?_, ?_, ?_, ?_, ?_, ?_⟩
  all_goals rw [hc]
  · exact h.regs
  · exact h.serve
  · exact h.mesh
  · exact h.fab
  · exact h.pwr
  · exact h.wts

/-- The sequencer of a tile that takes descriptors goes on to the next. -/
theorem nextDesc (h : OneSite d t x e) (hx : x.seqState = 1 ∨ x.seqState = 2) : OneSite d t
    { x with seqState := 1, seqIndex := x.seqIndex + 1, waitTok := none, waitTree := none, waitEnd := false } (e.nextDesc t) := by
  have hn := h.onTile fun x => if x.seqState = 1 ∨ x.seqState = 2 then
    { x with seqState := 1, seqIndex := x.seqIndex + 1, waitTok := none, waitTree := none, waitEnd := false } else x
  rwa [if_pos hx] at hn

end OneSite

theorem seqState_of_ready {x : Site} (h : x.ready = true) : x.seqState = 1 ∨ x.seqState = 2 := by
  unfold Site.ready at h
  simp only [Bool.and_eq_true, Bool.or_eq_true, beq_iff_eq] at h
  exact h.2.imp id fun h => h.1.1.1

theorem find_setEntries (m : List (Nat × Entry)) (i : Nat) (es : List Entry) (j : Nat) : AMap.find (setEntries m i es) j =
    if i ≤ j ∧ j < i + es.length then es[j - i]? else AMap.find m j := by
  induction es generalizing m i with
  | nil => exact (if_neg (by simp)).symm
  | cons e es ih =>
    rw [setEntries, ih, find_insert, List.length_cons]
    by_cases hj : j = i
    · subst hj
      rw [if_neg (by omega), if_pos rfl, if_pos (by omega), Nat.sub_self]
      rfl
    · rw [if_neg hj]
      by_cases hr : i + 1 ≤ j ∧ j < i + 1 + es.length
      · rw [if_pos hr, if_pos (by omega), show j - i = j - (i + 1) + 1 by omega]
        rfl
      · rw [if_neg hr, if_neg (by omega)]

section
variable {d : Dev} {t : Nat}

/-- The bytes that a facet operation other than the arg forms writes. -/
def facetBytes (x : Site) (p : FacetDesc) : List Byte :=
  packCodes (fmtBits p.dFmt) ((facetFn false p.func p.scalar (elemsAt x.sram p.aBase p.aFmt p.count 0 p.count)
    (elemsAt x.sram p.bBase p.bFmt p.bCount 0 p.bCount)
    (if p.func = 0x04 then elemsAt x.sram p.dBase p.dFmt p.count 0 p.count else [])).map fun v => (encodeFmt p.dFmt v).code)

/-- A facet operation other than the arg forms changes its tile alone (06 R157). -/
theorem facet_oneSite {p : FacetDesc} (hs : (d.seatOf t).isSome = true) (hr : (d.tile t).ready = true) (hp : p.arg = false) :
    OneSite d t { writeSram (d.tile t) p.dBase (facetBytes (d.tile t) p) with
      seqState := 1, seqIndex := (d.tile t).seqIndex + 1, waitTok := none, waitTree := none, waitEnd := false } (d.facet t p) := by
  unfold Dev.facet
  dsimp only
  rw [hp, if_neg Bool.false_ne_true, List.map_map]
  refine OneSite.nextDesc (x := writeSram (d.tile t) p.dBase (facetBytes (d.tile t) p)) ?_ (seqState_of_ready hr)
  exact ((OneSite.refl hs).onTile fun x => writeSram x p.dBase (facetBytes (d.tile t) p)).counted (Counted.ite (Counted.nonfinite _ t [0]))

/-- The entries that a log product leaves, one per group. -/
def logEntries (x : Site) (p : LogDesc) : List Entry :=
  (List.range (2 ^ p.groups)).map fun g => (p.run x.sram g (if p.accOpen then p.opened else (x.entry? (p.accBase + g)).getD p.opened)).1

/-- A tile after a log product, before its sequencer goes on. -/
def logged (x : Site) (p : LogDesc) : Site := { x with entries := setEntries x.entries p.accBase (logEntries x p), table := none, ranProduct := true }

/-- A log product changes its tile alone (06 R154). -/
theorem logProduct_oneSite {p : LogDesc} (hs : (d.seatOf t).isSome = true) (hr : (d.tile t).ready = true) :
    OneSite d t { logged (d.tile t) p with
      seqState := 1, seqIndex := (d.tile t).seqIndex + 1, waitTok := none, waitTree := none, waitEnd := false } (d.logProduct t p) := by
  unfold Dev.logProduct
  dsimp only
  simp only [List.map_map]
  have ht := (OneSite.refl hs).onTile fun x => { x with entries := setEntries x.entries p.accBase (logEntries (d.tile t) p), table := none, ranProduct := true }
  refine OneSite.nextDesc (x := logged (d.tile t) p) (ht.counted ?_) (seqState_of_ready hr)
  refine (Counted.foldl (fun d lane => Counted.descEvent d t _ lane) _ _).trans (Counted.foldl (fun d g => Counted.ite (Counted.descEvent d t _ _)) _ _)

end

theorem OneSite.rd {d e : Dev} {t : Nat} {x : Site} (h : OneSite d t x e) (f : Fld) : e.rd f = d.rd f := by
  unfold Dev.rd
  rw [h.regs]

/-- Settles O33: either changes its tile alone, and of it what it writes. -/
theorem computeFrames : Obligations.ComputeFrames := by
  unfold Obligations.ComputeFrames
  refine ⟨?_, ?_⟩
  · intro s t desc m hi d x p hf hp a b e bytes
    have ho := facet_oneSite (p := p) hi.1 hi.2.1 hp
    refine answers_of_eff (congrArg s.next (issue_run hi (issueOr_none hf))) fun u hu => ?_
    rw [tile_of_wafer hu.wafer, hu.serve, hu.mesh, hu.fab, hu.pwr, hu.wts]
    have htile := ho.tile
    refine ⟨fun k => ?_, ?_, ?_, ?_, ?_, ?_, fun q hq => (site_of_wafer hu.wafer q).trans (ho.site q hq), fun f hf => (hu.regs f hf).trans (ho.rd f),
      congrArg Serve.streams ho.serve, ho.mesh, ho.fab, ho.pwr, ho.wts⟩
    all_goals rw [htile]
    · exact memGet_memWrite _ _ _ _
    all_goals rfl
  · intro s t desc m hi d x p hf
    have ho := logProduct_oneSite (p := p) hi.1 hi.2.1
    refine answers_of_eff (congrArg s.next (issue_run hi (issueOr_none hf))) fun u hu => ?_
    rw [tile_of_wafer hu.wafer, hu.serve, hu.mesh, hu.fab]
    have htile := ho.tile
    have hlen : (logEntries (d.tile t) p).length = 2 ^ p.groups := by simp [logEntries]
    refine ⟨fun i hi => ?_, fun g hg => ?_, ?_, ?_, ?_, ?_, ?_, fun q hq => (site_of_wafer hu.wafer q).trans (ho.site q hq),
      fun f hf => (hu.regs f hf).trans (ho.rd f), congrArg Serve.streams ho.serve, ho.mesh, ho.fab⟩
    all_goals rw [htile]
    · exact (find_setEntries _ _ _ _).trans (if_neg (by rw [hlen]; omega))
    · refine (find_setEntries _ _ _ _).trans ((if_pos (by rw [hlen]; omega)).trans ?_)
      rw [Nat.add_sub_cancel_left, logEntries, List.getElem?_map, List.getElem?_range hg]
      rfl
    all_goals rfl

end Sys2Proof.Proofs
end

section
/-! PROOFS. Staging, swapping and forwarding of weight packages (16 R376-R382). -/
namespace Sys2Proof.Proofs
open Sys2Proof.Machine Sys2Proof.Laws

/-- What every step keeps, a fold of such steps keeps. -/
theorem foldl_of_step {α : Type} {R : Dev → Dev → Prop} (hrefl : ∀ d, R d d) (htrans : ∀ {d e g}, R d e → R e g → R d g) {f : Dev → α → Dev}
    (hf : ∀ d a, R d (f d a)) (l : List α) (d : Dev) : R d (l.foldl f d) := by
  induction l generalizing d with
  | nil => exact hrefl d
  | cons a l ih => exact htrans (hf d a) (ih _)

/-! Writing weights into the tiles. -/

/-- `e` is `d` but for its sites and for its stripes. -/
def WeightsMoved (d e : Dev) : Prop := e = { d with wafer := e.wafer, img := { d.img with stripes := e.img.stripes } }

namespace WeightsMoved
variable {d e g : Dev}

theorem refl (d : Dev) : WeightsMoved d d := rfl

theorem trans (h : WeightsMoved d e) (k : WeightsMoved e g) : WeightsMoved d g := by
  unfold WeightsMoved at k
  rw [h] at k
  exact k

theorem onTile (d : Dev) (t : Nat) (f : Site → Site) : WeightsMoved d (d.onTile t f) := by
  unfold Dev.onTile
  split <;> rfl

theorem ite {c : Prop} [Decidable c] (h : WeightsMoved d e) (k : WeightsMoved d g) : WeightsMoved d (if c then e else g) := by
  split
  · exact h
  · exact k

theorem writeWeights (d : Dev) (im : Image) (r : TileRec) : WeightsMoved d (d.writeWeights im r) := by
  have hput (d : Dev) (t : Nat) : WeightsMoved d (d.onTile t fun x => { x with weights := im.tileWeights r }) := onTile d t _
  have hself (d : Dev) : WeightsMoved d (if d.works r.tile then d.onTile r.tile fun x => { x with weights := im.tileWeights r } else d) :=
    ite (hput d _) (refl d)
  unfold Dev.writeWeights
  refine ite (ite (hput d _) (refl d)) (foldl_of_step refl trans (fun d e => ?_) _ d)
  obtain ⟨n, i⟩ := e
  dsimp only
  split
  · exact refl d
  · refine ite (refl d) (ite ?_ (ite (refl d) (hself d)))
    split
    · split
      · exact hput d _
      · exact refl d
    · exact hself d

theorem writeAllWeights (d : Dev) (im : Image) : WeightsMoved d (d.writeAllWeights im) :=
  (foldl_of_step refl trans (fun d r => writeWeights d im r) im.weightTiles d).trans rfl

end WeightsMoved

/-! The order of a step of a swap. -/

/-- `e` is `d` but for the reports of the other segments and what has left at the pins. -/
def Ordered (d e : Dev) : Prop := e = { d with fab := { d.fab with swapReports := e.fab.swapReports }, io := { d.io with outbox := e.io.outbox } }

theorem Ordered.trans {d e g : Dev} (h : Ordered d e) (k : Ordered e g) : Ordered d g := by
  unfold Ordered at k
  rw [h] at k
  exact k

theorem orderSwap_ordered (d : Dev) (step : Nat) : Ordered d (d.orderSwap step) :=
  Ordered.trans (e := { d with fab := { d.fab with swapReports := [] } }) rfl
    (foldl_of_step (R := Ordered) (fun _ => rfl) Ordered.trans (fun e _ => (rfl : Ordered e (e.emit _))) _ _)

/-! WEIGHTS_STAGED and WEIGHT_CHUNK. -/

section
variable {d : Dev}

/-- A device whose package has arrived whole, and stands staged. -/
def stagedDev (d : Dev) : Dev :=
  ({ d with wts := { d.wts with staged := some (pkgOf d.wts.arrived), arriving := none, arrived := [], arrivedLen := 0 } }.wr
    Reg.stageState 4).raise { code := Rc.weightsStaged, detail := (pkgOf d.wts.arrived).version, source := 76 }

theorem stagedDev_jobs (d : Dev) (n : Nat) : (stagedDev d).jobs n = d.jobs n := rfl

theorem effWeightsStaged_of_signed (h : d.rd Reg.stageState = 3) (hs : pkgSigned d.wts.arrived = true) :
    effWeightsStaged d = (((stagedDev d).jobs 0x13).foldl (fun d j => d.finishJob j {}) (stagedDev d)).joinStaged :=
  (if_neg (Classical.not_not.2 h)).trans (if_neg (by simp [hs]))

theorem joinStaged_of_none (h : d.fab.joining = none) : d.joinStaged = d := by
  unfold Dev.joinStaged
  rw [h]

theorem weightsStaged_alone (h : d.rd Reg.stageState = 3) (hs : pkgSigned d.wts.arrived = true) (hj : d.jobs 0x13 = [])
    (hn : d.fab.joining = none) : effWeightsStaged d = stagedDev d := by
  rw [effWeightsStaged_of_signed h hs, stagedDev_jobs, hj]
  exact joinStaged_of_none hn

/-- A device whose package has grown by bytes at the next offset. -/
def grownDev (d : Dev) (off : Nat) (data : List Byte) : Dev :=
  { d with wts := { d.wts with arrived := memWrite d.wts.arrived off data, arrivedLen := off + data.length } }.wr Reg.stageBytes (off + data.length)

theorem grownDev_wts (d : Dev) (off : Nat) (data : List Byte) : (grownDev d off data).wts =
    { d.wts with arrived := memWrite d.wts.arrived off data, arrivedLen := off + data.length } := rfl

/-- A chunk at the next offset is taken (16 R380). -/
theorem weightChunk_taken {keys : List (List Byte)} {src version off total : Nat} {data : List Byte} (hd : data ≠ [])
    (ha : d.wts.arriving = some (src, total)) (hv : d.rd Reg.stagedVersion = version) (ho : off = d.wts.arrivedLen)
    (hst : d.rd Reg.stageState < 3) (ht : total = 0 ∨ off + data.length ≤ total) : effWeightChunk keys src version off data d =
      let e := (grownDev d off data).checkArrived keys off
      if e.wts.arriving.isNone then e else (e.sendChunk src version (off + data.length) []).pumpForward maxChunks := by
  subst ho
  unfold effWeightChunk
  rw [if_neg (by simpa using hd), ha]
  exact if_neg (by omega)

theorem weightChunk_discarded {keys : List (List Byte)} {src version off total peer : Nat} {data : List Byte} (hd : data ≠ [])
    (ha : d.wts.arriving = some (peer, total)) (h : peer ≠ src ∨ d.rd Reg.stagedVersion ≠ version ∨ off ≠ d.wts.arrivedLen) :
    effWeightChunk keys src version off data d = d := by
  unfold effWeightChunk
  rw [if_neg (by simpa using hd), ha]
  exact if_pos (h.imp_right fun h => h.imp_right .inl)

theorem weightChunk_unasked {keys : List (List Byte)} {src version off : Nat} {data : List Byte} (hd : data ≠ [])
    (ha : d.wts.arriving = none) : effWeightChunk keys src version off data d = d := by
  unfold effWeightChunk
  rw [if_neg (by simpa using hd), ha]

/-- With less than its header there a package is not judged. -/
theorem checkArrived_of_short {keys : List (List Byte)} {before : Nat} (h : d.wts.arrivedLen < 128) : d.checkArrived keys before = d := by
  unfold Dev.checkArrived
  dsimp only
  rw [if_pos h]
  exact if_pos h

/-- A chunk that leaves the package shorter than its header is taken and reported. -/
theorem weightChunk_short {keys : List (List Byte)} {src version off total : Nat} {data : List Byte} (hd : data ≠ [])
    (ha : d.wts.arriving = some (src, total)) (hv : d.rd Reg.stagedVersion = version) (ho : off = d.wts.arrivedLen)
    (hst : d.rd Reg.stageState < 3) (ht : total = 0 ∨ off + data.length ≤ total) (hl : off + data.length < 128) :
    effWeightChunk keys src version off data d =
      ((grownDev d off data).sendChunk src version (off + data.length) []).pumpForward maxChunks := by
  rw [weightChunk_taken hd ha hv ho hst ht, checkArrived_of_short hl]
  exact if_neg (by rw [grownDev_wts, ha]; exact Bool.false_ne_true)

/-- `e` has the weights of `d` but for what its forward has sent. -/
def ForwardMoved (d e : Dev) : Prop := e.wts = { d.wts with forward := e.wts.forward }

theorem ForwardMoved.trans {e g : Dev} (h : ForwardMoved d e) (k : ForwardMoved e g) : ForwardMoved d g := by
  unfold ForwardMoved at *
  rw [k, h]

theorem sendChunk_wts (peer version off : Nat) (bs : List Byte) : (d.sendChunk peer version off bs).wts = d.wts :=
  (SentFrom.sendMsg d 4 peer _ none).wts

theorem pumpForward_moved (fuel : Nat) (d : Dev) : ForwardMoved d (d.pumpForward fuel) := by
  induction fuel generalizing d with
  | zero => exact rfl
  | succ n ih =>
    unfold Dev.pumpForward
    split
    · exact rfl
    · split
      · exact rfl
      · dsimp only
        split
        · exact rfl
        · refine ForwardMoved.trans ?_ (ih _)
          unfold ForwardMoved
          dsimp only
          rw [sendChunk_wts]

end

/-- Settles O17: the cases of either command. -/
theorem stagingTakesBytes : Obligations.StagingTakesBytes := by
  unfold Obligations.StagingTakesBytes
  refine ⟨fun s => ⟨fun h => congrArg s.next (if_pos h), fun h hs => ?_, fun h hs hj hn => congrArg s.next (weightsStaged_alone h hs hj hn)⟩, ?_⟩
  · exact congrArg s.next ((if_neg (Classical.not_not.2 h)).trans (if_pos (by simp [hs])))
  · intro s src version off data hd
    exact ⟨fun ha => congrArg s.next (weightChunk_unasked hd ha), fun peer total ha => ⟨fun h => congrArg s.next (weightChunk_discarded hd ha h),
      fun hp hv ho hst ht => congrArg s.next (weightChunk_taken hd (hp ▸ ha) hv ho hst ht)⟩⟩

/-! SWAP_WEIGHTS and FORWARD_WEIGHTS. -/

section
variable {d : Dev} {r : Rhoic}

theorem swapWeights_free (hseg : d.rd Reg.segment = 0) (hi : d.rd Reg.imageState = 1) (h11 : d.jobs 0x11 = []) (h12 : d.jobs 0x12 = [])
    (h14 : d.jobs 0x14 = []) (h70 : d.jobs 0x70 = []) : startSwapWeights r d =
      if d.rd Reg.stageState ≠ 4 ∨ d.rd Reg.stagedVersion ≠ arg r 8 4 ∨ d.rd Reg.swapState ≠ 0 then .done (bad St.notStaged) d
      else .run { op := 0x14, req := r } ((d.wr Reg.swapState 1).orderSwap 0) := by
  unfold startSwapWeights
  rw [if_neg (Classical.not_not.2 hseg), hi, if_neg (by decide), if_neg (by decide), if_neg (by simp [h11, h12, h14, h70])]

theorem swapWeights_staged (hseg : d.rd Reg.segment = 0) (hi : d.rd Reg.imageState = 1) (h11 : d.jobs 0x11 = []) (h12 : d.jobs 0x12 = [])
    (h14 : d.jobs 0x14 = []) (h70 : d.jobs 0x70 = []) (hst : d.rd Reg.stageState = 4) (hv : d.rd Reg.stagedVersion = arg r 8 4)
    (hsw : d.rd Reg.swapState = 0) : startSwapWeights r d = .run { op := 0x14, req := r } ((d.wr Reg.swapState 1).orderSwap 0) :=
  (swapWeights_free hseg hi h11 h12 h14 h70).trans (if_neg (by simp [hst, hv, hsw]))

theorem forwardWeights_other (hm : d.hostMode 7 = false) (hp : ¬ (1024 ≤ arg r 12 2 ∨ arg r 12 2 = d.rd Reg.fabDevice)) :
    startForwardWeights r d =
      if arg r 16 4 % 2 ^ 20 ≠ 0 ∨ arg r 16 4 = 0 ∨ 64 * 2 ^ 20 < arg r 16 4 then .done (bad St.paramRange 16) d
      else if !(d.jobs 0x63).isEmpty then .wait d
      else if (d.pkgFor (arg r 8 4)).isNone then .done (bad St.notStaged) d
      else if d.peerGone (arg r 12 2) then .done (bad St.peerUnreachable (arg r 12 2)) d
      else .run { op := 0x63, req := r }
        ({ d with wts := { d.wts with forward := some { peer := arg r 12 2, version := arg r 8 4, chunk := arg r 16 4 } } }.wr Reg.fwdActive 1) :=
  (if_neg (Bool.eq_false_iff.1 hm)).trans (if_neg hp)

theorem forwardWeights_runs (hm : d.hostMode 7 = false) (hp : arg r 12 2 < 1024) (hself : arg r 12 2 ≠ d.rd Reg.fabDevice)
    (hmul : arg r 16 4 % 2 ^ 20 = 0) (hpos : 0 < arg r 16 4) (hmax : arg r 16 4 ≤ 64 * 2 ^ 20) (hj : d.jobs 0x63 = [])
    (hv : d.pkgFor (arg r 8 4) ≠ none) (hg : d.peerGone (arg r 12 2) = false) : startForwardWeights r d =
      .run { op := 0x63, req := r }
        ({ d with wts := { d.wts with forward := some { peer := arg r 12 2, version := arg r 8 4, chunk := arg r 16 4 } } }.wr Reg.fwdActive 1) := by
  rw [forwardWeights_other hm (by omega), if_neg (by omega), if_neg (by simp [hj]), if_neg (by simpa using hv), if_neg (Bool.eq_false_iff.1 hg)]

end

/-! The copies of a swap. -/

section
variable {d : Dev}

/-- The copy step writes the weights of the swapped image (16 R381). -/
def swappedDev (d : Dev) : Dev :=
  { d.writeAllWeights d.swappedImage with wts := { (d.writeAllWeights d.swappedImage).wts with copied := true } }

theorem swappedDev_rd (f : Fld) : (swappedDev d).rd f = d.rd f := by
  show (d.writeAllWeights d.swappedImage).rd f = d.rd f
  rw [WeightsMoved.writeAllWeights d d.swappedImage]
  rfl

theorem swapCopyDone_blocked (h : d.rd Reg.swapState ≠ 3 ∨ d.wts.copied = true ∨ d.drained = false) : effSwapCopyDone d = d :=
  if_pos (by rcases h with h | h | h <;> simp [h])

theorem swapCopyDone_copies (h : d.rd Reg.swapState = 3) (hc : d.wts.copied = false) (hd : d.drained = true) : effSwapCopyDone d =
    if d.rd Reg.segment = 0 then swappedDev d
    else (swappedDev d).emit (.ctl (((swappedDev d).fab.table.find? fun e => e.2.seg == 0 && e.2.state == 2).map (·.1)
      |>.getD ((swappedDev d).rd Reg.segPrev)) (.swapReport ((swappedDev d).rd Reg.fabDevice) 3)) :=
  if_neg (by simp [h, hc, hd])

/-- The region of the weights takes the new ones, where the image has one. -/
def copiedBack (d : Dev) : Dev :=
  match d.image.regions.find? fun r => r.kind == 0 with
  | some r => d.fillRegion r d.image.weights d.image.weightsLen
  | none => d

theorem copiedBack_frame (d : Dev) : ∃ m, copiedBack d = { d with mem := { d.mem with dram := m } } := by
  unfold copiedBack
  split
  · exact ⟨_, rfl⟩
  · exact ⟨d.mem.dram, rfl⟩

/-- The forward of a version that is now swapped keeps the package it sends of. -/
def ownForward (d : Dev) (f : Fwd) : Fwd := if f.version = d.rd Reg.activeVersion ∧ f.own.isNone then { f with own := d.wts.staged } else f

theorem clearStage_stagedVersion (d : Dev) : d.clearStage.rd Reg.stagedVersion = 0 := by
  unfold Dev.clearStage
  dsimp only
  rw [rd_wr_of_ne _ _ _ _ (by decide), rd_wr_of_ne _ _ _ _ (by decide), rd_wr_of_ne _ _ _ _ (by decide)]
  exact rd_wr _ _ 0

theorem clearStage_stageState (d : Dev) : d.clearStage.rd Reg.stageState = 0 := by
  unfold Dev.clearStage
  dsimp only
  rw [rd_wr_of_ne _ _ _ _ (by decide), rd_wr_of_ne _ _ _ _ (by decide)]
  exact rd_wr _ _ 0

/-- A device whose copy-back has ended, before the swap state says so. -/
def copiedDev (d : Dev) : Dev :=
  { (copiedBack d).clearStage with wts := { (copiedBack d).clearStage.wts with copyBack := false, forward := d.wts.forward.map (ownForward d) } }

theorem copiedDev_rd (d : Dev) (f : Fld) : (copiedDev d).rd f = (copiedBack d).clearStage.rd f := rfl

theorem copiedDev_serve (d : Dev) : (copiedDev d).serve = d.serve := by
  obtain ⟨m, hm⟩ := copiedBack_frame d
  unfold copiedDev
  rw [hm]
  rfl

theorem weightCopyDone_copies (h : d.wts.copyBack = true) : effWeightCopyDone d =
    ((copiedDev d).wr Reg.swapState 0).raise { code := Rc.weightCopyDone, detail := d.rd Reg.activeVersion, source := 76 } :=
  if_neg (by simp [h])

/-- What a copy-back that ends leaves (16 R382). -/
theorem weightCopyDone_leaves {s : State} (h : s.dev.wts.copyBack = true) : Answers .weightCopyDone s fun t =>
    t.dev.wts.copyBack = false ∧ t.dev.wts.staged = none ∧ t.dev.wts.arriving = none ∧ t.dev.rd Reg.swapState = 0 ∧
      t.dev.rd Reg.stagedVersion = 0 ∧ t.dev.rd Reg.stageState = 0 ∧ t.dev.serve = s.dev.serve ∧
      ∀ f ∈ t.dev.mem.frames, f.2 ≠ stagingOwner := by
  refine answers_of_eff (congrArg s.next (weightCopyDone_copies h)) fun u hu => ?_
  rw [hu.wts, hu.regs Reg.swapState (plain_of _ (by decide) (by decide)), hu.regs Reg.stagedVersion (plain_of _ (by decide) (by decide)),
    hu.regs Reg.stageState (plain_of _ (by decide) (by decide)), hu.serve, hu.frames, rd_raise, rd_raise, rd_raise,
    rd_wr_of_ne (copiedDev s.dev) Reg.swapState Reg.stagedVersion 0 (by decide), rd_wr_of_ne (copiedDev s.dev) Reg.swapState Reg.stageState 0 (by decide),
    copiedDev_rd, copiedDev_rd]
  refine ⟨rfl, rfl, rfl, rd_wr _ _ 0, clearStage_stagedVersion _, clearStage_stageState _, copiedDev_serve s.dev, fun f hf => ?_⟩
  have hne := (List.mem_filter.1 (show f ∈ (copiedBack s.dev).mem.frames.filter (fun e => e.2 != stagingOwner) from hf)).2
  simpa using hne

end

/-- Settles O18: the refusals, and the effect of each command where none stands. -/
theorem swapsAndForwards : Obligations.SwapsAndForwards := by
  unfold Obligations.SwapsAndForwards
  refine ⟨fun s r => ⟨fun hst => ⟨fun h => next_of_done hst (if_pos h), fun h hi => next_of_done hst ((if_neg (Classical.not_not.2 h)).trans (if_pos hi)),
    fun h hi => ?_, fun h hi h11 h12 h14 h70 => ⟨fun hn => next_of_done hst ((swapWeights_free h hi h11 h12 h14 h70).trans (if_pos hn)),
      fun h4 hv hsw => next_of_run hst (swapWeights_staged h hi h11 h12 h14 h70 h4 hv hsw)⟩⟩,
    fun hst hm => ⟨fun hp => next_of_done hst ((if_neg (Bool.eq_false_iff.1 hm)).trans (if_pos hp)),
      fun hp hself => ⟨fun hc => next_of_done hst ((forwardWeights_other hm (by omega)).trans (if_pos hc)),
        fun hmul hpos hmax hj hv hg => next_of_run hst (forwardWeights_runs hm hp hself hmul hpos hmax hj hv hg)⟩⟩⟩,
    fun s => ⟨fun h hc hd hseg => congrArg s.next ((swapCopyDone_copies h hc hd).trans (if_pos hseg)),
      fun h => congrArg s.next (swapCopyDone_blocked h), fun h => congrArg s.next (if_pos (by simp [h])), fun h => ?_⟩⟩
  · refine next_of_done hst ((if_neg (Classical.not_not.2 h)).trans ((if_neg (fun h0 => ?_)).trans (if_pos hi)))
    exact absurd (hi.symm.trans h0) (by decide)
  · obtain ⟨t, ht, h1, h2, h3, h4, h5, h6, h7, -⟩ := weightCopyDone_leaves h
    exact ⟨t, ht, h1, h2, h3, h4, h5, h6, h7⟩

/-- A job that a command leaves running is among those of the next state. -/
theorem running_of_runsOn {s : State} {u : Dev} {e : Dev} {j : Job} {row : Row} {objs : List Obj} {r : Rhoic}
    (hu : SameButRecords { e with io := { e.io with running := e.io.running ++ [jobOf row.op objs (accepted s r) (s.dev.fetched r).1 j] } } u) :
    ∃ j ∈ u.io.running, j.op = row.op :=
  ⟨jobOf row.op objs (accepted s r) (s.dev.fetched r).1 j, by rw [(congrArg Io.running hu.io :)]; exact List.mem_append_right _ (List.mem_singleton.2 rfl), rfl⟩

/-- Settles O19: from the effect of each command. -/
theorem weightCommandsComplete : Obligations.WeightCommandsComplete := by
  unfold Obligations.WeightCommandsComplete
  refine ⟨fun s h hs => congrArg s.next (effWeightsStaged_of_signed h hs), ?_, ?_, fun s h hc hd => ?_, fun s h => ?_, ?_⟩
  · intro s src version off total data hd ha hv ho hst ht hlen
    refine answers_of_eff (congrArg s.next (weightChunk_short hd ha hv ho.symm hst ht hlen)) fun u hu => ?_
    rw [hu.wts, pumpForward_moved, sendChunk_wts]
    exact ⟨rfl, rfl, ha, rfl⟩
  · intro s r d hst hseg hi h11 h12 h14 h70 h4 hv hsw
    refine answers_of_eff (next_of_run hst (swapWeights_staged hseg hi h11 h12 h14 h70 h4 hv hsw)) fun u hu => ?_
    refine ⟨?_, ?_, ?_, running_of_runsOn hu⟩
    · refine (hu.regs Reg.swapState (plain_of _ (by decide) (by decide))).trans ?_
      show ((d.wr Reg.swapState 1).orderSwap 0).rd Reg.swapState = 1
      rw [orderSwap_ordered]
      exact rd_wr _ _ 1
    · refine hu.serve.trans ?_
      show ((d.wr Reg.swapState 1).orderSwap 0).serve = d.serve
      rw [orderSwap_ordered]
      rfl
    · refine hu.wts.trans ?_
      show ((d.wr Reg.swapState 1).orderSwap 0).wts = d.wts
      rw [orderSwap_ordered]
      rfl
  · refine answers_of_eff (congrArg s.next (swapCopyDone_copies h hc hd)) fun u hu => ?_
    rw [hu.wts, hu.wafer, hu.regs Reg.swapState (plain_of _ (by decide) (by decide))]
    split
    · exact ⟨rfl, rfl, (swappedDev_rd _).trans h⟩
    · exact ⟨rfl, rfl, (swappedDev_rd _).trans h⟩
  · obtain ⟨t, ht, h1, h2, -, h4, -, h6, -, h8⟩ := weightCopyDone_leaves h
    exact ⟨t, ht, h1, h2, h4, h6, h8⟩
  · intro s r d hst hm hp hself hmul hpos hmax hj hv hg
    refine answers_of_eff (next_of_run hst (forwardWeights_runs hm hp hself hmul hpos hmax hj hv hg)) fun u hu => ?_
    refine ⟨(hu.regs Reg.fwdActive (plain_of _ (by decide) (by decide))).trans (rd_wr _ _ 1), congrArg Wts.forward hu.wts, running_of_runsOn hu⟩

end Sys2Proof.Proofs
end

section
/-! PROOFS. PATCH and its end; what the girdles' arrangement leaves (08 R206-R208, 09 R228). -/
namespace Sys2Proof.Proofs
open Sys2Proof.Machine Sys2Proof.Laws

/-! Girdle stripes are arranged: sites, tree edits and channel edits alone change. -/

/-- `e` is `d` but for its sites and the edits of trees and channels. -/
def Arranged (d e : Dev) : Prop :=
  e = { d with wafer := { d.wafer with sites := e.wafer.sites }, img := { d.img with treeEdits := e.img.treeEdits, chanEdits := e.img.chanEdits } }

namespace Arranged
variable {d e g : Dev}

theorem refl (d : Dev) : Arranged d d := rfl

theorem trans (h : Arranged d e) (k : Arranged e g) : Arranged d g := by
  unfold Arranged at k
  rw [h] at k
  exact k

theorem ite {c : Prop} [Decidable c] (h : Arranged d e) (k : Arranged d g) : Arranged d (if c then e else g) := by
  split
  · exact h
  · exact k

theorem onTile (d : Dev) (t : Nat) (f : Site → Site) : Arranged d (d.onTile t f) := by
  unfold Dev.onTile
  split <;> rfl

theorem loadProgram (d : Dev) (guest host : Nat) : Arranged d (d.loadProgram guest host) := by
  unfold Dev.loadProgram
  split
  · exact onTile d _ _
  · exact refl d

theorem arrangeTile (d : Dev) (t : Nat) : Arranged d (d.arrangeTile t) := by
  unfold Dev.arrangeTile
  split
  · exact ite (refl d) (onTile d _ _)
  · exact refl d

theorem arrangeTree (d : Dev) (r : StripeRec) (lost : Option Nat) : Arranged d (d.arrangeTree r lost) := by
  unfold Dev.arrangeTree
  dsimp only
  split
  · split <;> rfl
  · rfl

theorem arrangeTaps (d : Dev) (n : Nat) (r : StripeRec) (lost : Option Nat) : Arranged d (d.arrangeTaps n r lost) := by
  unfold Dev.arrangeTaps
  refine foldl_of_step refl trans (fun d i => ?_) _ d
  split
  · exact onTile d _ _
  · exact refl d

theorem arrange (d : Dev) (n : Nat) : Arranged d (d.arrange n) := by
  unfold Dev.arrange
  split
  · exact refl d
  · exact ((arrangeTree d _ _).trans (arrangeTaps _ _ _ _)).trans (foldl_of_step refl trans (fun d (g : Nat × Nat) => arrangeTile d g.1) _ _)

theorem arrangeAll (d : Dev) : Arranged d d.arrangeAll := foldl_of_step refl trans arrange _ d

end Arranged

section
variable {d : Dev} {r : Rhoic}

theorem patch_unknown (h11 : d.jobs 0x11 = []) (h12 : d.jobs 0x12 = []) (hi : d.rd Reg.imageState = 1)
    (hg : d.image.regions.find? (fun g => g.num == arg r 8 1) = none) : startPatch r d = .done (bad St.paramRange 8) d := by
  unfold startPatch
  dsimp only
  rw [h11, h12, hi, if_neg (by decide), if_neg (by decide), if_neg (by decide), hg]

theorem patch_known {g : RegionRec} (h11 : d.jobs 0x11 = []) (h12 : d.jobs 0x12 = []) (hi : d.rd Reg.imageState = 1)
    (hg : d.image.regions.find? (fun g => g.num == arg r 8 1) = some g) : startPatch r d =
      if arg r 16 8 % 4096 ≠ 0 ∨ d.dramTop < arg r 16 8 + g.size ∨ ((g.kind == 2 || g.kind == 3) ∧ d.mirrorBytes < arg r 16 8 + g.size) then
        .done (bad St.paramRange 16) d
      else if d.overlapsTaken (g.kind == 2 || g.kind == 3) (arg r 16 8) g.size then .done (bad St.patchOverlap (arg r 8 1)) d
      else if Config.yieldBase < arg r 16 8 + g.size then .done (bad St.dramCapacity) d
      else .run { op := 0x11, req := r }
        ({ d with mem := { d.mem with allocs := insertAlloc { base := arg r 16 8, size := g.size, kind := 3, owner := arg r 8 1 } d.mem.allocs },
                  img := { d.img with patching := some (arg r 8 1, arg r 16 8) } }.hold 5) := by
  unfold startPatch
  dsimp only
  rw [h11, h12, hi, if_neg (by decide), if_neg (by decide), if_neg (by decide), hg]

/-- Where no image stands to be patched, PATCH is refused. -/
theorem patch_refused (h11 : d.jobs 0x11 = []) (h12 : d.jobs 0x12 = []) (h : d.rd Reg.imageState = 0 ∨ d.rd Reg.imageState = 2) :
    startPatch r d = .done (if d.rd Reg.imageState = 0 then bad St.noImage else bad St.imageStopped) d := by
  unfold startPatch
  dsimp only
  rw [h11, h12, if_neg (by decide)]
  rcases h with h | h <;> rw [h] <;> rfl

end

/-! The end of a patch. -/

/-- `e` keeps the image part and the holds of `d`. -/
def HoldsKept (d e : Dev) : Prop := e.img = d.img ∧ e.serve.holds = d.serve.holds

theorem finishJobs_holdsKept (l : List Job) (p : Reply) (d : Dev) : HoldsKept d (l.foldl (fun d j => d.finishJob j p) d) := by
  refine foldl_of_step (R := HoldsKept) (fun _ => ⟨rfl, rfl⟩) (fun h k => ⟨k.1.trans h.1, k.2.trans h.2⟩) (fun d j => ?_) l d
  have h := finishJob_replied d j p
  exact ⟨h.img, (congrArg Serve.holds h.serve :)⟩

/-- An image whose region has moved. -/
def movedImage (im : Image) (num b : Nat) (g : RegionRec) : Image :=
  { im with tiles := im.tiles.map (relocate im.relocs num ((b : Int) - g.base)),
            regions := im.regions.map fun h => if h.num = num then { h with base := b } else h }

/-- A device whose region has moved, before its programs are loaded again. -/
def movedDev (d : Dev) (im : Image) (num b : Nat) (g : RegionRec) : Dev :=
  { d.moveRegion g b with img := { d.img with active := some (movedImage im num b g), patching := none } }

/-- The programs with an address of the region are loaded again. -/
def reloadedDev (d : Dev) (im : Image) (num b : Nat) (g : RegionRec) : Dev :=
  (((im.relocs.filter fun q => q.region == num).map (·.tile)).eraseDups.foldl (fun (d : Dev) t => d.loadProgram t (d.hostOf t))
    (movedDev d im num b g)).arrangeAll

theorem reloadedDev_arranged (d : Dev) (im : Image) (num b : Nat) (g : RegionRec) : Arranged (movedDev d im num b g) (reloadedDev d im num b g) :=
  (foldl_of_step Arranged.refl Arranged.trans (fun d t => Arranged.loadProgram d t _) _ _).trans (Arranged.arrangeAll _)

theorem patchCopyDone_moves {d : Dev} {num b : Nat} {im : Image} {g : RegionRec} (hp : d.img.patching = some (num, b))
    (ha : d.img.active = some im) (hd : d.drained = true) (hg : im.regions.find? (fun h => h.num == num) = some g) : effPatchCopyDone d =
      ((reloadedDev d im num b g).jobs 0x11).foldl (fun d j => d.finishJob j {}) ((reloadedDev d im num b g).release 5) := by
  unfold effPatchCopyDone
  rw [hp, ha]
  dsimp only
  rw [hd, hg, if_neg (by decide)]
  rfl

/-- Settles O15: the cases of PATCH; and the image after a patch has its region at the new base. -/
theorem patchMovesRegion : Obligations.PatchMovesRegion := by
  unfold Obligations.PatchMovesRegion
  refine ⟨?_, ?_⟩
  · intro s r d b hst
    refine ⟨fun hi h11 h12 => ?_, fun hi h11 h12 => ?_, fun hi h11 h12 => ⟨fun hg => ?_, fun g hg => ⟨fun hb => ?_, fun hb ht hm ho hy => ?_⟩⟩⟩
    · exact next_of_done hst ((patch_refused h11 h12 (.inl hi)).trans (by rw [if_pos hi]))
    · exact next_of_done hst ((patch_refused h11 h12 (.inr hi)).trans (by rw [if_neg (by rw [hi]; decide)]))
    · exact next_of_done hst (patch_unknown h11 h12 hi hg)
    · exact next_of_done hst ((patch_known h11 h12 hi hg).trans (if_pos (.inl hb)))
    · refine next_of_run hst ((patch_known h11 h12 hi hg).trans ?_)
      refine (if_neg ?_).trans ((if_neg (Bool.eq_false_iff.1 ho)).trans (if_neg (Nat.not_lt.2 hy)))
      rintro (h | h | ⟨h, h'⟩)
      · exact h hb
      · exact absurd ht (Nat.not_le.2 h)
      · exact hm ⟨by simpa using h, h'⟩
  · intro s num b im g hp ha hd hg
    refine answers_of_eff (congrArg s.next (patchCopyDone_moves hp ha hd hg)) fun u hu => ?_
    have hk := finishJobs_holdsKept ((reloadedDev s.dev im num b g).jobs 0x11) {} ((reloadedDev s.dev im num b g).release 5)
    have himg : u.dev.img = (reloadedDev s.dev im num b g).img := hu.img.trans hk.1
    rw [himg, reloadedDev_arranged]
    refine ⟨rfl, ?_, movedImage im num b g, rfl, rfl⟩
    rw [Dev.held, hu.serve, hk.2]
    simp [Dev.release]

end Sys2Proof.Proofs
end

section
/-! PROOFS. What the recovery from a loss leaves as it was: interrupted beats, halted tiles, girdle stripes, reserves (09 R226-R231, 20 R432-R434). -/
namespace Sys2Proof.Proofs
open Sys2Proof.Machine Sys2Proof.Laws

/-- What of the image part tells which image is loaded, placed and active. -/
structure ImgKept (d e : Dev) : Prop where
  loaded : e.img.loaded = d.img.loaded
  active : e.img.active = d.img.active
  activating : e.img.activating = d.img.activating
  placed : e.img.placed = d.img.placed
  everActive : e.img.everActive = d.img.everActive
  model : e.img.model = d.img.model

namespace ImgKept
variable {d e g : Dev}

theorem refl (d : Dev) : ImgKept d d := ⟨rfl, rfl, rfl, rfl, rfl, rfl⟩

theorem trans (h : ImgKept d e) (k : ImgKept e g) : ImgKept d g :=
  ⟨k.loaded.trans h.loaded, k.active.trans h.active, k.activating.trans h.activating, k.placed.trans h.placed,
    k.everActive.trans h.everActive, k.model.trans h.model⟩

theorem of_img (h : e.img = d.img) : ImgKept d e := by constructor <;> rw [h]

theorem ite {c : Prop} [Decidable c] (h : ImgKept d e) (k : ImgKept d g) : ImgKept d (if c then e else g) := by
  split
  · exact h
  · exact k

end ImgKept

/-- A register of the fields and oscillators or of the memory stacks. -/
def Lasting (f : Fld) : Prop := f.lo < 64 ∧ (0x200000 ≤ f.off ∧ f.off < 0x300000 ∨ 0x500000 ≤ f.off ∧ f.off < 0x600000)

/-- `e` is `d` after a part of a recovery: registers of fields, oscillators and stacks, lost tiles and fields, and which image stands, are as they were;
a double fault that stood stands. -/
structure Steady (d e : Dev) : Prop where
  regs : ∀ f, Lasting f → e.rd f = d.rd f
  double : d.rd Reg.errDouble = 1 → e.rd Reg.errDouble = 1
  doubleFault : d.pwr.doubleFault = true → e.pwr.doubleFault = true
  lostTiles : e.wafer.lostTiles = d.wafer.lostTiles
  lostFields : e.wafer.lostFields = d.wafer.lostFields
  img : ImgKept d e

namespace Steady
variable {d e g : Dev}

theorem of_same (h : e.regs = d.regs ∧ e.pwr.doubleFault = d.pwr.doubleFault ∧ e.wafer.lostTiles = d.wafer.lostTiles ∧
    e.wafer.lostFields = d.wafer.lostFields ∧ ImgKept d e) : Steady d e := by
  obtain ⟨hr, hp, ht, hf, hi⟩ := h
  have hrd (f : Fld) : e.rd f = d.rd f := by rw [Dev.rd, Dev.rd, hr]
  exact ⟨fun f _ => hrd f, fun h => (hrd _).trans h, fun h => hp.trans h, ht, hf, hi⟩

theorem refl (d : Dev) : Steady d d := of_same (by repeat constructor)

theorem trans (h : Steady d e) (k : Steady e g) : Steady d g :=
  ⟨fun f hf => (k.regs f hf).trans (h.regs f hf), fun hd => k.double (h.double hd), fun hd => k.doubleFault (h.doubleFault hd),
    k.lostTiles.trans h.lostTiles, k.lostFields.trans h.lostFields, h.img.trans k.img⟩

theorem ite {c : Prop} [Decidable c] (h : Steady d e) (k : Steady d g) : Steady d (if c then e else g) := by
  split
  · exact h
  · exact k

theorem foldl {α : Type} {f : Dev → α → Dev} (hf : ∀ d a, Steady d (f d a)) (l : List α) (d : Dev) : Steady d (l.foldl f d) :=
  foldl_of_step refl trans hf l d

/-- A write of a register that is none of them. -/
theorem wr (d : Dev) (f : Fld) (v : Nat) (hlo : f.lo < 64) (hoff : f.off < 0x200000 ∨ 0x300000 ≤ f.off ∧ f.off < 0x500000 ∨ 0x600000 ≤ f.off)
    (hd : fldKey f ≠ fldKey Reg.errDouble) : Steady d (d.wr f v) := by
  refine ⟨fun g hg => rd_wr_of_ne _ _ _ _ ?_, fun h => (rd_wr_of_ne _ _ _ _ hd.symm).trans h, id, rfl, rfl, ⟨rfl, rfl, rfl, rfl, rfl, rfl⟩⟩
  unfold Lasting at hg
  unfold fldKey
  omega

theorem bump (d : Dev) (f : Fld) (n : Nat) (hlo : f.lo < 64) (hoff : f.off < 0x200000 ∨ 0x300000 ≤ f.off ∧ f.off < 0x500000 ∨ 0x600000 ≤ f.off)
    (hd : fldKey f ≠ fldKey Reg.errDouble) : Steady d (d.bump f n) := wr d f _ hlo hoff hd

theorem raise (d : Dev) (o : Occ) : Steady d (d.raise o) := of_same (by repeat constructor)

theorem setW1c_double (d : Dev) (n : Nat) : Steady d (d.setW1c Reg.errDouble n) := by
  refine ⟨fun g hg => rd_setW1c_of_ne _ _ _ _ _ _ ?_, fun _ => rd_setW1c_bit _ rfl, id, rfl, rfl, ⟨rfl, rfl, rfl, rfl, rfl, rfl⟩⟩
  unfold Lasting at hg
  show 64 * g.off + g.lo ≠ 64 * 0x300038 + 0
  omega

theorem doubleFaulted (d : Dev) (code : Nat) : Steady d (d.doubleFaulted code) :=
  ((raise d { code := Rc.doubleFault, detail := code, source := 1 }).trans (setW1c_double _ 0)).trans ⟨fun _ _ => rfl, id, fun _ => rfl, rfl, rfl, ⟨rfl, rfl, rfl, rfl, rfl, rfl⟩⟩

theorem of_arranged (h : Arranged d e) : Steady d e := by
  rw [show e = _ from h]
  exact of_same (by repeat constructor)

theorem onTile (d : Dev) (t : Nat) (f : Site → Site) : Steady d (d.onTile t f) := of_arranged (Arranged.onTile d t f)

theorem loadProgram (d : Dev) (g h : Nat) : Steady d (d.loadProgram g h) := of_arranged (Arranged.loadProgram d g h)

/-! Pages, and the waves of an interrupted beat. -/

theorem setPte (d : Dev) (p : Pte) : Steady d (d.setPte p) := of_same (by repeat constructor)

theorem releasePage (d : Dev) (p : Pte) : Steady d (d.releasePage p) := ite (of_same (by repeat constructor)) (refl d)

theorem dropPage (d : Dev) (p : Pte) : Steady d (d.dropPage p) :=
  ite (((ite (of_same (by repeat constructor)) (refl d)).trans (releasePage _ p)).trans (setPte _ _)) (refl d)

theorem dropPages (d : Dev) (f : Pte → Bool) : Steady d (d.dropPages f) := foldl dropPage _ d

theorem dropsDue (d : Dev) : Steady d d.dropsDue := by
  refine (foldl (fun d k => ?_) d.serve.dropLater d).trans (of_same (by repeat constructor))
  split
  · exact dropPage d _
  · exact refl d

theorem hold (d : Dev) (why : Nat) : Steady d (d.hold why) := ite (refl d) (of_same (by repeat constructor))

theorem replayWaves (d : Dev) (f : Wave → Bool) : Steady d (d.replayWaves f) :=
  Steady.trans (of_same (by repeat constructor)) (ite (refl _) (bump _ _ _ (by decide) (by decide) (by decide)))

theorem interrupt (d : Dev) : Steady d d.interrupt :=
  ite (refl d) (ite (((dropsDue d).trans (replayWaves _ _)).trans (hold _ _)) (Steady.trans (of_same (by repeat constructor)) (hold _ _)))

/-! A halted tile: its writes land first. -/

theorem clearPoisonIn (d : Dev) (a n : Nat) : Steady d (d.clearPoisonIn a n) := of_same (by repeat constructor)

theorem dramPutSome (lo n : Nat) (bs : List Byte) : ∀ (d : Dev) (a : Nat), Steady d (d.dramPutSome lo n a bs) := by
  induction bs with
  | nil => exact fun d _ => refl d
  | cons b bs ih => exact fun d a => (ite (refl d) (of_same (by repeat constructor))).trans (ih _ _)

theorem dramPut (d : Dev) (a : Nat) (bs : List Byte) : Steady d (d.dramPut a bs) :=
  ite ((dramPutSome _ _ bs d a).trans (clearPoisonIn _ _ _)) (of_same (by repeat constructor))

theorem moveFetch (d : Dev) (t : Nat) (k : Tok) : Steady d (d.moveFetch t k) := by
  unfold Dev.moveFetch
  dsimp only
  refine ite ?_ (Steady.trans ?_ (setPte _ _))
  · exact (foldl (fun d _ => onTile d t _) k.lines d).trans (foldl (fun d _ => onTile d t _) _ _)
  · exact (foldl (fun d _ => onTile d t _) k.lines d).trans (foldl (fun d _ => onTile d t _) _ _)

theorem moveStore (d : Dev) (t : Nat) (k : Tok) : Steady d (d.moveStore t k) :=
  (dramPut d _ _).trans (foldl (fun d _ => onTile d t _) _ _)

theorem moveResid (d : Dev) (t : Nat) (k : Tok) : Steady d (d.moveResid t k) :=
  foldl (fun d _ => ite (onTile d t _) (dramPut d _ _)) _ d

theorem moveTok (d : Dev) (t : Nat) (k : Tok) : Steady d (d.moveTok t k) := by
  unfold Dev.moveTok
  split
  · exact onTile d t _
  · exact dramPut d _ _
  · exact ite (refl d) (moveFetch d t k)
  · exact ite (refl d) (moveStore d t k)
  · exact moveResid d t k
  · exact moveResid d t k
  · exact refl d

theorem haltTile (d : Dev) (t st : Nat) : Steady d (d.haltTile t st) :=
  ((foldl (fun d (k : Nat × Tok) => moveTok d t k.2) _ d).trans (onTile _ t _)).trans (of_same (by repeat constructor))

theorem wantStop (d : Dev) (code tile desc : Nat) : Steady d (d.wantStop code tile desc) := ite (refl d) (of_same (by repeat constructor))

/-! Girdle stripes. -/

theorem rebuildOff (d : Dev) (t : Nat) : Steady d (d.rebuildOff t) := of_same (by repeat constructor)

theorem setStripe (d : Dev) (n : Nat) (s : Stripe) : Steady d (d.setStripe n s) := of_same (by repeat constructor)

theorem countStripes (d : Dev) : Steady d d.countStripes := by
  have hw (a b c e : Nat) : Steady d ((((d.wr Reg.stripesProtected a).wr Reg.stripesRecovering b).wr Reg.stripesUnprotected c).wr Reg.stripesLost e) :=
    (((wr d _ a (by decide) (by decide) (by decide)).trans (wr _ _ b (by decide) (by decide) (by decide))).trans
      (wr _ _ c (by decide) (by decide) (by decide))).trans (wr _ _ e (by decide) (by decide) (by decide))
  exact ite ((hw _ _ _ _).trans (raise _ _)) (hw _ _ _ _)

theorem putStripe (d : Dev) (n : Nat) (s : Stripe) : Steady d (d.putStripe n s) :=
  ((setStripe d n s).trans (foldl (fun d k => of_arranged (Arranged.arrange d k)) _ _)).trans (countStripes _)

theorem girdleEvent (d : Dev) (code : Nat) (r : StripeRec) (idx t : Nat) : Steady d (d.girdleEvent code r idx t) := raise d _

theorem nextRebuild (d : Dev) (n : Nat) : Steady d (d.nextRebuild n) := by
  unfold Dev.nextRebuild
  dsimp only
  split
  · refine ite (refl d) ?_
    split
    · exact setStripe d n _
    · exact refl d
  · exact refl d

theorem enterRecovery (d : Dev) (n : Nat) (r : StripeRec) (i t target : Nat) (page : Bool) : Steady d (d.enterRecovery n r i t target page) :=
  (putStripe d n _).trans (girdleEvent _ _ _ _ _)

theorem girdleLoss (d : Dev) (n i t : Nat) : Steady d (d.girdleLoss n i t) := (putStripe d n _).trans (nextRebuild _ _)

theorem writeDirect (d : Dev) (r : TileRec) : Steady d (d.writeDirect r) :=
  ((rebuildOff d _).trans (onTile _ _ _)).trans (loadProgram _ _ _)

theorem setSite (d : Dev) (p : Nat) (x : Site) : Steady d (d.setSite p x) := of_same (by repeat constructor)

theorem addSubst (d : Dev) (p : Nat × Nat) : Steady d { d with wafer := { d.wafer with subst := d.wafer.subst ++ [p] } } := of_same (by repeat constructor)

theorem writeMember {d e : Dev} {n : Nat} {r : StripeRec} {i : Nat} (h : d.writeMember n r i = some e) : Steady d e := by
  unfold Dev.writeMember at h
  split at h
  · cases h; exact refl d
  · split at h
    · cases h; exact refl d
    · split at h
      · cases h; exact writeDirect d _
      · split at h
        · cases h
          have hs (t s : Nat) (x : Site) : Steady d ((d.rebuildOff t).setSite s x) := (rebuildOff d t).trans (setSite _ s x)
          exact ite (hs _ _ _) ((hs _ _ _).trans (addSubst _ _))
        · dsimp only at h
          split at h
          · cases h
          · split at h
            · cases h
            · cases h
              exact ((rebuildOff d _).trans (onTile _ _ _)).trans (setStripe _ _ _)

/-- Members written one after the other, as far as each has a place. -/
theorem writeMembers (n : Nat) (r : StripeRec) (l : List Nat) : ∀ (o : Option Dev) (e : Dev),
    l.foldl (fun (acc : Option Dev) i => match acc with
      | some d => d.writeMember n r i
      | none => none) o = some e → ∃ d, o = some d ∧ Steady d e := by
  induction l with
  | nil => exact fun o e h => ⟨e, h, refl e⟩
  | cons i l ih =>
    intro o e h
    obtain ⟨g, hg, hge⟩ := ih _ e h
    cases o with
    | none => cases hg
    | some d => exact ⟨d, rfl, (writeMember hg).trans hge⟩

theorem stripeLost (d : Dev) (n : Nat) (r : StripeRec) (lost : List Nat) (idx t code : Nat) : Steady d (d.stripeLost n r lost idx t code) := by
  unfold Dev.stripeLost
  dsimp only
  have hfault (g : Dev) (o : Occ) (s : Stripe) : Steady g (((g.setStripe n s).raise o).doubleFaulted code) :=
    ((setStripe g n s).trans (raise _ o)).trans (doubleFaulted _ code)
  split
  · next h =>
    obtain ⟨g, hg, hge⟩ := writeMembers n r lost _ _ h
    cases hg
    exact ((hfault d _ _).trans hge).trans (putStripe _ _ _)
  · exact ((hfault d _ _).trans (putStripe _ _ _)).trans (wantStop _ _ _ _)

theorem stripeLoss (d : Dev) (n idx t code : Nat) : Steady d (d.stripeLoss n idx t code) := by
  unfold Dev.stripeLoss
  split
  · exact refl d
  · have hoff := rebuildOff d t
    exact ite hoff (ite (hoff.trans (enterRecovery _ _ _ _ _ _ _)) (ite (hoff.trans (girdleLoss _ _ _ _))
      ((hoff.trans (setStripe _ _ _)).trans (stripeLost _ _ _ _ _ _ _))))

/-! Reserves, spares and quarantine. -/

theorem assignReserve (d : Dev) (k code : Nat) : Steady d (d.assignReserve k code) := by
  unfold Dev.assignReserve
  dsimp only
  split
  · exact of_same (by repeat constructor)
  · split
    · exact Steady.trans (of_same (by repeat constructor)) (ite ((doubleFaulted _ _).trans (wantStop _ _ _ _)) (refl _))
    · exact of_same (by repeat constructor)

theorem serveTile (d : Dev) (t : Nat) : Steady d (d.serveTile t) :=
  ite (refl d) ((Steady.trans (of_same (by repeat constructor)) (onTile _ _ _)).trans (loadProgram _ _ _))

theorem coverTile (d : Dev) (t code : Nat) : Steady d (d.coverTile t code) :=
  ite (refl d) ((foldl (fun d e => stripeLoss d e.1 e.2 t code) (d.stripesOf t) d).trans
    ((ite (serveTile _ _) (refl _)).trans (foldl (fun d k => assignReserve d k code) _ _)))

theorem appendRecord (d : Dev) (type : Nat) (body : List Byte) : Steady d (d.appendRecord type body) := ite (refl d) (of_same (by repeat constructor))

theorem changeTable (d : Dev) (seg : Nat) (b : BitVec 128) : Steady d (d.changeTable seg b) :=
  ite (refl d) ((appendRecord d _ _).trans (of_same (by repeat constructor)))

theorem moveOrRetire (d : Dev) (t : Nat) : Steady d (d.moveOrRetire t) := by
  unfold Dev.moveOrRetire
  refine ite (refl d) ?_
  split
  · exact ite (refl d) (of_same (by repeat constructor))
  · exact ite (refl d) (((raise d _).trans (changeTable _ _ _)).trans (of_same (by repeat constructor)))

theorem quarantine (d : Dev) (t cause : Nat) : Steady d (d.quarantine t cause) := by
  refine ite (refl d) ((((Steady.trans ?_ (interrupt _)).trans (onTile _ _ _)).trans (coverTile _ _ _)).trans (moveOrRetire _ _))
  exact (haltTile d t 3).trans (of_same (by repeat constructor))

theorem detourFor (d : Dev) (hit : Nat × Nat → Bool) : Steady d (d.detourFor hit) := of_same (by repeat constructor)

theorem setLink (d : Dev) (t dir : Nat) (l : Link) : Steady d (d.setLink t dir l) := of_same (by repeat constructor)

theorem cutField (d : Dev) (n : Nat) : Steady d (d.cutField n) := foldl (fun _ _ => (of_same (by repeat constructor))) _ d

end Steady

end Sys2Proof.Proofs
end

section
/-! PROOFS. Flits, links, packets and dead tiles (07 R173-R188, 20 R432). -/
namespace Sys2Proof.Proofs
open Sys2Proof.Machine Sys2Proof.Laws

/-! A flit over a link. -/

section
variable {d : Dev} {f : Flit} {src : Nat}

/-- Another flit of the link is being retried, and its router still sends it. -/
def isBehind (d : Dev) (f : Flit) (src : Nat) : Bool :=
  match (d.link src (opposite (f.dir % 4))).retrying with
  | some k => k != f.kind && d.sends src (opposite (f.dir % 4)) k
  | none => false

theorem isBehind_true {q : FlitKind} (h : (d.link src (opposite (f.dir % 4))).retrying = some q) (hq : q ≠ f.kind)
    (hs : d.sends src (opposite (f.dir % 4)) q = true) : isBehind d f src = true := by
  unfold isBehind
  rw [h]
  simp [hq, hs]

theorem isBehind_false (h : ∀ q, (d.link src (opposite (f.dir % 4))).retrying = some q → q ≠ f.kind →
    d.sends src (opposite (f.dir % 4)) q = false) : isBehind d f src = false := by
  unfold isBehind
  split
  · next q hq =>
    by_cases hk : q = f.kind
    · simp [hk]
    · rw [h q hq hk, Bool.and_false]
  · rfl

theorem overLink_blocked (h : (d.link src (opposite (f.dir % 4))).down = true ∨ isBehind d f src = true) : d.overLink f src = d := by
  refine if_pos ?_
  show ((d.link src (opposite (f.dir % 4))).down || isBehind d f src) = true
  rcases h with h | h <;> rw [h] <;> simp

section
variable (hd : (d.link src (opposite (f.dir % 4))).down = false) (hb : isBehind d f src = false)
include hd hb

theorem overLink_open : ¬ ((d.link src (opposite (f.dir % 4))).down || isBehind d f src) = true := by simp [hd, hb]

theorem overLink_stranded {p : Packet} (hs : d.stranded src f.kind = some p) : d.overLink f src = d.unroutable p := by
  refine (if_neg (overLink_open hd hb)).trans ?_
  rw [hs]

theorem overLink_retries (hs : d.stranded src f.kind = none) (hc : f.crcOk = false) :
    d.overLink f src = d.retryFlit src (opposite (f.dir % 4)) f.kind := by
  refine (if_neg (overLink_open hd hb)).trans ?_
  rw [hs]
  exact if_pos (by rw [hc]; rfl)

/-- A good flit that is no partial of a peer device passes where its router can send it. -/
theorem overLink_passes (hs : d.stranded src f.kind = none) (hc : f.crcOk = true) (hp : f.peer = none ∨ d.flitChan f.kind = none) :
    d.overLink f src = if d.sends src (opposite (f.dir % 4)) f.kind then
        (d.passLink src (opposite (f.dir % 4)) f.kind).flitGoes f src (opposite (f.dir % 4))
      else d.setLink src (opposite (f.dir % 4)) { d.link src (opposite (f.dir % 4)) with inRow := 0 } := by
  refine (if_neg (overLink_open hd hb)).trans ?_
  rw [hs]
  refine (if_neg (by rw [hc]; decide)).trans ?_
  rcases hp with hp | hp
  · rw [hp]
  · rw [hp]
    cases f.peer <;> rfl

end

theorem flitReceive_overLink (hn : neighbour f.tile (f.dir % 4) = some src)
    (hr : ∀ c r, d.flitChan f.kind = some (c, r) → d.chanRoute c r ≠ []) : effFlitReceive f d = d.overLink f src := by
  unfold effFlitReceive
  rw [hn]
  dsimp only
  split
  · next c r h => exact if_neg (by simpa using hr c r h)
  · rfl

theorem retryFlit_lost {t dir : Nat} {k : FlitKind} (h : 5 ≤ (d.link t dir).inRow + 1) : d.retryFlit t dir k =
    (d.setLink t dir { d.link t dir with
      inRow := (d.link t dir).inRow + 1, retries := d.tick :: (d.link t dir).retries.filter (fun r => decide (d.tick - r < 25000)),
      retrying := if d.sends t dir k = true then some k else (d.link t dir).retrying }).linkLost t dir := if_pos h

theorem retryFlit_again {t dir : Nat} {k : FlitKind} (h : (d.link t dir).inRow + 1 < 5)
    (hn : (d.tick :: (d.link t dir).retries.filter (fun r => decide (d.tick - r < 25000))).length ≤ 16) : d.retryFlit t dir k =
    (d.setLink t dir { d.link t dir with
      inRow := (d.link t dir).inRow + 1, retries := d.tick :: (d.link t dir).retries.filter (fun r => decide (d.tick - r < 25000)),
      retrying := if d.sends t dir k = true then some k else (d.link t dir).retrying }).raise (d.linkOcc t dir Rc.linkRetry 0 0) :=
  (if_neg (Nat.not_le.2 h)).trans (if_neg (Nat.not_lt.2 hn))

end

/-! A flit of a channel that passes. -/

theorem takeFlit_of_atHop {i : Nat} {l : List ChFlit} (h : (l.filter fun f => f.hop == i).length ≠ 0) : takeFlit i l ≠ none := by
  induction l with
  | nil => exact absurd rfl h
  | cons f fs ih =>
    rw [takeFlit]
    by_cases hf : f.hop = i
    · rw [if_pos hf]
      exact Option.some_ne_none _
    · rw [if_neg hf]
      have hrest : (fs.filter fun f => f.hop == i).length ≠ 0 := by
        rwa [List.filter_cons_of_neg (by simpa using hf)] at h
      simpa using ih hrest

section
variable {d : Dev} {c : Nat} {r : ChanRec} {src dir i : Nat}

theorem atHop_of_sendsAt (h : d.sendsAt c r src dir = some i) : (d.chan c).atHop i ≠ 0 := by
  unfold Dev.sendsAt at h
  dsimp only at h
  split at h
  · next hc =>
    cases h
    exact hc.2.1
  · cases h

/-- A flit short of its end moves on by one router. -/
theorem flitOn_moves (h : d.sendsAt c r src dir = some i) (hl : i + 1 < (d.chanRoute c r).length) :
    d.flitOn c r i = d.setChan c { d.chan c with flight := stepFlit i (d.chan c).flight } := by
  unfold Dev.flitOn
  dsimp only
  split
  · next ht => exact absurd ht (takeFlit_of_atHop (atHop_of_sendsAt h))
  · exact if_neg (Nat.not_le.2 hl)

theorem flitGoes_channel {f : Flit} (hk : f.kind = .channel c) (hr : d.chanRec c = some r) (h : d.sendsAt c r src dir = some i) :
    (d.passLink src dir (.channel c)).flitGoes f src dir = (d.passLink src dir (.channel c)).flitOn c r i := by
  unfold Dev.flitGoes
  rw [hk]
  dsimp only
  rw [show (d.passLink src dir (.channel c)).chanRec c = some r from hr]
  dsimp only
  rw [show (d.passLink src dir (.channel c)).sendsAt c r src dir = some i from h]

/-- The slot of a staked channel is one of its stakes (07 R176). -/
theorem slotFor_staked (hr : d.chanRec c = some r) (hp : d.packetChan c r = false) (h0 : r.stakeMask ≠ 0) (hlt : r.stakeMask < 2 ^ 64) :
    bitOf r.stakeMask (d.slotFor src dir (.channel c)) = true := by
  obtain ⟨n, hn, hbit⟩ : ∃ n < 64, bitOf r.stakeMask n = true := by
    obtain ⟨n, hn⟩ := Nat.exists_testBit_of_ne_zero h0
    refine ⟨n, ?_, by rw [bitOf_eq_testBit, hn]⟩
    refine Classical.byContradiction fun hge => ?_
    rw [Nat.testBit_lt_two_pow (Nat.lt_of_lt_of_le hlt (Nat.pow_le_pow_right (by decide) (Nat.not_lt.1 hge)))] at hn
    cases hn
  unfold Dev.slotFor
  dsimp only
  rw [hr]
  simp only [hp, Bool.false_eq_true, if_false]
  cases hf : ((List.range 64).map fun i => ((d.link src dir).frame + i) % 64).find? fun n => bitOf r.stakeMask n with
  | some m => exact List.find?_some hf
  | none =>
    refine absurd hbit (List.find?_eq_none.1 hf n (List.mem_map.2 ⟨(n + 64 - (d.link src dir).frame % 64) % 64, ?_, ?_⟩))
    · exact List.mem_range.2 (Nat.mod_lt _ (by decide))
    · omega

end

theorem chan_of_mesh {d e : Dev} (h : e.mesh = d.mesh) (c : Nat) : e.chan c = d.chan c := by
  unfold Dev.chan
  rw [h]

/-- A flit of a channel that its router sends goes on along its route. -/
theorem flitPasses_channel {d : Dev} {f : Flit} {src c i : Nat} {r : ChanRec} (hd : (d.link src (opposite (f.dir % 4))).down = false)
    (hb : isBehind d f src = false) (hc : f.crcOk = true) (hp : f.peer = none) (hk : f.kind = .channel c) (hr : d.chanRec c = some r)
    (hs : d.sends src (opposite (f.dir % 4)) f.kind = true) (h : d.sendsAt c r src (opposite (f.dir % 4)) = some i) :
    d.overLink f src = (d.passLink src (opposite (f.dir % 4)) (.channel c)).flitOn c r i := by
  refine (overLink_passes hd hb (by rw [hk]; rfl) hc (.inl hp)).trans ((if_pos hs).trans ?_)
  rw [hk]
  exact flitGoes_channel hk hr h

theorem sendsAt_passLink {d : Dev} {c i src dir : Nat} {r : ChanRec} {k : FlitKind} (h : d.sendsAt c r src dir = some i) :
    (d.passLink src dir k).sendsAt c r src dir = some i := h

/-- What a flit that has passed leaves at its link and on the channels. -/
theorem moved_channel (d : Dev) (src dir c : Nat) (fl : List ChFlit) :
    let e := (d.passLink src dir (.channel c)).setChan c { (d.passLink src dir (.channel c)).chan c with flight := fl }
    (e.chan c).flight = fl ∧ (∀ b ≠ c, e.chan b = d.chan b) ∧ (e.link src dir).inRow = 0 ∧ (e.link src dir).replay.length ≤ 8 ∧
      (e.link src dir).fifo.length ≤ 8 ∧ (e.link src dir).frame = (d.slotFor src dir (.channel c) + 1) % 64 ∧ e.mesh.packets = d.mesh.packets := by
  intro e
  obtain ⟨hrow, hframe, hreplay, hfifo⟩ := passLink_link d src dir (.channel c)
  refine ⟨?_, fun b hb => ?_, hrow, hreplay, hfifo, hframe, rfl⟩
  · rw [chan_setChan, if_pos rfl]
  · rw [chan_setChan, if_neg hb]
    rfl

/-! A packet that passes. -/

theorem flitGoes_packet {d : Dev} {f : Flit} {src dir id : Nat} {p : Packet} (hk : f.kind = .packet id)
    (hf : d.mesh.packets.find? (fun q => q.id == id) = some p) (hreq : p.request = true ∨ f.tile ≠ p.dst)
    (hs : isSample id = false ∨ f.tile ≠ p.dst) :
    (d.passLink src dir (.packet id)).flitGoes f src dir = { d.passLink src dir (.packet id) with mesh := { (d.passLink src dir (.packet id)).mesh with
      packets := d.mesh.packets.map fun q => if q.id = id then { q with router := f.tile, port := f.dir % 4 } else q } } := by
  unfold Dev.flitGoes
  rw [hk]
  dsimp only
  unfold Dev.packetOn
  rw [passLink_packets, hf]
  refine (if_neg ?_).trans (if_neg ?_)
  · rintro ⟨h1, h2⟩
    rcases hs with h | h
    · rw [h] at h2; cases h2
    · exact h h1
  · rintro ⟨h1, h2⟩
    rcases hreq with h | h
    · rw [h] at h2; cases h2
    · exact h h1

/-- A packet that its router sends goes on to the next. -/
theorem flitPasses_packet {d : Dev} {f : Flit} {src id : Nat} {p : Packet} (hd : (d.link src (opposite (f.dir % 4))).down = false)
    (hb : isBehind d f src = false) (hs : d.stranded src f.kind = none) (hc : f.crcOk = true) (hk : f.kind = .packet id)
    (hsend : d.sends src (opposite (f.dir % 4)) f.kind = true) (hf : d.mesh.packets.find? (fun q => q.id == id) = some p)
    (hreq : p.request = true ∨ f.tile ≠ p.dst) (hsample : isSample id = false ∨ f.tile ≠ p.dst) :
    d.overLink f src = { d.passLink src (opposite (f.dir % 4)) (.packet id) with
      mesh := { (d.passLink src (opposite (f.dir % 4)) (.packet id)).mesh with
        packets := d.mesh.packets.map fun q => if q.id = id then { q with router := f.tile, port := f.dir % 4 } else q } } := by
  refine (overLink_passes hd hb hs hc (.inr (by rw [hk]; rfl))).trans ((if_pos hsend).trans ?_)
  rw [hk]
  exact flitGoes_packet hk hf hreq hsample

/-! A link that is lost. -/

/-- `e` has the mesh of `d`, and of its wafer all but the sites. -/
structure PagesMoved (d e : Dev) : Prop where
  mesh : e.mesh = d.mesh
  wafer : e.wafer = { d.wafer with sites := e.wafer.sites }

namespace PagesMoved
variable {d e g : Dev}

theorem refl (d : Dev) : PagesMoved d d := ⟨rfl, rfl⟩

theorem trans (h : PagesMoved d e) (k : PagesMoved e g) : PagesMoved d g := ⟨k.mesh.trans h.mesh, by rw [k.wafer, h.wafer]⟩

theorem ite {c : Prop} [Decidable c] (h : PagesMoved d e) (k : PagesMoved d g) : PagesMoved d (if c then e else g) := by
  split
  · exact h
  · exact k

theorem dropPage (d : Dev) (p : Pte) : PagesMoved d (d.dropPage p) := by
  refine ite ?_ (refl d)
  dsimp only
  have hrec (c : Prop) [Decidable c] : PagesMoved d (if c then { d with serve := { d.serve with recPos := AMap.erase p.owner d.serve.recPos } } else d) :=
    ite ⟨rfl, rfl⟩ (refl d)
  have hrel (g : Dev) : PagesMoved g (g.releasePage p) := ite ⟨rfl, rfl⟩ (refl g)
  exact ((hrec _).trans (hrel _)).trans ⟨rfl, rfl⟩

theorem dropsDue (d : Dev) : PagesMoved d d.dropsDue := by
  refine (foldl_of_step refl trans (fun d k => ?_) d.serve.dropLater d).trans ⟨rfl, rfl⟩
  split
  · exact dropPage d _
  · exact refl d

theorem hold (d : Dev) (why : Nat) : PagesMoved d (d.hold why) := ite (refl d) ⟨rfl, rfl⟩

theorem replayWaves (d : Dev) (f : Wave → Bool) : PagesMoved d (d.replayWaves f) := ite ⟨rfl, rfl⟩ ⟨rfl, rfl⟩

theorem interrupt (d : Dev) : PagesMoved d d.interrupt :=
  ite (refl d) (ite (((dropsDue d).trans (replayWaves _ _)).trans (hold _ _)) ((show PagesMoved d (d.abandon _ 1) from ⟨rfl, rfl⟩).trans (hold _ _)))

end PagesMoved

/-- A device of which both directions of a link are down. -/
def cutLink (d : Dev) (t dir u : Nat) : Dev :=
  (d.setLink t dir { d.link t dir with down := true }).setLink u (opposite dir)
    { (d.setLink t dir { d.link t dir with down := true }).link u (opposite dir) with down := true }

section
variable {d : Dev} {t dir u : Nat}

theorem linkLost_cuts (hu : neighbour t dir = some u) (hl : (d.link t dir).down = false) : d.linkLost t dir =
    (((cutLink d t dir u).raise ((cutLink d t dir u).linkOcc t dir Rc.linkDown 1 1)).interrupt).detourFor fun h =>
      h == (t, dir) || (neighbour t dir == some h.1 && h.2 == opposite dir) := by
  unfold Dev.linkLost
  rw [hl, hu]
  rfl

theorem linkLost_links (hu : neighbour t dir = some u) (hl : (d.link t dir).down = false) :
    (d.linkLost t dir).mesh.links = (cutLink d t dir u).mesh.links ∧ (d.linkLost t dir).wafer = { d.wafer with sites := (d.linkLost t dir).wafer.sites } := by
  rw [linkLost_cuts hu hl]
  have h := PagesMoved.interrupt ((cutLink d t dir u).raise ((cutLink d t dir u).linkOcc t dir Rc.linkDown 1 1))
  exact ⟨(congrArg Mesh.links h.mesh :), h.wafer⟩

theorem cutLink_far : ((cutLink d t dir u).link u (opposite dir)).down = true := by
  unfold cutLink
  rw [link_setLink, if_pos rfl]

theorem cutLink_near : ((cutLink d t dir u).link t dir).down = true := by
  unfold cutLink
  rw [link_setLink]
  split
  · rfl
  · rw [link_setLink, if_pos rfl]

theorem cutLink_other {v e : Nat} (hdir : dir < 4) (he : e < 4) (h1 : (v, e) ≠ (t, dir)) (h2 : (v, e) ≠ (u, opposite dir)) :
    (cutLink d t dir u).link v e = d.link v e := by
  have hop : opposite dir < 4 := Nat.mod_lt _ (by decide)
  have key {a b : Nat} (hb : b < 4) (h : (v, e) ≠ (a, b)) : ¬ 4 * v + e = 4 * a + b := by
    intro heq
    exact h (by rw [Prod.mk.injEq]; omega)
  unfold cutLink
  rw [link_setLink, if_neg (key hop h2), link_setLink, if_neg (key hdir h1)]

end

theorem link_of_links {d e : Dev} (h : e.mesh.links = d.mesh.links) (t dir : Nat) : e.link t dir = d.link t dir := by
  unfold Dev.link
  rw [h]

/-! A tile that is dead. -/

/-- A device with one more lost tile, its occurrence raised. -/
def deadDev (d : Dev) (t : Nat) (linksDown : Bool) : Dev :=
  let d1 := d.raise (d.atTile { code := Rc.tileDead, detail := b2n linksDown, cls := 1, unitKind := 1, unit := d.ptileOf t,
                                outcome := if d.imgActive then 1 else 2 } t)
  { d1 with wafer := { d1.wafer with lostTiles := d1.wafer.lostTiles ++ [t] } }

theorem tileDead_steady {d : Dev} {t : Nat} (b : Bool) (hp : (d.physOf t).isSome = true) (hl : t ∉ d.wafer.lostTiles) :
    Steady (deadDev d t b) (effTileDead t b d) := by
  unfold effTileDead
  rw [if_neg (by simp [hl, Option.isSome_iff_ne_none.1 hp])]
  have hlink (d : Dev) (dir : Nat) : Steady d (match neighbour t dir with
      | some u => (d.setLink t dir { d.link t dir with down := true }).setLink u (opposite dir) { d.link u (opposite dir) with down := true }
      | none => d) := by
    split
    · exact Steady.of_same (by repeat constructor)
    · exact Steady.refl d
  exact (((Steady.ite (Steady.foldl hlink (List.range 4) (deadDev d t b)) (Steady.refl _)).trans (Steady.interrupt _)).trans
    (Steady.quarantine _ _ _)).trans (Steady.detourFor _ _)

/-- Settles O34: the cases of a flit, a link, a packet and a dead tile. -/
theorem meshCommands : Obligations.MeshCommands := by
  unfold Obligations.MeshCommands
  refine ⟨fun s f => ?_, fun s t dir => ⟨fun h => ?_, fun u hu hl => ?_, fun heard h => ?_, fun heard u hu => ?_⟩, fun s id => rfl,
    fun s t b => ⟨fun h => ?_, fun p hp hl => ?_⟩⟩
  · intro d dir
    refine ⟨fun h => ?_, fun src hn hr => ?_⟩
    · refine congrArg s.next ?_
      unfold effFlitReceive
      rw [h]
    have hgo : exec (.flitReceive f) s = s.next (d.overLink f src) := congrArg s.next (flitReceive_overLink hn hr)
    intro l k l1 free
    have hopen (h : free) : (d.link src dir).down = false ∧ isBehind d f src = false := ⟨h.1, isBehind_false h.2⟩
    refine ⟨fun h => ?_, fun p h hs => ?_, fun h hs hc h5 => ?_, fun h hs hc h5 h16 => ?_, fun h hs hc hp hno => ?_, ?_, ?_, ?_⟩
    · refine hgo.trans (congrArg s.next (overLink_blocked ?_))
      rcases h with h | ⟨q, hq, hqk, hs⟩
      · exact .inl h
      · exact .inr (isBehind_true hq hqk hs)
    · exact hgo.trans (congrArg s.next (overLink_stranded (hopen h).1 (hopen h).2 hs))
    · exact hgo.trans (congrArg s.next ((overLink_retries (hopen h).1 (hopen h).2 hs hc).trans (retryFlit_lost h5)))
    · exact hgo.trans (congrArg s.next ((overLink_retries (hopen h).1 (hopen h).2 hs hc).trans (retryFlit_again h5 h16)))
    · exact hgo.trans (congrArg s.next ((overLink_passes (hopen h).1 (hopen h).2 hs hc (.inl hp)).trans (if_neg (Bool.eq_false_iff.1 hno))))
    · intro c r i h hc hp hk hcr hsend hat hlen
      have he := flitPasses_channel (hopen h).1 (hopen h).2 hc hp hk hcr hsend hat
      refine answers_of_eff (hgo.trans (congrArg s.next (he.trans (flitOn_moves (src := src) (dir := dir) (sendsAt_passLink hat) hlen)))) fun u hu => ?_
      obtain ⟨hflight, hother, hrow, hreplay, hfifo, hframe, hpackets⟩ := moved_channel d src dir c (stepFlit i (d.chan c).flight)
      rw [show u.dev.chan = _ from funext fun e => chan_of_mesh hu.mesh e, link_of_links (congrArg Mesh.links hu.mesh), hu.mesh, hu.wafer, hu.serve,
        show k = .channel c from hk]
      exact ⟨hflight, hother, hrow, hreplay, hfifo, hframe, fun hp h0 hlt => slotFor_staked hcr hp h0 hlt, hpackets, rfl, rfl⟩
    · intro c r i h hc hp hk hcr hsend hat hlen
      rw [show k = .channel c from hk]
      exact hgo.trans (congrArg s.next (flitPasses_channel (hopen h).1 (hopen h).2 hc hp hk hcr hsend hat))
    · intro id p h hs hc hk hsend hfind hreq hsample
      rw [show k = .packet id from hk]
      exact hgo.trans (congrArg s.next (flitPasses_packet (hopen h).1 (hopen h).2 hs hc hk hsend hfind hreq hsample))
  · exact congrArg s.next (if_pos (by rw [h]; rfl))
  · refine answers_of_eff (congrArg s.next (if_neg (by rw [hu]; exact Bool.false_ne_true))) fun w hw => ?_
    have hdir : dir % 4 < 4 := Nat.mod_lt _ (by decide)
    obtain ⟨hlinks, hwafer⟩ := linkLost_links hu hl
    have hlink (v e : Nat) : w.dev.link v e = (cutLink s.dev t (dir % 4) u).link v e := link_of_links ((congrArg Mesh.links hw.mesh).trans hlinks) v e
    rw [hlink, hlink, hw.wafer, hwafer]
    exact ⟨cutLink_near, cutLink_far, fun v e he h1 h2 => (hlink v e).trans (cutLink_other hdir he h1 h2), rfl, rfl⟩
  · refine congrArg s.next ?_
    unfold effLivenessFlit
    rw [h]
  · refine congrArg s.next ?_
    unfold effLivenessFlit
    rw [hu]
  · refine congrArg s.next (if_pos ?_)
    rcases h with h | h
    · simp [h]
    · simp [h]
  · refine answers_of_eff (c := .tileDead t b) (s := s) (e := effTileDead t b s.dev) rfl fun w hw => ?_
    have h := tileDead_steady (d := s.dev) b (by rw [hp]; rfl) hl
    rw [hw.wafer]
    exact ⟨h.lostTiles, h.lostFields⟩

end Sys2Proof.Proofs
end

section
/-! PROOFS. Fields, regulators, sensors and oscillators (17 R390-R394, 18 R405-R408). -/
namespace Sys2Proof.Proofs
open Sys2Proof.Machine Sys2Proof.Laws

theorem plain_lasting {f : Fld} (h : Lasting f) : Plain f := by
  obtain ⟨hlo, hoff⟩ := h
  exact plain_of f hlo (by omega)

section
variable {n : Nat} (hn : n < 36)
include hn

theorem lasting_field (lo w : Nat) (a : Acc) (v : Nat) (hlo : lo < 64) : Lasting ⟨0x200100 + 16 * n, lo, w, a, v⟩ :=
  ⟨hlo, .inl ⟨show 0x200000 ≤ 0x200100 + 16 * n by omega, show 0x200100 + 16 * n < 0x300000 by omega⟩⟩

theorem lasting_volts (lo w : Nat) (a : Acc) (v : Nat) (hlo : lo < 64) : Lasting ⟨0x200108 + 16 * n, lo, w, a, v⟩ :=
  ⟨hlo, .inl ⟨show 0x200000 ≤ 0x200108 + 16 * n by omega, show 0x200108 + 16 * n < 0x300000 by omega⟩⟩

theorem lasting_osc (lo w : Nat) (a : Acc) (v : Nat) (hlo : lo < 64) : Lasting ⟨0x201100 + 16 * n, lo, w, a, v⟩ :=
  ⟨hlo, .inl ⟨show 0x200000 ≤ 0x201100 + 16 * n by omega, show 0x201100 + 16 * n < 0x300000 by omega⟩⟩

theorem lasting_fieldState : Lasting (Reg.fieldState n) := lasting_field hn _ _ _ _ (by decide)
theorem lasting_errTrip : Lasting (Reg.errTrip n) := lasting_field hn _ _ _ _ (by decide)
theorem lasting_errPhase : Lasting (Reg.errPhase n) := lasting_field hn _ _ _ _ (by decide)
theorem lasting_vlPhases : Lasting (Reg.vlPhases n) := lasting_field hn _ _ _ _ (by decide)
theorem lasting_vmin : Lasting (Reg.vmin n) := lasting_field hn _ _ _ _ (by decide)
theorem lasting_vlSet : Lasting (Reg.vlSet n) := lasting_volts hn _ _ _ _ (by decide)
theorem lasting_lockState : Lasting (Reg.lockState n) := lasting_osc hn _ _ _ _ (by decide)
theorem lasting_oscErrUnlock : Lasting (Reg.oscErrUnlock n) := lasting_osc hn _ _ _ _ (by decide)

end

/-- The keys of two fields of one word differ where their bits do. -/
theorem fldKey_ne_of_lo {a lo lo' w w' : Nat} {c c' : Acc} {v v' : Nat} (h : lo ≠ lo') : fldKey ⟨a, lo, w, c, v⟩ ≠ fldKey ⟨a, lo', w', c', v'⟩ := by
  show 64 * a + lo ≠ 64 * a + lo'
  omega

/-- A register of a field is none of an oscillator. -/
theorem fldKey_field_ne_osc {n lo lo' w w' : Nat} {c c' : Acc} {v v' : Nat} (h : lo < 64) (h' : lo' < 64) :
    fldKey ⟨0x200100 + 16 * n, lo, w, c, v⟩ ≠ fldKey ⟨0x201100 + 16 * n, lo', w', c', v'⟩ := by
  show 64 * (0x200100 + 16 * n) + lo ≠ 64 * (0x201100 + 16 * n) + lo'
  omega

/-! A field that trips. -/

section
variable {d : Dev} {n : Nat}

theorem noteTrip_steady (d : Dev) (n : Nat) : Steady d (d.noteTrip n) := by
  unfold Dev.noteTrip
  exact Steady.ite (Steady.ite (Steady.trans (Steady.of_same (by repeat constructor)) (Steady.appendRecord _ _ _)) (Steady.of_same (by repeat constructor))) (Steady.refl d)

/-- A device with one more lost field. -/
def fieldLostDev (d : Dev) (n : Nat) (sites : List (Nat × Site)) (subst : List (Nat × Nat)) : Dev :=
  { d with wafer := { d.wafer with lostFields := d.wafer.lostFields ++ [n], sites := sites, subst := subst } }

/-- The loss of a field's tiles: their sequencers stop, the field is among the lost ones, its work is covered. -/
theorem loseTiles_stops (d : Dev) (n code : Nat) (off : Bool) :
    ∃ e sites subst, Steady d e ∧ Steady (fieldLostDev e n sites subst) (d.loseTiles n code off) := by
  unfold Dev.loseTiles
  exact ⟨_, _, _, (Steady.interrupt d).trans (Steady.foldl (fun d t => Steady.haltTile d t 3) _ _),
    ((Steady.cutField _ n).trans (Steady.foldl (fun d t => Steady.coverTile d t code) _ _)).trans (Steady.detourFor _ _)⟩

theorem loseTiles_leaves (d : Dev) (n code : Nat) (off : Bool) :
    (∀ f, Lasting f → (d.loseTiles n code off).rd f = d.rd f) ∧ (d.loseTiles n code off).wafer.lostFields = d.wafer.lostFields ++ [n] := by
  obtain ⟨e, sites, subst, h, k⟩ := loseTiles_stops d n code off
  refine ⟨fun f hf => (k.regs f hf).trans (h.regs f hf), k.lostFields.trans ?_⟩
  rw [← h.lostFields]
  rfl

/-- A device with a field off, unlocked with the field off, its trip noted. -/
def trippedDev (d : Dev) (n : Nat) (o : Occ) : Dev :=
  ((((d.raise o).setW1c (Reg.errTrip n) (2 + n)).wr (Reg.fieldState n) 1).wr (Reg.lockState n) 3).noteTrip n

theorem tripField_trips {o : Occ} (hn : n < 36) (hst : 3 ≤ d.rd Reg.stage) (hp : d.rd Reg.pstate < 4) (hon : d.fieldOn n = true) :
    d.tripField n o = if (trippedDev d n o).wafer.lostFields.contains n then trippedDev d n o else (trippedDev d n o).loseTiles n o.code true := by
  have h0 : d.rd (Reg.fieldState n) = 0 := by simpa [Dev.fieldOn] using hon
  exact if_neg (by rw [h0]; simp [hn, hst, hp])

theorem trippedDev_regs {o : Occ} (hn : n < 36) : (trippedDev d n o).rd (Reg.fieldState n) = 1 ∧ (trippedDev d n o).rd (Reg.lockState n) = 3 ∧
    (trippedDev d n o).rd (Reg.errTrip n) = 1 := by
  have h := noteTrip_steady ((((d.raise o).setW1c (Reg.errTrip n) (2 + n)).wr (Reg.fieldState n) 1).wr (Reg.lockState n) 3) n
  have hfl : fldKey (Reg.fieldState n) ≠ fldKey (Reg.lockState n) := fldKey_field_ne_osc (by decide) (by decide)
  have hel : fldKey (Reg.errTrip n) ≠ fldKey (Reg.lockState n) := fldKey_field_ne_osc (by decide) (by decide)
  have hef : fldKey (Reg.errTrip n) ≠ fldKey (Reg.fieldState n) := fldKey_ne_of_lo (by decide)
  unfold trippedDev
  rw [h.regs _ (lasting_fieldState hn), h.regs _ (lasting_lockState hn), h.regs _ (lasting_errTrip hn)]
  refine ⟨?_, ?_, ?_⟩
  · rw [rd_wr_of_ne _ _ _ _ hfl]
    exact rd_wr _ _ 1
  · exact rd_wr _ _ 3
  · rw [rd_wr_of_ne _ _ _ _ hel, rd_wr_of_ne _ _ _ _ hef]
    exact rd_setW1c_bit _ rfl

theorem tripField_leaves {o : Occ} (hn : n < 36) (hst : 3 ≤ d.rd Reg.stage) (hp : d.rd Reg.pstate < 4) (hon : d.fieldOn n = true) :
    (d.tripField n o).rd (Reg.fieldState n) = 1 ∧ (d.tripField n o).rd (Reg.lockState n) = 3 ∧ (d.tripField n o).rd (Reg.errTrip n) = 1 ∧
      n ∈ (d.tripField n o).wafer.lostFields := by
  obtain ⟨h1, h2, h3⟩ := trippedDev_regs (d := d) (o := o) hn
  rw [tripField_trips hn hst hp hon]
  split
  · next hc => exact ⟨h1, h2, h3, by simpa using hc⟩
  · obtain ⟨hregs, hlost⟩ := loseTiles_leaves (trippedDev d n o) n o.code true
    rw [hregs _ (lasting_fieldState hn), hregs _ (lasting_lockState hn), hregs _ (lasting_errTrip hn), hlost]
    exact ⟨h1, h2, h3, List.mem_append_right _ List.mem_cons_self⟩

end

/-! A lost phase, and the voltages of a field. -/

section
variable {d : Dev} {n k : Nat}

/-- A device with one more lost phase of a field's rail. -/
def phaseLostDev (d : Dev) (n k : Nat) : Dev :=
  ({ d with pwr := { d.pwr with phaseLost := d.pwr.phaseLost ++ [(n, k)] } }.raise
    { code := Rc.regPhaseLost, detail := n + 64 * b2n (inRange n 64 36) + 128 * k, source := 2 + n, field := n, unitKind := 10, unit := n }).setW1c
    (Reg.errPhase n) (2 + n) true

theorem phasesLeft_first {e : Dev} (hk : k < 16) (h : d.phasesLeft n 16 0 32 = 16) (he : e.pwr.phaseLost = d.pwr.phaseLost ++ [(n, k)]) :
    e.phasesLeft n 16 0 32 = 15 := by
  unfold Dev.phasesLeft at h ⊢
  rw [he]
  simp only [List.filter_append, List.length_append]
  have h1 : ([(n, k)].filter fun p => p.1 == n && p.2 / 32 == 0).length = 1 := by
    simp only [List.filter_cons, List.filter_nil, beq_self_eq_true, Bool.true_and]
    rw [if_pos (by simpa using by omega)]
    rfl
  omega

theorem regPhaseLost_first (hn : n < 36) (hk : k < 16) (hst : 1 ≤ d.rd Reg.stage) (hc : (n, k) ∉ d.pwr.phaseLost)
    (h : d.phasesLeft n 16 0 32 = 16) : effRegPhaseLost n k d = (phaseLostDev d n k).wr (Reg.vlPhases n) 15 := by
  have hrail : isRail n = true := by simp [isRail, hn]
  have hlev : (n == 129 || n == 130) = false := by simp; omega
  have hmod : n % 64 = n := by omega
  have hfield : (decide (n < 36) && decide (n < 128)) = true := by simp; omega
  unfold effRegPhaseLost
  rw [show railPhases n = (16, 15) from if_pos hn]
  dsimp only
  rw [hrail, hlev, hmod, if_neg (by simp [hc]; omega), hfield, if_pos rfl, if_pos hn, if_neg Bool.false_ne_true]
  rw [phasesLeft_first hk h]
  · rw [if_neg (by decide), if_neg (by decide)]
    rfl
  · rfl

theorem readVolts_frame (d : Dev) (xs : List VoltRead) : d.readVolts xs = { d with wafer := { d.wafer with volts := (d.readVolts xs).wafer.volts } } := by
  refine foldl_of_step (R := fun d e : Dev => e = { d with wafer := { d.wafer with volts := e.wafer.volts } }) (fun _ => rfl)
    (fun {d e g} h k => ?_) (fun d x => ?_) xs d
  · rw [h] at k
    exact k
  · split <;> rfl

/-- The new setpoint of a field, in halves of a millivolt (17 R391). -/
def newSetpoint (d : Dev) (n : Nat) (v : List VoltRead) : Nat :=
  (max 1300 (min 1800 (((AMap.get 0 d.pwr.vlHalf n : Nat) : Int) + max (-5) (min 5 (2 * ((d.rd (Reg.vminTarget n) : Int) - minOf (d.treeVolts n v))))))).toNat

theorem newSetpoint_range (d : Dev) (n : Nat) (v : List VoltRead) : 1300 ≤ newSetpoint d n v ∧ newSetpoint d n v ≤ 1800 ∧
    (1300 ≤ AMap.get 0 d.pwr.vlHalf n → AMap.get 0 d.pwr.vlHalf n ≤ 1800 →
      newSetpoint d n v ≤ AMap.get 0 d.pwr.vlHalf n + 5 ∧ AMap.get 0 d.pwr.vlHalf n ≤ newSetpoint d n v + 5) := by
  unfold newSetpoint
  omega

theorem rounded_half_lt {m : Nat} (h : m ≤ 1800) (what : Nat) : (rounded what (m : Nat) 2).toNat < 2 ^ 10 := by
  unfold rounded
  split <;> omega

/-- A device whose field has a new setpoint. -/
def setpointDev (d : Dev) (n : Nat) (v : List VoltRead) : Dev :=
  { d.readVolts v with pwr := { (d.readVolts v).pwr with vlHalf := AMap.insert n (newSetpoint d n v) (d.readVolts v).pwr.vlHalf } }

theorem voltageUpdate_sets {v : List VoltRead} {a : Nat} (hn : n < 36) (hst : 3 ≤ d.rd Reg.stage) (hon : d.fieldOn n = true)
    (hp : d.rd Reg.pstate < 2) (hv : d.treeVolts n v ≠ []) : effVoltageUpdate n v a d =
      (((setpointDev d n v).wr (Reg.vlSet n) (rounded 4 (newSetpoint d n v : Nat) 2).toNat).wr (Reg.vmin n) (minOf (d.treeVolts n v))).wr (Reg.vlAmps n) a := by
  unfold effVoltageUpdate
  rw [if_neg (by simp [hon]; omega), if_neg (by simpa using hv)]
  have hpwr : (d.readVolts v).pwr = d.pwr := by rw [readVolts_frame]
  have hrd : (d.readVolts v).rd (Reg.vminTarget n) = d.rd (Reg.vminTarget n) := by rw [readVolts_frame]; rfl
  unfold setpointDev newSetpoint
  dsimp only
  rw [hpwr, hrd]

/-- What a lost phase leaves, the first of its field. -/
theorem regPhaseLost_leaves (hn : n < 36) (hk : k < 16) (hst : 1 ≤ d.rd Reg.stage) (hc : (n, k) ∉ d.pwr.phaseLost) (h : d.phasesLeft n 16 0 32 = 16) :
    (effRegPhaseLost n k d).pwr.phaseLost = d.pwr.phaseLost ++ [(n, k)] ∧ (effRegPhaseLost n k d).rd (Reg.vlPhases n) = 15 ∧
    (effRegPhaseLost n k d).rd (Reg.errPhase n) = 1 ∧ (effRegPhaseLost n k d).rd (Reg.fieldState n) = d.rd (Reg.fieldState n) ∧
    (effRegPhaseLost n k d).serve = d.serve := by
  have hep : fldKey (Reg.errPhase n) ≠ fldKey (Reg.vlPhases n) := fldKey_ne_of_lo (by decide)
  have hfp : fldKey (Reg.fieldState n) ≠ fldKey (Reg.vlPhases n) := fldKey_ne_of_lo (by decide)
  have hfe : fldKey (Reg.fieldState n) ≠ fldKey (Reg.errPhase n) := fldKey_ne_of_lo (by decide)
  rw [regPhaseLost_first hn hk hst hc h, rd_wr_of_ne _ _ _ _ hep, rd_wr_of_ne _ _ _ _ hfp]
  refine ⟨rfl, rd_wr _ _ 15, rd_setW1c_bit _ rfl, ?_, rfl⟩
  exact rd_setW1c_of_ne _ _ _ _ _ _ hfe

/-- What a voltage update leaves (17 R391). -/
theorem voltageUpdate_leaves {v : List VoltRead} {a : Nat} (hn : n < 36) (hst : 3 ≤ d.rd Reg.stage) (hon : d.fieldOn n = true)
    (hp : d.rd Reg.pstate < 2) (hv : d.treeVolts n v ≠ []) : AMap.get 0 (effVoltageUpdate n v a d).pwr.vlHalf n = newSetpoint d n v ∧
      (effVoltageUpdate n v a d).rd (Reg.vlSet n) = (rounded 4 (newSetpoint d n v : Nat) 2).toNat ∧
      (effVoltageUpdate n v a d).rd (Reg.vmin n) = minOf (d.treeVolts n v) % 2 ^ 10 ∧ (effVoltageUpdate n v a d).serve = d.serve ∧
      (effVoltageUpdate n v a d).wafer = (d.readVolts v).wafer := by
  have hma : fldKey (Reg.vmin n) ≠ fldKey (Reg.vlAmps n) := fldKey_ne_of_lo (by decide)
  have hsa : fldKey (Reg.vlSet n) ≠ fldKey (Reg.vlAmps n) := by show 64 * (0x200108 + 16 * n) + 10 ≠ 64 * (0x200100 + 16 * n) + 20; omega
  have hsm : fldKey (Reg.vlSet n) ≠ fldKey (Reg.vmin n) := by show 64 * (0x200108 + 16 * n) + 10 ≠ 64 * (0x200100 + 16 * n) + 10; omega
  rw [voltageUpdate_sets hn hst hon hp hv, rd_wr_of_ne _ _ _ _ hma, rd_wr_of_ne _ _ _ _ hsa, rd_wr_of_ne _ _ _ _ hsm]
  refine ⟨(get_insert 0 _ n n _).trans (if_pos rfl), ?_, rd_wr _ _ _, ?_, rfl⟩
  · exact (rd_wr _ _ _).trans (Nat.mod_eq_of_lt (rounded_half_lt (newSetpoint_range d n v).2.1 4))
  · show (d.readVolts v).serve = d.serve
    rw [readVolts_frame]

/-! Oscillators. -/

/-- A device whose oscillator has unlocked, before its field's tiles stop. -/
def unlockedDev (d : Dev) (n : Nat) : Dev :=
  ((d.wr (Reg.lockState n) 0).raise (fieldOcc n Rc.oscUnlock n 1)).setW1c (Reg.oscErrUnlock n) (2 + n)

theorem unlockedDev_regs : (unlockedDev d n).rd (Reg.lockState n) = 0 ∧ (unlockedDev d n).rd (Reg.oscErrUnlock n) = 1 ∧
    (unlockedDev d n).rd (Reg.fieldState n) = d.rd (Reg.fieldState n) := by
  have hle : fldKey (Reg.lockState n) ≠ fldKey (Reg.oscErrUnlock n) := fldKey_ne_of_lo (by decide)
  have hfe : fldKey (Reg.fieldState n) ≠ fldKey (Reg.oscErrUnlock n) := fldKey_field_ne_osc (by decide) (by decide)
  have hfl : fldKey (Reg.fieldState n) ≠ fldKey (Reg.lockState n) := fldKey_field_ne_osc (by decide) (by decide)
  unfold unlockedDev
  refine ⟨?_, rd_setW1c_bit _ rfl, ?_⟩
  · rw [rd_setW1c_of_ne _ _ _ _ _ _ hle, rd_raise]
    exact rd_wr _ _ 0
  · rw [rd_setW1c_of_ne _ _ _ _ _ _ hfe, rd_raise, rd_wr_of_ne _ _ _ _ hfl]

/-- The registers of fields and oscillators after the unlocking of one. -/
theorem unlockField_leaves (f : Fld) (hf : Lasting f) : (d.unlockField n).rd f = (unlockedDev d n).rd f := by
  show (if (unlockedDev d n).wafer.lostFields.contains n then (unlockedDev d n).cutField n else (unlockedDev d n).loseTiles n Rc.oscUnlock false).rd f = _
  split
  · exact (Steady.cutField _ n).regs f hf
  · exact (loseTiles_leaves _ n _ false).1 f hf

end

/-- A relock lets beats run or not as they did. -/
theorem noBeats_relocked (d : Dev) (n : Nat) : ({ (d.wr (Reg.lockState n) 1).raise (fieldOcc n Rc.oscRelock n 0) with
    wafer := { d.wafer with relink := d.wafer.relink ++ [n] } } : Dev).noBeats = d.noBeats := by
  have hp : fldKey Reg.pstate ≠ fldKey (Reg.lockState n) := by show 64 * 0x1000 + 3 ≠ 64 * (0x201100 + 16 * n) + 0; omega
  have hi : fldKey Reg.imageState ≠ fldKey (Reg.lockState n) := by show 64 * 0x1000 + 7 ≠ 64 * (0x201100 + 16 * n) + 0; omega
  show ((d.wr (Reg.lockState n) 1).rd Reg.pstate != 0 || !((d.wr (Reg.lockState n) 1).rd Reg.imageState == 1)) = _
  rw [rd_wr_of_ne _ _ _ _ hp, rd_wr_of_ne _ _ _ _ hi]
  rfl

/-- Settles O50: the guard of each command, and what it leaves where it acts. -/
theorem fieldsAndOscillators : Obligations.FieldsAndOscillators := by
  unfold Obligations.FieldsAndOscillators
  intro s
  dsimp only
  refine ⟨fun n cause hoff hk => ?_, fun n cause hn hon hst hp => ?_, fun n hoff => congrArg s.next (if_neg (by rw [hoff]; decide)), fun n hn hon hst hp => ?_,
    fun rail k h => ?_, fun n k hn hk hst hc h => ?_, fun n v a h => ?_, fun n v a hn hst hon hp hv => ?_, fun t e h => ?_, fun t e hst hp hs => ?_,
    fun n h => ?_, fun n hn hl => ?_, fun n h => ?_, fun n hn hl hnb => ?_, fun n ok h => ?_, fun n hn hst hl hon hb => ?_⟩
  · refine congrArg s.next (if_neg ?_)
    rw [hoff]
    simpa using hk
  · refine answers_of_eff (congrArg s.next (if_pos (by rw [hon]; rfl))) fun u hu => ?_
    rw [hu.regs _ (plain_lasting (lasting_fieldState hn)), hu.regs _ (plain_lasting (lasting_lockState hn)),
      hu.regs _ (plain_lasting (lasting_errTrip hn)), hu.wafer]
    exact tripField_leaves hn hst hp hon
  · refine answers_of_eff (congrArg s.next (if_pos hon)) fun u hu => ?_
    rw [hu.regs _ (plain_lasting (lasting_fieldState hn)), hu.regs _ (plain_lasting (lasting_errTrip hn)), hu.wafer]
    obtain ⟨h1, -, h3, h4⟩ := tripField_leaves (o := tripOcc n 2) hn hst hp hon
    exact ⟨h1, h3, h4⟩
  · refine congrArg s.next ?_
    unfold effRegPhaseLost
    refine if_pos ?_
    rcases h with h | h | h
    · simp [h]
    · simp [Nat.lt_one_iff.1 h]
    · simp [h]
  · refine answers_of_eff (c := .regPhaseLost n k) (s := s) (e := effRegPhaseLost n k s.dev) rfl fun u hu => ?_
    rw [hu.pwr, hu.serve, hu.regs _ (plain_lasting (lasting_fieldState hn)), hu.regs _ (plain_lasting (lasting_vlPhases hn)),
      hu.regs _ (plain_lasting (lasting_errPhase hn))]
    exact regPhaseLost_leaves hn hk hst hc h
  · exact congrArg s.next (if_pos (by rcases h with h | h | h | h <;> simp [h]))
  · refine answers_of_eff (c := .voltageUpdate n v a) (s := s) (e := effVoltageUpdate n v a s.dev) rfl fun u hu => ?_
    obtain ⟨h1, h2, h3, h4, h5⟩ := voltageUpdate_leaves (a := a) hn hst hon hp hv
    obtain ⟨hlo, hhi, hstep⟩ := newSetpoint_range s.dev n v
    rw [hu.pwr, hu.serve, hu.wafer, hu.regs _ (plain_lasting (lasting_vlSet hn)), hu.regs _ (plain_lasting (lasting_vmin hn)), h1]
    exact ⟨hlo, hhi, hstep, h2, h3, h4, h5⟩
  · exact congrArg s.next (if_pos (by rcases h with h | h | h <;> simp [h]))
  · exact congrArg s.next (if_neg (by simp [hs]; omega))
  · exact congrArg s.next (if_pos (by rcases h with h | h <;> simp [h]))
  · refine answers_of_eff (congrArg s.next (if_neg (by simp [hl]; omega))) fun u hu => ?_
    rw [hu.regs _ (plain_lasting (lasting_fieldState hn)), hu.regs _ (plain_lasting (lasting_lockState hn)),
      hu.regs _ (plain_lasting (lasting_oscErrUnlock hn)), unlockField_leaves _ (lasting_lockState hn), unlockField_leaves _ (lasting_oscErrUnlock hn),
      unlockField_leaves _ (lasting_fieldState hn)]
    exact unlockedDev_regs
  · exact congrArg s.next (if_pos (by rcases h with h | h <;> simp [h]))
  · exact congrArg s.next ((if_neg (by simp [hl]; omega)).trans (if_pos hnb))
  · exact congrArg s.next (if_pos (by rcases h with h | h | h | h | h <;> simp [h]))
  · refine congrArg s.next ((if_neg (by simp [hl, hon]; omega)).trans (if_neg (Bool.eq_false_iff.1 ?_)))
    exact (noBeats_relocked s.dev n).trans hb

end Sys2Proof.Proofs
end

section
/-! PROOFS. P1, the end of a transition, lost coolant (18 R411, 19 R424-R428). -/
namespace Sys2Proof.Proofs
open Sys2Proof.Machine Sys2Proof.Laws

/-- A field whose word lies on a line of 64 bytes at none of the places of a completion ring's words. -/
theorem replyLeaves_of_mod {f : Fld} (hlo : f.lo < 64) (h18 : f.off % 64 ≠ 0x18) (h30 : f.off % 64 ≠ 0x30) : ReplyLeaves f := by
  intro q
  simp only [fldKey, Reg.cqTail, Reg.cqHead, Reg.errBase, Reg.cqStall]
  omega

/-- `e` is `d` but for jobs that have ended and what their answers change. -/
structure JobsEnded (d e : Dev) : Prop where
  wafer : e.wafer = d.wafer
  mesh : e.mesh = d.mesh
  img : e.img = d.img
  wts : e.wts = d.wts
  pwr : e.pwr = d.pwr
  serve : e.serve = { d.serve with streams := e.serve.streams }
  regs : ∀ f, ReplyLeaves f → e.rd f = d.rd f

namespace JobsEnded
variable {d e g : Dev}

theorem refl (d : Dev) : JobsEnded d d := ⟨rfl, rfl, rfl, rfl, rfl, rfl, fun _ _ => rfl⟩

theorem trans (h : JobsEnded d e) (k : JobsEnded e g) : JobsEnded d g :=
  ⟨k.wafer.trans h.wafer, k.mesh.trans h.mesh, k.img.trans h.img, k.wts.trans h.wts, k.pwr.trans h.pwr, by rw [k.serve, h.serve],
    fun f hf => (k.regs f hf).trans (h.regs f hf)⟩

theorem of_replied (h : Replied d e) : JobsEnded d e := ⟨h.wafer, h.mesh, h.img, h.wts, h.pwr, h.serve, h.regs⟩

theorem finishJob (d : Dev) (j : Job) (p : Reply) : JobsEnded d (d.finishJob j p) := by
  have h := of_replied (finishJob_replied d j p)
  exact ⟨h.wafer, h.mesh, h.img, h.wts, h.pwr, h.serve, h.regs⟩

theorem finishJobs (l : List Job) (p : Reply) (d : Dev) : JobsEnded d (l.foldl (fun d j => d.finishJob j p) d) :=
  foldl_of_step refl trans (fun d j => finishJob d j p) l d

end JobsEnded

section
variable (d : Dev) (t : Nat)

/-- A device in a power state, before the commands that asked for it end. -/
def enteredDev : Dev :=
  { ((d.wr Reg.pstate t).wr Reg.pstateBusy 0).wr Reg.pstateTarget t with
    pwr := { d.pwr with transition := none }, serve := { d.serve with between := true } }.raise
    { code := Rc.pstateChanged, detail := t + 8 * d.rd Reg.pstate, source := 75 }

theorem enterState_ended : JobsEnded (enteredDev d t) (d.enterState t) := JobsEnded.finishJobs _ _ _

theorem enterState_of_noJobs (h : d.jobs 0x04 = []) : d.enterState t = enteredDev d t := by
  show ((enteredDev d t).jobs 0x04).foldl (fun e j => e.finishJob j { result := d.rd Reg.pstate }) (enteredDev d t) = _
  rw [show (enteredDev d t).jobs 0x04 = [] from h]
  rfl

theorem enteredDev_rd_pstate (ht : t < 8) : (enteredDev d t).rd Reg.pstate = t := by
  show (((d.wr Reg.pstate t).wr Reg.pstateBusy 0).wr Reg.pstateTarget t).rd Reg.pstate = t
  rw [rd_wr_of_ne _ _ _ _ (by decide), rd_wr_of_ne _ _ _ _ (by decide), rd_wr]
  exact Nat.mod_eq_of_lt ht

theorem enteredDev_rd_busy : (enteredDev d t).rd Reg.pstateBusy = 0 := by
  show (((d.wr Reg.pstate t).wr Reg.pstateBusy 0).wr Reg.pstateTarget t).rd Reg.pstateBusy = 0
  rw [rd_wr_of_ne _ _ _ _ (by decide)]
  exact rd_wr _ _ 0

theorem enteredDev_rd_target (ht : t < 8) : (enteredDev d t).rd Reg.pstateTarget = t := by
  show (((d.wr Reg.pstate t).wr Reg.pstateBusy 0).wr Reg.pstateTarget t).rd Reg.pstateTarget = t
  rw [rd_wr]
  exact Nat.mod_eq_of_lt ht

theorem enteredDev_rd_of_ne {f : Fld} (h1 : fldKey f ≠ fldKey Reg.pstate) (h2 : fldKey f ≠ fldKey Reg.pstateBusy)
    (h3 : fldKey f ≠ fldKey Reg.pstateTarget) : (enteredDev d t).rd f = d.rd f := by
  show (((d.wr Reg.pstate t).wr Reg.pstateBusy 0).wr Reg.pstateTarget t).rd f = _
  rw [rd_wr_of_ne _ _ _ _ h3, rd_wr_of_ne _ _ _ _ h2, rd_wr_of_ne _ _ _ _ h1]

end

/-! P1. -/

/-- Every `VMIN_TARGET` at the voltage of P1. -/
def lowVolts (d : Dev) : Dev := (List.range 36).foldl (fun (d : Dev) n => d.wr (Reg.vminTarget n) 650) d

theorem fldKey_vminTarget_ne {n m : Nat} (h : n ≠ m) : fldKey (Reg.vminTarget n) ≠ fldKey (Reg.vminTarget m) := by
  show 64 * (0x200108 + 16 * n) + 0 ≠ 64 * (0x200108 + 16 * m) + 0
  omega

/-- A fold of writes of one field for each number leaves the value in each. -/
theorem rd_foldl_vminTarget (l : List Nat) (d : Dev) (n : Nat) : (l.foldl (fun (d : Dev) n => d.wr (Reg.vminTarget n) 650) d).rd (Reg.vminTarget n) =
    if n ∈ l then 650 else d.rd (Reg.vminTarget n) := by
  induction l generalizing d with
  | nil => exact (if_neg List.not_mem_nil).symm
  | cons m l ih =>
    rw [List.foldl_cons, ih]
    by_cases hm : n = m
    · subst hm
      rw [if_pos List.mem_cons_self, rd_wr]
      split <;> rfl
    · rw [rd_wr_of_ne _ _ _ _ (fldKey_vminTarget_ne hm)]
      simp [hm]

theorem lowVolts_frame (d : Dev) : lowVolts d = { d with regs := (lowVolts d).regs } := by
  refine foldl_of_step (R := fun d e : Dev => e = { d with regs := e.regs }) (fun _ => rfl) (fun {d e g} h k => ?_) (fun _ _ => rfl) _ d
  rw [h] at k
  exact k

theorem lowVolts_keeps (d : Dev) : (enteredDev (lowVolts d) 1).wafer = d.wafer ∧ (enteredDev (lowVolts d) 1).serve.streams = d.serve.streams := by
  have h := lowVolts_frame d
  generalize lowVolts d = x at h ⊢
  rw [h]
  exact ⟨rfl, rfl⟩

theorem enteredDev_vminTarget (d : Dev) {n : Nat} (hn : n < 36) : (enteredDev (lowVolts d) 1).rd (Reg.vminTarget n) = 650 := by
  have key {f : Fld} (h : f.off < 0x200000) (hlo : f.lo < 64) : fldKey (Reg.vminTarget n) ≠ fldKey f := by
    show 64 * (0x200108 + 16 * n) + 0 ≠ 64 * f.off + f.lo
    omega
  rw [enteredDev_rd_of_ne _ 1 (key (by decide) (by decide)) (key (by decide) (by decide)) (key (by decide) (by decide))]
  exact (rd_foldl_vminTarget _ d n).trans (if_pos (List.mem_range.2 hn))

theorem p1Entry_lowers {d : Dev} (hst : 7 ≤ d.rd Reg.stage) (hp : d.rd Reg.pstate = 0) (hb : d.bit Reg.pstateBusy = false)
    (hd : d.rd Reg.p1Delay ≠ 0) (hdr : d.drained = true) (hw : d.hasWork = false) (hi : d.issueStands = false) (hj : d.jobs 0x04 = [])
    (ha : d.img.activating = false) : effP1Entry d = enteredDev (lowVolts d) 1 := by
  unfold effP1Entry
  rw [if_neg (by simp [hp, hb, hd, hdr, hw, hi, hj, ha, hst])]
  have hj' : (lowVolts d).jobs 0x04 = [] := by
    rw [Dev.jobs, show (lowVolts d).io = d.io from (congrArg Dev.io (lowVolts_frame d) :)]
    exact hj
  refine Eq.trans ?_ (enterState_of_noJobs (lowVolts d) 1 hj')
  unfold Dev.goDown
  rw [if_pos rfl, hp, if_neg (by decide)]
  rfl

/-! Lost coolant. -/

/-- A device whose waves are abandoned and whose tiles sleep without weights. -/
def fallenDev (d : Dev) : Dev := (((d.abandonWaves.hold 3).mapStreams holdStream).sleepTiles false).markLost

/-- `e` is `d` but for the states of its fields and their oscillators. -/
def FieldsSlept (d e : Dev) : Prop := e = { d with regs := e.regs } ∧
  ∀ f, (∀ n, fldKey f ≠ fldKey (Reg.fieldState n) ∧ fldKey f ≠ fldKey (Reg.lockState n)) → e.rd f = d.rd f

theorem FieldsSlept.trans {d e g : Dev} (h : FieldsSlept d e) (k : FieldsSlept e g) : FieldsSlept d g := by
  refine ⟨?_, fun f hf => (k.2 f hf).trans (h.2 f hf)⟩
  have hk := k.1
  rw [h.1] at hk
  exact hk

/-- Sleeping tiles, before the fields are noted as asleep. -/
def sleptBase (d : Dev) (keep : Bool) : Dev :=
  ({ d with wafer := { d.wafer with sites := if keep then d.wafer.sites.map fun (e : Nat × Site) => (e.1, ({ weights := e.2.weights } : Site)) else [] },
            serve := { d.serve with ptes := d.serve.ptes.map fun (p : Pte) => { p with cached := false } } }).emptyMesh

theorem sleepTiles_slept (d : Dev) (keep : Bool) : FieldsSlept (sleptBase d keep) (d.sleepTiles keep) := by
  unfold Dev.sleepTiles
  refine foldl_of_step (R := FieldsSlept) (fun _ => ⟨rfl, fun _ _ => rfl⟩) FieldsSlept.trans (fun d n => ?_) (List.range 36) (sleptBase d keep)
  split
  · refine ⟨rfl, fun f hf => ?_⟩
    rw [rd_wr_of_ne _ _ _ _ (hf n).2, rd_wr_of_ne _ _ _ _ (hf n).1]
  · exact ⟨rfl, fun _ _ => rfl⟩

theorem hold_serve (d : Dev) (why : Nat) : (d.hold why).serve = { d.serve with holds := (d.hold why).serve.holds } := by
  unfold Dev.hold
  split <;> rfl

theorem hold_frame (d : Dev) (why : Nat) : d.hold why = { d with serve := (d.hold why).serve } := by
  unfold Dev.hold
  split <;> rfl

theorem held_hold (d : Dev) (why : Nat) : (d.hold why).held why = true := by
  unfold Dev.hold
  split
  · next h => exact h
  · simp [Dev.held]

/-- What lost coolant leaves before the power state is entered. -/
theorem fallenDev_leaves (d : Dev) : (fallenDev d).serve.waves = [] ∧ (fallenDev d).serve.replays = [] ∧ (fallenDev d).held 3 = true ∧
    (fallenDev d).pwr.weightsOut = true ∧ (fallenDev d).wafer.sites = [] := by
  have hs := (sleepTiles_slept ((d.abandonWaves.hold 3).mapStreams holdStream) false).1
  unfold fallenDev
  generalize Dev.sleepTiles _ false = y at hs ⊢
  rw [hs]
  refine ⟨?_, ?_, held_hold _ _, rfl, rfl⟩
  · show (d.abandonWaves.hold 3).serve.waves = []
    rw [hold_serve]
    rfl
  · show (d.abandonWaves.hold 3).serve.replays = []
    rw [hold_serve]
    rfl

theorem rd_fallenDev (d : Dev) {f : Fld} (hf : ∀ n, fldKey f ≠ fldKey (Reg.fieldState n) ∧ fldKey f ≠ fldKey (Reg.lockState n)) :
    (fallenDev d).rd f = d.rd f := by
  have hs := (sleepTiles_slept ((d.abandonWaves.hold 3).mapStreams holdStream) false).2 f hf
  unfold fallenDev
  generalize Dev.sleepTiles _ false = y at hs ⊢
  refine Eq.trans (b := y.rd f) rfl (hs.trans ?_)
  show (d.abandonWaves.hold 3).rd f = d.rd f
  rw [hold_frame]
  exact rd_abandonWaves d f

theorem errCoolant_ne_field (n : Nat) : fldKey Reg.errCoolant ≠ fldKey (Reg.fieldState n) ∧ fldKey Reg.errCoolant ≠ fldKey (Reg.lockState n) := by
  refine ⟨?_, ?_⟩
  · show 64 * 0x201008 + 47 ≠ 64 * (0x200100 + 16 * n) + 0
    omega
  · show 64 * 0x201008 + 47 ≠ 64 * (0x201100 + 16 * n) + 0
    omega

theorem pstate_ne_field (n : Nat) : fldKey Reg.pstate ≠ fldKey (Reg.fieldState n) ∧ fldKey Reg.pstate ≠ fldKey (Reg.lockState n) := by
  refine ⟨?_, ?_⟩
  · show 64 * 0x1000 + 3 ≠ 64 * (0x200100 + 16 * n) + 0
    omega
  · show 64 * 0x1000 + 3 ≠ 64 * (0x201100 + 16 * n) + 0
    omega

theorem errCoolant_leaves : ReplyLeaves Reg.errCoolant := replyLeaves_of_mod (by decide) (by decide) (by decide)

/-- Fallen to P3: the waves are abandoned, the weights gone. -/
theorem fallToP3_leaves (d : Dev) : d.fallToP3.rd Reg.pstate = 3 ∧ d.fallToP3.rd Reg.pstateBusy = 0 ∧
    d.fallToP3.rd Reg.errCoolant = d.rd Reg.errCoolant ∧ d.fallToP3.serve.waves = [] ∧ d.fallToP3.serve.replays = [] ∧ d.fallToP3.held 3 = true ∧
    d.fallToP3.pwr.weightsOut = true ∧ d.fallToP3.wafer.sites = [] := by
  obtain ⟨h1, h2, h3, h4, h5⟩ := fallenDev_leaves d
  have hc := rd_fallenDev d errCoolant_ne_field
  have hf : d.fallToP3 = if (fallenDev d).rd Reg.pstate = 3 then ((fallenDev d).wr Reg.pstateBusy 0).wr Reg.pstateTarget 3 else (fallenDev d).enterState 3 := rfl
  rw [hf]
  generalize fallenDev d = x at h1 h2 h3 h4 h5 hc ⊢
  split
  · next hp =>
    rw [rd_wr_of_ne _ Reg.pstateTarget Reg.pstate 3 (by decide), rd_wr_of_ne _ Reg.pstateBusy Reg.pstate 0 (by decide),
      rd_wr_of_ne _ Reg.pstateTarget Reg.pstateBusy 3 (by decide), rd_wr_of_ne _ Reg.pstateTarget Reg.errCoolant 3 (by decide),
      rd_wr_of_ne _ Reg.pstateBusy Reg.errCoolant 0 (by decide)]
    exact ⟨hp, rd_wr _ _ 0, hc, h1, h2, h3, h4, h5⟩
  · have he := enterState_ended x 3
    rw [he.regs _ (replyLeaves_of_low (by decide) (by decide)), he.regs _ (replyLeaves_of_low (by decide) (by decide)), he.regs _ errCoolant_leaves,
      Dev.held, he.serve, he.pwr, he.wafer]
    refine ⟨enteredDev_rd_pstate _ 3 (by decide), enteredDev_rd_busy _ 3, ?_, h1, h2, h3, h4, h5⟩
    exact (enteredDev_rd_of_ne _ 3 (by decide) (by decide) (by decide)).trans hc

/-- A wake that is abandoned keeps `ERR_COOLANT`. -/
theorem rd_abandonWake_errCoolant (d : Dev) : d.abandonWake.rd Reg.errCoolant = d.rd Reg.errCoolant := by
  have hw (c : Prop) [Decidable c] : (if c then (d.raise { code := Rc.wakeAbandoned, detail := 0, source := 75 }).setW1c Reg.errWake 75 true else d).rd
      Reg.errCoolant = d.rd Reg.errCoolant := by
    split
    · exact rd_setW1c_of_ne _ _ _ _ _ _ (by decide)
    · rfl
  unfold Dev.abandonWake
  split
  · rfl
  · dsimp only
    split
    · exact hw _
    · exact ((JobsEnded.finishJobs _ _ _).regs _ errCoolant_leaves).trans (hw _)

/-- A device that has noted its lost coolant. -/
def coolantLostDev (d : Dev) (k : Nat) : Dev :=
  (d.raise { code := Rc.coolantLost, detail := k % 2, cls := 1, outcome := 0 }).setW1c Reg.errCoolant 73

theorem coolantLost_falls {d : Dev} {k : Nat} (hst : 3 ≤ d.rd Reg.stage) (hp : d.rd Reg.pstate < 4) :
    effCoolantLost k d = (coolantLostDev d k).abandonWake.fallToP3 := if_neg (by simp; omega)

/-- Settles O47: the guard of each command, the state that P1 enters, and the fall to P3. -/
theorem powerStateCommands : Obligations.PowerStateCommands := by
  unfold Obligations.PowerStateCommands
  intro s
  dsimp only
  refine ⟨fun h => ?_, fun hst hp hb hd hdr hw hi hj ha => ?_, fun h => ?_, fun hb hc ht => ?_, fun t hb hc ht hn htr => ?_, fun k h => ?_, fun k hst hp => ?_⟩
  · exact congrArg s.next (if_pos (by rcases h with h | h | h | h | h | h <;> simp [h]))
  · refine answers_of_eff (congrArg s.next (p1Entry_lowers hst hp hb hd hdr hw hi hj ha)) fun u hu => ?_
    rw [hu.regs Reg.pstate (plain_of _ (by decide) (by decide)), hu.regs Reg.pstateTarget (plain_of _ (by decide) (by decide)),
      hu.regs Reg.pstateBusy (plain_of _ (by decide) (by decide)), hu.wafer, hu.serve]
    refine ⟨enteredDev_rd_pstate _ 1 (by decide), enteredDev_rd_target _ 1 (by decide), enteredDev_rd_busy _ 1, fun n hn => ?_, ?_, ?_⟩
    · exact (hu.regs (Reg.vminTarget n) (plain_lasting (lasting_volts hn _ _ _ _ (by decide)))).trans (enteredDev_vminTarget s.dev hn)
    · exact (lowVolts_keeps s.dev).1
    · exact (lowVolts_keeps s.dev).2
  · exact congrArg s.next (if_pos (by rcases h with h | h <;> simp [h]))
  · refine congrArg s.next ((if_neg (by simp [hb, hc])).trans (if_pos ht))
  · refine congrArg s.next ((if_neg (by simp [hb, hc])).trans ((if_neg ht).trans ?_))
    rw [hn, if_neg Bool.false_ne_true]
    dsimp only
    rw [htr]
  · exact congrArg s.next (if_pos (by rcases h with h | h <;> simp [h]))
  · refine answers_of_eff (congrArg s.next (coolantLost_falls hst hp)) fun u hu => ?_
    obtain ⟨h1, h2, h3, h4, h5, h6, h7, h8⟩ := fallToP3_leaves (coolantLostDev s.dev k).abandonWake
    rw [hu.regs Reg.pstate (plain_of _ (by decide) (by decide)), hu.regs Reg.pstateBusy (plain_of _ (by decide) (by decide)),
      hu.regs Reg.errCoolant (plain_of _ (by decide) (by decide)), Dev.held, hu.serve, hu.pwr, hu.wafer]
    refine ⟨h1, h2, h3.trans ((rd_abandonWake_errCoolant _).trans ?_), h4, h5, h6, h7, h8⟩
    exact rd_setW1c_bit _ rfl

end Sys2Proof.Proofs
end

section
/-! PROOFS. What the end of streams, commands and images leaves as it was (11 R283-R286, 12 R310-R311, 20 R436). -/
namespace Sys2Proof.Proofs
open Sys2Proof.Machine Sys2Proof.Laws

/-- A register of the fault block or of the memory stacks whose word lies at none of the places of a completion ring's words. -/
def FirmFld (f : Fld) : Prop :=
  f.lo < 64 ∧ f.off % 64 ≠ 0x18 ∧ f.off % 64 ≠ 0x30 ∧ (0x300000 ≤ f.off ∧ f.off < 0x400000 ∨ 0x500000 ≤ f.off ∧ f.off < 0x600000)

theorem FirmFld.leaves {f : Fld} (h : FirmFld f) : ReplyLeaves f := replyLeaves_of_mod h.1 h.2.1 h.2.2.1

/-- `e` is `d` after the serving of streams and commands: registers of faults and of stacks, the power circuits, and which image stands, are as they were. -/
structure Firm (d e : Dev) : Prop where
  regs : ∀ f, FirmFld f → e.rd f = d.rd f
  pwr : e.pwr = d.pwr
  img : ImgKept d e

namespace Firm
variable {d e g : Dev}

theorem of_same (h : e.regs = d.regs ∧ e.pwr = d.pwr ∧ ImgKept d e) : Firm d e := by
  obtain ⟨hr, hp, hi⟩ := h
  exact ⟨fun f _ => by rw [Dev.rd, Dev.rd, hr], hp, hi⟩

theorem refl (d : Dev) : Firm d d := of_same (by repeat constructor)

theorem trans (h : Firm d e) (k : Firm e g) : Firm d g :=
  ⟨fun f hf => (k.regs f hf).trans (h.regs f hf), k.pwr.trans h.pwr, h.img.trans k.img⟩

theorem ite {c : Prop} [Decidable c] (h : Firm d e) (k : Firm d g) : Firm d (if c then e else g) := by
  split
  · exact h
  · exact k

theorem foldl {α : Type} {f : Dev → α → Dev} (hf : ∀ d a, Firm d (f d a)) (l : List α) (d : Dev) : Firm d (l.foldl f d) :=
  foldl_of_step refl trans hf l d

theorem wr (d : Dev) (f : Fld) (v : Nat) (hlo : f.lo < 64) (hoff : f.off < 0x300000 ∨ 0x400000 ≤ f.off ∧ f.off < 0x500000 ∨ 0x600000 ≤ f.off) :
    Firm d (d.wr f v) := by
  refine ⟨fun g hg => rd_wr_of_ne _ _ _ _ ?_, rfl, ⟨rfl, rfl, rfl, rfl, rfl, rfl⟩⟩
  unfold FirmFld at hg
  unfold fldKey
  omega

theorem setW1c (d : Dev) (f : Fld) (n : Nat) (hlo : f.lo < 64) (hoff : f.off < 0x300000 ∨ 0x400000 ≤ f.off ∧ f.off < 0x500000 ∨ 0x600000 ≤ f.off) :
    Firm d (d.setW1c f n) := by
  refine ⟨fun g hg => rd_setW1c_of_ne _ _ _ _ _ _ ?_, rfl, ⟨rfl, rfl, rfl, rfl, rfl, rfl⟩⟩
  unfold FirmFld at hg
  unfold fldKey
  omega

theorem of_replied (h : Replied d e) : Firm d e := ⟨fun f hf => h.regs f hf.leaves, h.pwr, ImgKept.of_img h.img⟩

theorem of_weights (h : WeightsMoved d e) : Firm d e := by
  rw [show e = _ from h]
  exact of_same (by repeat constructor)

theorem of_ordered (h : Ordered d e) : Firm d e := by
  rw [show e = _ from h]
  exact of_same (by repeat constructor)

theorem finishJob (d : Dev) (j : Job) (p : Reply) : Firm d (d.finishJob j p) := Firm.trans (of_same (by repeat constructor)) (of_replied (finishJob_replied d j p))

theorem finishJobs (l : List Job) (p : Reply) (d : Dev) : Firm d (l.foldl (fun d j => d.finishJob j p) d) := foldl (fun d j => finishJob d j p) l d

/-! Pages and prefixes. -/

theorem hold (d : Dev) (why : Nat) : Firm d (d.hold why) := ite (refl d) (of_same (by repeat constructor))

theorem releasePage (d : Dev) (p : Pte) : Firm d (d.releasePage p) := ite (of_same (by repeat constructor)) (refl d)

theorem setPte (d : Dev) (p : Pte) : Firm d (d.setPte p) := of_same (by repeat constructor)

theorem dropPage (d : Dev) (p : Pte) : Firm d (d.dropPage p) := ite (((ite (of_same (by repeat constructor)) (refl d)).trans (releasePage _ p)).trans (setPte _ _)) (refl d)

theorem dropPages (d : Dev) (f : Pte → Bool) : Firm d (d.dropPages f) := foldl dropPage _ d

theorem freePages (d : Dev) (owner : Nat) : Firm d (d.freePages owner) := (foldl releasePage _ d).trans (of_same (by repeat constructor))

theorem onPrefix (d : Dev) (p : Nat) (f : Pfx → Pfx) : Firm d (d.onPrefix p f) := by
  unfold Dev.onPrefix
  split
  · exact of_same (by repeat constructor)
  · exact refl d

theorem reapFrom (n : Nat) : ∀ (d : Dev) (p : Nat), Firm d (d.reapFrom p n) := by
  induction n with
  | zero => exact fun d _ => refl d
  | succ n ih =>
    intro d p
    unfold Dev.reapFrom
    split
    · refine ite ?_ (refl d)
      dsimp only
      split
      · exact (((freePages d _).trans (of_same (by repeat constructor))).trans (onPrefix _ _ _)).trans (ih _ _)
      · exact (freePages d _).trans (of_same (by repeat constructor))
    · exact refl d

theorem pinBlocks (d : Dev) (owner n : Nat) (up : Bool) : Firm d (d.pinBlocks owner n up) := foldl (fun _ _ => (of_same (by repeat constructor))) _ d

theorem reapPrefix (d : Dev) (p : Nat) : Firm d (d.reapPrefix p) := reapFrom _ d p

theorem closePfxRec (d : Dev) (p : Nat) : Firm d (d.closePfxRec p) := ((pinBlocks d _ _ _).trans (onPrefix _ _ _)).trans (reapPrefix _ _)

theorem abandonPfxRec (d : Dev) (p : Nat) : Firm d (d.abandonPfxRec p) := ((foldl dropPage _ d).trans (of_same (by repeat constructor))).trans (closePfxRec _ _)

theorem unrefPrefix (d : Dev) (p : Nat) : Firm d (d.unrefPrefix p) := by
  unfold Dev.unrefPrefix
  dsimp only
  split
  · exact (onPrefix d _ _).trans (ite (abandonPfxRec _ _) (reapPrefix _ _))
  · exact onPrefix d _ _

/-! Streams that end. -/

theorem dropReference (d : Dev) (i : Nat) : Firm d (d.dropReference i) := by
  unfold Dev.dropReference
  split
  · split
    · exact Firm.trans (of_same (by repeat constructor)) (unrefPrefix _ _)
    · exact refl d
  · exact refl d

theorem freeStreamPages (d : Dev) (i : Nat) : Firm d (d.freeStreamPages i) := (dropReference d i).trans (freePages _ _)

theorem onStream (d : Dev) (i : Nat) (f : Machine.Stream → Machine.Stream) : Firm d (d.onStream i f) := by
  unfold Dev.onStream
  split
  · exact of_same (by repeat constructor)
  · exact refl d

theorem dropGenJob (d : Dev) (i : Nat) : Firm d (d.dropGenJob i) := of_same (by repeat constructor)

theorem finishCancels (d : Dev) (i : Nat) (p : Reply) : Firm d (d.finishCancels i p) := (onStream d i _).trans (finishJobs _ _ _)

theorem generationOver (d : Dev) (i reason : Nat) : Firm d (d.generationOver i reason) := (dropGenJob d i).trans (onStream _ _ _)

theorem freeStream (d : Dev) (i : Nat) : Firm d (d.freeStream i) := by
  unfold Dev.freeStream
  split
  · exact (((freeStreamPages d i).trans (of_same (by repeat constructor))).trans (foldl (fun d g => of_replied (Replied.postGroup d _ g)) _ _)).trans (finishJobs _ _ _)
  · exact refl d

theorem queueRecs (d : Dev) (i : Nat) (rs : List Rec) : Firm d (d.queueRecs i rs) := by
  unfold Dev.queueRecs
  split
  · dsimp only
    split
    · exact of_same (by repeat constructor)
    · exact Firm.trans (of_same (by repeat constructor)) (of_replied (Replied.postGroup _ _ _))
  · exact refl d

theorem deliverEnd (d : Dev) (i reason text : Nat) : Firm d (d.deliverEnd i reason text) := by
  unfold Dev.deliverEnd
  split
  · exact queueRecs d _ _
  · exact refl d

theorem endStream (d : Dev) (i reason text : Nat) : Firm d (d.endStream i reason text) := by
  unfold Dev.endStream
  split
  · refine ite (refl d) ?_
    have hover (g : Dev) (f : Machine.Stream → Machine.Stream) (p : Reply) : Firm g (((g.dropGenJob i).onStream i f).finishCancels i p) :=
      ((dropGenJob g i).trans (onStream _ _ _)).trans (finishCancels _ _ _)
    have hgen (c : Prop) [Decidable c] : Firm d (if c then d.deliverEnd i reason text else d) := ite (deliverEnd d _ _ _) (refl d)
    exact ite ((hgen _).trans (hover _ _ _)) (((hgen _).trans (hover _ _ _)).trans (freeStreamPages _ _))
  · exact refl d

theorem applyCancel (d : Dev) (i : Nat) : Firm d (d.applyCancel i) := by
  unfold Dev.applyCancel
  split
  · next s hs =>
    dsimp only
    generalize hd1 : Dev.setStream d i _ = d1
    have h1 : Firm d d1 := hd1 ▸ (of_same (by repeat constructor))
    have h2 (c c' : Prop) [Decidable c] [Decidable c'] (f : Machine.Stream → Machine.Stream) :
        Firm d ((if c then (d1.deliverEnd i 2).generationOver i 2 else if c' then d1.onStream i f else d1).finishCancels i {}) :=
      (h1.trans (ite ((deliverEnd d1 _ _ _).trans (generationOver _ _ _)) (ite (onStream d1 _ _) (refl d1)))).trans (finishCancels _ _ _)
    split
    · exact ite ((h2 _ _ _).trans (freeStreamPages _ _)) (h2 _ _ _)
    · exact h2 _ _ _
  · exact refl d

theorem closeNow (d : Dev) (i : Nat) : Firm d (d.closeNow i) := ite (refl d) ((endStream d _ _ _).trans (freeStream _ _))

theorem mapStreams (d : Dev) (f : Machine.Stream → Machine.Stream) : Firm d (d.mapStreams f) := of_same (by repeat constructor)

/-! Commands that end with the image. -/

theorem endLoupe (d : Dev) (j : Job) : Firm d (d.endLoupe j) := (pinBlocks d _ _ _).trans (of_same (by repeat constructor))

theorem patchOff (d : Dev) (p : Reply) : Firm d (d.patchOff p) := by
  unfold Dev.patchOff
  split
  · exact refl d
  · exact Firm.trans (of_same (by repeat constructor)) (finishJobs _ _ _)

theorem release (d : Dev) (why : Nat) : Firm d (d.release why) := of_same (by repeat constructor)

theorem swapOff (d : Dev) (p : Reply) : Firm d (d.swapOff p) :=
  ((((Firm.trans (of_same (by repeat constructor)) (wr _ Reg.swapState 0 (by decide) (by decide))).trans (of_ordered (orderSwap_ordered _ 5))).trans (release _ 2))).trans
    (finishJobs _ _ _)

theorem dropSchedules (d : Dev) : Firm d d.dropSchedules := ite (refl d) (finishJobs _ _ _)

theorem applyModes (d : Dev) : Firm d d.applyModes :=
  ((((show Firm d { d with serve := { d.serve with modePending := [] } } from (of_same (by repeat constructor))).trans (wr _ Reg.modeSplit _ (by decide) (by decide))).trans
    (wr _ Reg.modePending 0 (by decide) (by decide))).trans (finishJobs _ _ _)).trans (dropSchedules _)

theorem emit (d : Dev) (o : Out) : Firm d (d.emit o) := of_same (by repeat constructor)

theorem dropUnit (d : Dev) (owner block : Nat) : Firm d (d.dropUnit owner block) := by
  have hdrop : Firm d (((d.unitPages owner block).foldl (fun d p => d.dropPage p) d).bump Reg.kvUnitsDropped) :=
    (foldl dropPage _ d).trans (wr _ Reg.kvUnitsDropped _ (by decide) (by decide))
  exact ite (hdrop.trans (foldl (fun d _ => emit d _) _ _)) hdrop

theorem decideDrop (d : Dev) (r : Rhoic) : Firm d (d.decideDrop r).2 := by
  unfold Dev.decideDrop
  dsimp only
  split
  · exact refl d
  · exact dropUnit d _ _

theorem stopJobs (d : Dev) : Firm d d.stopJobs := by
  have h1 : Firm d ([0x2A, 0x70].foldl (fun (d : Dev) op => (d.jobs op).foldl (fun d j => d.finishJob j (bad St.imageStopped)) d)
      ((d.jobs 0x70).foldl (fun (d : Dev) j => d.endLoupe j) d)) :=
    (foldl endLoupe _ d).trans (foldl (fun d op => finishJobs (d.jobs op) _ d) _ _)
  have h2 := h1.trans (patchOff _ (bad St.imageStopped))
  refine ((h2.trans (ite (swapOff _ _) (refl _))).trans (applyModes _)).trans (foldl (fun d j => ?_) _ _)
  exact (decideDrop d j.req).trans (finishJob _ _ _)

theorem giveBackAll (d : Dev) (ws : List Wave) : Firm d (d.giveBackAll ws) := by
  rw [giveBackAll_frame]
  exact of_same (by repeat constructor)

theorem raise (d : Dev) (o : Occ) : Firm d (d.raise o) := of_same (by repeat constructor)

/-- A stopped image. -/
theorem stopImage (d : Dev) (c : Nat × Nat × Nat) : Firm d (d.stopImage c) := by
  unfold Dev.stopImage
  refine Firm.trans (Firm.trans (Firm.trans (e := (d.giveBackAll (d.serve.waves ++ d.serve.replays))) (giveBackAll d _)
    (Firm.trans (Firm.trans (Firm.trans (of_same (by repeat constructor)) (wr _ Reg.imageState 2 (by decide) (by decide))) (hold _ 1)) (mapStreams _ _)))
    (foldl (fun d i => ?_) _ _)) ((stopJobs _).trans (raise _ _))
  split
  · exact ite (closeNow d i) (ite (applyCancel d i) (refl d))
  · exact refl d

end Firm

end Sys2Proof.Proofs
end

section
/-! PROOFS. Calibration, the journal and its packages, rim cores (17 R399, 20 R439, R440, R447). -/
namespace Sys2Proof.Proofs
open Sys2Proof.Machine Sys2Proof.Laws

/-! A double fault stands through what follows it. -/

theorem doubleFaulted_stands (d : Dev) (code : Nat) : (d.doubleFaulted code).rd Reg.errDouble = 1 ∧ (d.doubleFaulted code).pwr.doubleFault = true :=
  ⟨rd_setW1c_bit (d.raise { code := Rc.doubleFault, detail := code, source := 1 }) rfl, rfl⟩

theorem firm_errDouble : FirmFld Reg.errDouble := ⟨by decide, by decide, by decide, .inl ⟨by decide, by decide⟩⟩

theorem errDouble_ne_field (n : Nat) : fldKey Reg.errDouble ≠ fldKey (Reg.fieldState n) ∧ fldKey Reg.errDouble ≠ fldKey (Reg.lockState n) := by
  refine ⟨?_, ?_⟩
  · show 64 * 0x300038 + 0 ≠ 64 * (0x200100 + 16 * n) + 0
    omega
  · show 64 * 0x300038 + 0 ≠ 64 * (0x201100 + 16 * n) + 0
    omega

theorem fallenDev_doubleFault (d : Dev) : (fallenDev d).pwr.doubleFault = d.pwr.doubleFault := by
  have hs := (sleepTiles_slept ((d.abandonWaves.hold 3).mapStreams holdStream) false).1
  unfold fallenDev
  generalize Dev.sleepTiles _ false = y at hs ⊢
  rw [hs]
  show (d.abandonWaves.hold 3).pwr.doubleFault = _
  rw [hold_frame, abandonWaves_frame]

theorem fallToP3_double (d : Dev) : d.fallToP3.rd Reg.errDouble = d.rd Reg.errDouble ∧ d.fallToP3.pwr.doubleFault = d.pwr.doubleFault := by
  have hc := rd_fallenDev d errDouble_ne_field
  have hp := fallenDev_doubleFault d
  have hf : d.fallToP3 = if (fallenDev d).rd Reg.pstate = 3 then ((fallenDev d).wr Reg.pstateBusy 0).wr Reg.pstateTarget 3 else (fallenDev d).enterState 3 := rfl
  rw [hf]
  generalize fallenDev d = x at hc hp ⊢
  split
  · rw [rd_wr_of_ne _ _ _ _ (by decide), rd_wr_of_ne _ _ _ _ (by decide)]
    exact ⟨hc, hp⟩
  · have he := enterState_ended x 3
    rw [he.regs _ firm_errDouble.leaves, he.pwr]
    exact ⟨(enteredDev_rd_of_ne _ 3 (by decide) (by decide) (by decide)).trans hc, hp⟩

/-- A device with a double fault and its image stopped, before it falls to P3. -/
def stoppedDev (d : Dev) (code : Nat) : Dev :=
  if ((d.doubleFaulted code).hold 4).imgActive then ((d.doubleFaulted code).hold 4).stopImage (code, 0xFFFF, 0xFFFF) else (d.doubleFaulted code).hold 4

theorem stoppedDev_firm (d : Dev) (code : Nat) : Firm (d.doubleFaulted code) (stoppedDev d code) :=
  Firm.ite ((Firm.hold _ 4).trans (Firm.stopImage _ _)) (Firm.hold _ 4)

theorem dutiesLost_stands (d : Dev) (code : Nat) : (d.dutiesLost code).rd Reg.errDouble = 1 ∧ (d.dutiesLost code).pwr.doubleFault = true := by
  obtain ⟨h1, h2⟩ := doubleFaulted_stands d code
  have hstop := stoppedDev_firm d code
  have hf : d.dutiesLost code = (stoppedDev d code).fallToP3 := rfl
  rw [hf, (fallToP3_double _).1, (fallToP3_double _).2, hstop.regs _ firm_errDouble, hstop.pwr]
  exact ⟨h1, h2⟩

/-! Rim cores. -/

/-- A device that has noted a rim core as gone. -/
def coreGone (d : Dev) (k : Nat) : Dev :=
  (d.wr Reg.rimCoresUp (d.rd Reg.rimCoresUp - 2 ^ k)).raise { code := Rc.rimCoreLost, detail := k, source := 1, unitKind := 6, unit := k }

theorem coreGone_rd (d : Dev) (k : Nat) : (coreGone d k).rd Reg.rimCoresUp = (d.rd Reg.rimCoresUp - 2 ^ k) % 2 ^ 16 := rd_wr d Reg.rimCoresUp _

/-- A device whose standby core has taken the duties of one that is gone. -/
def standbyDev (d : Dev) (k : Nat) : Dev := { coreGone d k with pwr := { d.pwr with duties := AMap.insert k ((k + 8) % 16) d.pwr.duties } }

theorem rimCoreLost_gone {d : Dev} {k : Nat} (hk : k < 16) (hst : 1 ≤ d.rd Reg.stage) (hb : bitOf (d.rd Reg.rimCoresUp) k = true) : effRimCoreLost k d =
    if !bitOf ((coreGone d k).rd Reg.rimCoresUp) ((k + 8) % 16) then (coreGone d k).dutiesLost Rc.rimCoreLost
    else if (standbyDev d k).imgActive then (standbyDev d k).hold 4 else standbyDev d k := by
  have hgo : ¬ (16 ≤ k || d.rd Reg.stage < 1 || !bitOf (d.rd Reg.rimCoresUp) k) = true := by
    simp only [hb, Bool.not_true, Bool.or_false, Bool.or_eq_true, decide_eq_true_eq]
    omega
  unfold effRimCoreLost
  rw [if_neg hgo]
  rfl

theorem standbyDev_img (d : Dev) (k : Nat) : (standbyDev d k).imgActive = d.imgActive := by
  show ((d.wr Reg.rimCoresUp _).rd Reg.imageState == 1) = _
  rw [rd_wr_of_ne _ _ _ _ (by decide)]
  rfl

/-- The bits of a core below 16 are those of the register. -/
theorem bitOf_coreGone (d : Dev) (k : Nat) : bitOf ((coreGone d k).rd Reg.rimCoresUp) ((k + 8) % 16) = bitOf (d.rd Reg.rimCoresUp - 2 ^ k) ((k + 8) % 16) := by
  rw [coreGone_rd, bitOf_eq_testBit, bitOf_eq_testBit, Nat.testBit_mod_two_pow]
  simp [Nat.mod_lt]

/-- Settles O39: the guard of each command, and the double fault where no package or core is left. -/
theorem journalAndCores : Obligations.JournalAndCores := by
  unfold Obligations.JournalAndCores
  intro s
  dsimp only
  refine ⟨fun hst => ⟨fun n trim hp => ?_, fun n hp => ?_, fun n hp => ?_⟩, fun k hk => ?_, fun k hk hl => ?_, fun k hk hl => ?_, fun k h => ?_,
    fun k hk hst hb hs => ?_, fun k hk hst hb hs => ?_⟩
  · exact congrArg s.next (if_neg (by simp; omega))
  · exact congrArg s.next (if_neg (by simp; omega))
  · exact congrArg s.next (if_neg (by simp [hp]; omega))
  · exact congrArg s.next (if_pos (by simpa using hk))
  · exact congrArg s.next ((if_neg (by simpa using hk)).trans (if_neg (by simpa using hl)))
  · refine answers_of_eff (congrArg s.next ((if_neg (by simpa using hk)).trans (if_pos (by simpa using hl)))) fun u hu => ?_
    rw [hu.pwr, hu.regs Reg.errDouble (plain_of _ (by decide) (by decide))]
    exact ⟨hl, rfl, rfl, rfl, (doubleFaulted_stands _ _).1⟩
  · exact congrArg s.next (if_pos (by rcases h with h | h | h <;> simp [h]))
  · refine answers_of_eff (congrArg s.next ((rimCoreLost_gone hk hst hb).trans (if_neg (by rw [bitOf_coreGone, hs]; decide)))) fun u hu => ?_
    rw [hu.regs Reg.rimCoresUp (plain_of _ (by decide) (by decide)), hu.pwr, Dev.held, hu.serve, hu.wafer, standbyDev_img]
    have hduty : AMap.find (standbyDev s.dev k).pwr.duties k = some ((k + 8) % 16) := (find_insert _ k k _).trans (if_pos rfl)
    split
    · have hh := hold_frame (standbyDev s.dev k) 4
      have hheld := held_hold (standbyDev s.dev k) 4
      generalize (standbyDev s.dev k).hold 4 = y at hh hheld ⊢
      rw [hh]
      exact ⟨coreGone_rd s.dev k, hduty, fun _ => hheld, rfl⟩
    · next hi => exact ⟨coreGone_rd s.dev k, hduty, fun h => absurd h hi, rfl⟩
  · refine answers_of_eff (congrArg s.next ((rimCoreLost_gone hk hst hb).trans (if_pos (by rw [bitOf_coreGone, hs]; rfl)))) fun u hu => ?_
    rw [hu.pwr, hu.regs Reg.errDouble (plain_of _ (by decide) (by decide))]
    exact dutiesLost_stands _ _

end Sys2Proof.Proofs
end

section
/-! PROOFS. Scrubs, the loss of a stack and its remap, telemetry (14 R342-R349, 19 R427, 20 R438). -/
namespace Sys2Proof.Proofs
open Sys2Proof.Machine Sys2Proof.Laws

/-! Scrubs. -/

/-- A device whose scrub of a site goes on with the next page. -/
def nextPageDev (d : Dev) (site page : Nat) : Dev :=
  { d with wafer := { d.wafer with scrubNext := AMap.set 0 d.wafer.scrubNext site (if page + 1 = tierPages then 0 else page + 1) } }

theorem memoryTierScrub_next {d : Dev} {site page : Nat} {found : PageRead} (hpage : page = AMap.get 0 d.wafer.scrubNext site)
    (hst : 7 ≤ d.rd Reg.stage) (hp : d.rd Reg.pstate < 2) (h0 : page ≠ 0) :
    (found = .clean → effMemoryTierScrub site found d = nextPageDev d site page) ∧
    (∀ m col, found = .corrected m col →
      effMemoryTierScrub site found d = ((nextPageDev d site page).bump Reg.mtScrubCorr).countColumn site (m % 16) col) := by
  have hgo : ¬ (d.rd Reg.stage < 7 || 2 ≤ d.rd Reg.pstate) = true := by simp; omega
  refine ⟨fun h => ?_, fun m col h => ?_⟩
  all_goals
    subst h
    unfold effMemoryTierScrub
    rw [if_neg hgo, ← hpage]
    simp only [beq_iff_eq, if_neg h0]
    rfl

/-- A device whose patrol scrub of a stack goes on with the next line. -/
def nextLineDev (d : Dev) (k : Nat) : Dev :=
  d.wr (Reg.scrubOffset k) (if stackBytes ≤ d.rd (Reg.scrubOffset k) + 64 then 0 else d.rd (Reg.scrubOffset k) + 64)

theorem nextLineDev_eccMode (d : Dev) (k : Nat) : ((nextLineDev d k).corrBy k 1 false).rd Reg.eccMode = d.rd Reg.eccMode := by
  have h1 : fldKey Reg.eccMode ≠ fldKey (Reg.innerCorr k) := by show 64 * 0x500008 + 7 ≠ 64 * (0x501008 + 256 * k) + 0; omega
  have h2 : fldKey Reg.eccMode ≠ fldKey (Reg.scrubOffset k) := by show 64 * 0x500008 + 7 ≠ 64 * (0x501020 + 256 * k) + 0; omega
  exact (rd_wr_of_ne (nextLineDev d k) _ _ _ h1).trans (rd_wr_of_ne _ _ _ _ h2)

theorem patrolScrub_clean {d : Dev} {k : Nat} {raw : List Byte} {other : Option (List Byte)} (hk : k < 12) (hst : 7 ≤ d.rd Reg.stage)
    (hp : d.rd Reg.pstate < 3) (hs : d.rd (Reg.stackState k) ≠ 2)
    (hc : decodeLine (d.rd Reg.eccMode) ((raw ++ List.replicate 72 0).take 72) other = .clean) : effHbmPatrolScrub k raw other d =
      if (nextLineDev d k).lineBadAt ((nextLineDev d k).dramKey (d.lineAddr k (d.rd (Reg.scrubOffset k)))) = true then nextLineDev d k
      else (nextLineDev d k).corrBy k 1 false := by
  have hgo : ¬ (12 ≤ k || d.rd Reg.stage < 7 || 3 ≤ d.rd Reg.pstate || d.rd (Reg.stackState k) == 2) = true := by
    simp only [Bool.or_eq_true, decide_eq_true_eq, beq_iff_eq]
    omega
  have hmode := nextLineDev_eccMode d k
  unfold effHbmPatrolScrub
  rw [if_neg hgo]
  unfold nextLineDev at hmode ⊢
  dsimp only
  rw [hmode, hc]

/-! The loss of a stack. -/

/-- `e` has the registers of stacks and faults of `d`. -/
def StacksKept (d e : Dev) : Prop := ∀ f, FirmFld f → e.rd f = d.rd f

namespace StacksKept
variable {d e g : Dev}

theorem refl (d : Dev) : StacksKept d d := fun _ _ => rfl

theorem trans (h : StacksKept d e) (k : StacksKept e g) : StacksKept d g := fun f hf => (k f hf).trans (h f hf)

theorem ite {c : Prop} [Decidable c] (h : StacksKept d e) (k : StacksKept d g) : StacksKept d (if c then e else g) := by
  split
  · exact h
  · exact k

theorem foldl {α : Type} {f : Dev → α → Dev} (hf : ∀ d a, StacksKept d (f d a)) (l : List α) (d : Dev) : StacksKept d (l.foldl f d) :=
  foldl_of_step refl trans hf l d

theorem of_firm (h : Firm d e) : StacksKept d e := h.regs

theorem clearStage (d : Dev) : StacksKept d d.clearStage :=
  of_firm (((((show Firm d { d.freeStaging with wts := { d.freeStaging.wts with staged := none, arriving := none, arrived := [], arrivedLen := 0 } }
    from (Firm.of_same (by repeat constructor))).trans (Firm.wr _ Reg.stagedVersion 0 (by decide) (by decide))).trans (Firm.wr _ Reg.stageState 0 (by decide) (by decide))).trans
    (Firm.wr _ Reg.pkgKind 0 (by decide) (by decide))).trans (Firm.wr _ Reg.stageBytes 0 (by decide) (by decide)))

theorem endForward (d : Dev) (p : Reply) : StacksKept d (d.endForward p) :=
  of_firm ((Firm.trans (Firm.of_same (by repeat constructor)) (Firm.wr _ Reg.fwdActive 0 (by decide) (by decide))).trans (Firm.finishJobs _ _ _))

theorem joinFails (d : Dev) (p : Reply) : StacksKept d (d.joinFails p) := by
  refine foldl (fun d j => of_firm ?_) _ d
  have htell : Firm d (if d.rd Reg.memberState = 1 then match (d.fab.table.filter fun e => e.2.state == 2).head? with
        | some c => d.emit (.ctl c.1 (.leaveRequest (d.rd Reg.fabDevice)))
        | none => d
      else d) := by
    refine Firm.ite ?_ (Firm.refl d)
    split
    · exact Firm.emit d _
    · exact Firm.refl d
  exact (((((htell.trans (Firm.of_same (by repeat constructor))).trans (Firm.wr _ Reg.systemId j.arg (by decide) (by decide))).trans
    (Firm.wr _ Reg.fabDevice j.arg2 (by decide) (by decide))).trans (Firm.wr _ Reg.memberState 0 (by decide) (by decide))).trans
    (Firm.wr _ Reg.coordinator 0 (by decide) (by decide))).trans (Firm.finishJob _ _ _)

theorem stageFails (d : Dev) (p : Reply) : StacksKept d (d.stageFails p) := by
  have h := ((clearStage d).trans (of_firm (Firm.setW1c _ Reg.errStage 76 (by decide) (by decide)))).trans
    (of_firm (Firm.finishJobs ((d.clearStage.setW1c Reg.errStage 76).jobs 0x13) p _))
  exact ite (h.trans (joinFails _ _)) h

/-- The forward of the staged package ends. -/
def forwardEnded (d : Dev) : Dev :=
  match d.wts.forward with
  | some f => if f.version = d.rd Reg.stagedVersion then d.endForward (bad St.notStaged) else d
  | none => d

theorem forwardEnded_kept (d : Dev) : StacksKept d (forwardEnded d) := by
  unfold forwardEnded
  split
  · exact ite (endForward d _) (refl d)
  · exact refl d

theorem loseStaged (d : Dev) : StacksKept d d.loseStaged := by
  have hcopy (g : Dev) : StacksKept g ({ g.clearStage with wts := { g.clearStage.wts with copyBack := false } }.wr Reg.swapState 0) :=
    (clearStage g).trans (of_firm (Firm.trans (Firm.of_same (by repeat constructor)) (Firm.wr _ Reg.swapState 0 (by decide) (by decide))))
  have hback (c : Prop) [Decidable c] (g : Dev) : StacksKept g (if c then g.writeAllWeights g.image else g) :=
    ite (of_firm (Firm.of_weights (WeightsMoved.writeAllWeights g _))) (refl g)
  have hclear (c : Prop) [Decidable c] (g : Dev) : StacksKept g (if c then g.stageFails (bad St.notStaged) else g.clearStage) :=
    ite (stageFails g _) (clearStage g)
  have hall : StacksKept (forwardEnded d) d.loseStaged :=
    ite (hcopy _) (ite ((hback _ _).trans (hclear _ _)) (((hback _ _).trans (hclear _ _)).trans (of_firm (Firm.swapOff _ _))))
  exact (forwardEnded_kept d).trans hall

theorem loseLoaded (d : Dev) : StacksKept d d.loseLoaded := by
  have hdrop : StacksKept d (d.patchOff (bad St.noImage)).dropLoaded := by
    refine (of_firm (Firm.patchOff d (bad St.noImage))).trans ?_
    unfold Dev.dropLoaded
    split
    · exact fun _ _ => rfl
    · exact refl _
  refine ite (refl d) (ite hdrop (hdrop.trans (StacksKept.trans ?_ (of_firm (Firm.finishJobs _ _ _)))))
  exact fun _ _ => rfl

theorem foldl_mem {α : Type} {f : Dev → α → Dev} (l : List α) (hf : ∀ a ∈ l, ∀ d, StacksKept d (f d a)) (d : Dev) : StacksKept d (l.foldl f d) := by
  induction l generalizing d with
  | nil => exact refl d
  | cons a l ih => exact (hf a List.mem_cons_self d).trans (ih (fun b hb => hf b (List.mem_cons_of_mem _ hb)) _)

theorem stopPairs (d : Dev) : StacksKept d d.stopPairs := by
  refine foldl_mem _ (fun q hq d => ite (of_firm (Firm.setW1c d _ 80 (show 0 < 64 by decide) (.inl ?_))) (refl d)) d
  obtain ⟨e, he, rfl⟩ := List.mem_map.1 hq
  have hr := (List.mem_filter.1 he).2
  simp only [inRange, Bool.and_eq_true, decide_eq_true_eq] at hr
  show 0x100000 + 64 * ((e.1 / 64 - 0x100000) / 64) + 0x30 < 0x300000
  omega

theorem countGone (d : Dev) : StacksKept d d.countGone := by
  refine foldl_mem _ (fun r hr d => ite (refl d) ?_) d
  refine StacksKept.trans (of_firm (Firm.wr d (Reg.ringLost r) _ (show 0 < 64 by decide) (.inl ?_))) (fun _ _ => rfl)
  obtain ⟨e, he, rfl⟩ := List.mem_map.1 hr
  have hr := (List.mem_filter.1 he).2
  simp only [inRange, Bool.and_eq_true, decide_eq_true_eq] at hr
  show 0x20000 + 32 * ((e.1 / 64 - 0x20000) / 32) + 0x10 < 0x300000
  omega

theorem dropEveryPage (d : Dev) : StacksKept d d.dropEveryPage := (of_firm (Firm.dropPages d _)).trans fun _ _ => rfl

theorem rebuildTables (d : Dev) : StacksKept d d.rebuildTables := by
  have hlines (g : Dev) (a n : Nat) : StacksKept g (g.restoreLines a n) := ite (refl g) fun _ _ => rfl
  refine foldl (fun d x => ?_) _ d
  dsimp only
  split
  · exact (hlines d x.base x.size).trans fun _ _ => rfl
  · exact hlines d _ _

theorem loseBuffers (d : Dev) : StacksKept d d.loseBuffers := fun _ _ => rfl

/-- After the first loss of a stack its registers stay as the remap left them. -/
theorem loseStack (d : Dev) (k : Nat) (f : Fld) (hf : FirmFld f) (hl : Lasting f) : (d.loseStack k).rd f = (d.remap k).rd f := by
  have h := ((((((dropEveryPage (d.remap k).interrupt).trans (loseLoaded _)).trans (loseStaged _)).trans (loseBuffers _)).trans (rebuildTables _)).trans
    (stopPairs _)).trans (countGone _)
  exact (h f hf).trans ((Steady.interrupt (d.remap k)).regs f hl)

end StacksKept

section
variable {d : Dev} {k : Nat}

theorem firm_stack (hk : k < 12) : FirmFld (Reg.stackState k) ∧ Lasting (Reg.stackState k) := by
  have h1 : 0x500000 ≤ 0x501000 + 256 * k := by omega
  have h2 : 0x501000 + 256 * k < 0x600000 := by omega
  refine ⟨⟨show 0 < 64 by decide, ?_, ?_, .inr ⟨h1, h2⟩⟩, show 0 < 64 by decide, .inr ⟨h1, h2⟩⟩
  · show (0x501000 + 256 * k) % 64 ≠ 0x18
    omega
  · show (0x501000 + 256 * k) % 64 ≠ 0x30
    omega

theorem firm_remapState : FirmFld Reg.remapState ∧ Lasting Reg.remapState :=
  ⟨⟨by decide, by decide, by decide, .inr ⟨by decide, by decide⟩⟩, by decide, .inr ⟨by decide, by decide⟩⟩

theorem firm_lostStack : FirmFld Reg.lostStack ∧ Lasting Reg.lostStack :=
  ⟨⟨by decide, by decide, by decide, .inr ⟨by decide, by decide⟩⟩, by decide, .inr ⟨by decide, by decide⟩⟩

theorem stackState_ne {f : Fld} (h : f.off < 0x501000) (hlo : f.lo < 64) : fldKey (Reg.stackState k) ≠ fldKey f := by
  show 64 * (0x501000 + 256 * k) + 0 ≠ 64 * f.off + f.lo
  omega

/-- The registers that say which stack is lost, before the end of memory moves. -/
def lostMarked (d : Dev) (k : Nat) : Dev := ((d.wr (Reg.stackState k) 2).wr Reg.lostStack k).wr Reg.remapState 1

theorem remap_rd (f : Fld) (h1 : fldKey f ≠ fldKey Reg.dramTop) (h2 : fldKey f ≠ fldKey Reg.bar4BaseGib) :
    (d.remap k).rd f = (lostMarked d k).rd f := by
  have htop : ((lostMarked d k).wr Reg.dramTop Config.dramEndLost).rd f = (lostMarked d k).rd f := rd_wr_of_ne _ _ _ _ h1
  unfold Dev.remap
  dsimp only
  split
  · exact (rd_wr_of_ne _ Reg.bar4BaseGib f 288 h2).trans htop
  · exact htop

theorem lostMarked_regs (hk : k < 12) : (lostMarked d k).rd (Reg.stackState k) = 2 ∧ (lostMarked d k).rd Reg.remapState = 1 ∧
    (lostMarked d k).rd Reg.lostStack = k := by
  unfold lostMarked
  rw [rd_wr_of_ne _ _ _ _ (stackState_ne (by decide) (by decide)), rd_wr_of_ne _ _ _ _ (stackState_ne (by decide) (by decide)),
    rd_wr_of_ne _ Reg.remapState Reg.lostStack 1 (by decide)]
  refine ⟨rd_wr _ _ 2, rd_wr _ _ 1, (rd_wr _ _ k).trans (Nat.mod_eq_of_lt ?_)⟩
  exact Nat.lt_trans hk (by decide)

/-- The first loss of a stack (14 R347). -/
theorem loseStack_regs (hk : k < 12) : (d.loseStack k).rd (Reg.stackState k) = 2 ∧ (d.loseStack k).rd Reg.remapState = 1 ∧
    (d.loseStack k).rd Reg.lostStack = k := by
  obtain ⟨h1, h2, h3⟩ := lostMarked_regs (d := d) hk
  obtain ⟨hs1, hs2⟩ := firm_stack hk
  rw [StacksKept.loseStack _ _ _ hs1 hs2, StacksKept.loseStack _ _ _ firm_remapState.1 firm_remapState.2,
    StacksKept.loseStack _ _ _ firm_lostStack.1 firm_lostStack.2,
    remap_rd (Reg.stackState k) (stackState_ne (by decide) (by decide)) (stackState_ne (by decide) (by decide)),
    remap_rd Reg.remapState (by decide) (by decide), remap_rd Reg.lostStack (by decide) (by decide)]
  exact ⟨h1, h2, h3⟩

/-- A device with a second stack lost, its double fault raised. -/
def secondMarked (d : Dev) (k cause : Nat) : Dev :=
  (((d.wr (Reg.stackState k) 2).wr Reg.remapState 3).raise
    { code := Rc.hbmSecondLoss, detail := k + 16 * cause, cls := 2, unitKind := 4, unit := k, outcome := 3 }).doubleFaulted Rc.hbmSecondLoss

theorem secondStack_steady (cause : Nat) : Steady (secondMarked d k cause) (d.secondStack k cause) :=
  (Steady.hold (secondMarked d k cause) 9).trans (Steady.ite (Steady.wantStop _ _ _ _) (Steady.of_same (by repeat constructor)))

theorem secondMarked_regs (cause : Nat) : (secondMarked d k cause).rd (Reg.stackState k) = 2 ∧ (secondMarked d k cause).rd Reg.remapState = 3 ∧
    (secondMarked d k cause).rd Reg.errDouble = 1 ∧ (secondMarked d k cause).rd Reg.lostStack = d.rd Reg.lostStack := by
  have hd (g : Dev) (f : Fld) (h : fldKey f ≠ fldKey Reg.errDouble) : (g.doubleFaulted Rc.hbmSecondLoss).rd f = g.rd f :=
    rd_setW1c_of_ne (g.raise { code := Rc.doubleFault, detail := Rc.hbmSecondLoss, source := 1 }) _ _ _ _ _ h
  unfold secondMarked
  refine ⟨?_, ?_, (doubleFaulted_stands _ _).1, ?_⟩
  · rw [hd _ _ (stackState_ne (by decide) (by decide)), rd_raise, rd_wr_of_ne _ _ _ _ (stackState_ne (by decide) (by decide))]
    exact rd_wr _ _ 2
  · rw [hd _ _ (by decide), rd_raise]
    exact rd_wr _ _ 3
  · rw [hd _ _ (by decide), rd_raise, rd_wr_of_ne _ _ _ _ (by decide), rd_wr_of_ne _ _ _ _ (stackState_ne (by decide) (by decide)).symm]

/-- A second loss (14 R349). -/
theorem secondStack_regs (hk : k < 12) (cause : Nat) : (d.secondStack k cause).rd (Reg.stackState k) = 2 ∧ (d.secondStack k cause).rd Reg.remapState = 3 ∧
    (d.secondStack k cause).rd Reg.errDouble = 1 ∧ (d.secondStack k cause).rd Reg.lostStack = d.rd Reg.lostStack := by
  obtain ⟨h1, h2, h3, h4⟩ := secondMarked_regs (d := d) (k := k) cause
  have hs := secondStack_steady (d := d) (k := k) cause
  rw [hs.regs _ (firm_stack hk).2, hs.regs _ firm_remapState.2, hs.regs _ firm_lostStack.2]
  exact ⟨h1, h2, hs.double h3, h4⟩

/-- A device that has noted a command or address failure of a stack. -/
def trainFailed (d : Dev) (k cause : Nat) : Dev := if cause = 1 then d.setW1c (Reg.errTrain k) (38 + k) else d

theorem trainFailed_lostStack (cause : Nat) : (trainFailed d k cause).rd Reg.lostStack = d.rd Reg.lostStack := by
  unfold trainFailed
  split
  · refine rd_setW1c_of_ne _ _ _ _ _ _ ?_
    show 64 * 0x500000 + 0 ≠ 64 * (0x501018 + 256 * k) + 1
    omega
  · rfl

theorem stackLost_falls {cause : Nat} (hk : k < 12) (hs : d.rd (Reg.stackState k) = 1) : effHbmStackLost k cause d =
    if d.rd Reg.lostStack = 15 then ((trainFailed d k cause).raise
      { code := Rc.hbmStackLost, detail := k + 16 * cause, cls := 1, unitKind := 4, unit := k, outcome := 4 }).loseStack k
    else (trainFailed d k cause).secondStack k cause := by
  have hgo : ¬ (12 ≤ k || d.rd (Reg.stackState k) != 1) = true := by simp [hs]; omega
  rw [← trainFailed_lostStack (k := k) cause]
  unfold effHbmStackLost
  rw [if_neg hgo]
  rfl

/-! The background work of a remap. -/

/-- The lines of the weights' region that a stack has lost are given back, where the image has one. -/
def restoredDev (d : Dev) : Dev :=
  match (d.wr Reg.remapState 2).image.regions.find? fun r => r.kind == 0 with
  | some r => (d.wr Reg.remapState 2).restoreLines r.base r.size
  | none => d.wr Reg.remapState 2

theorem restoredDev_frame (d : Dev) : restoredDev d = { d.wr Reg.remapState 2 with mem := (restoredDev d).mem } := by
  unfold restoredDev
  split
  · unfold Dev.restoreLines
    split <;> rfl
  · rfl

theorem remapDone_restores (h : d.rd Reg.remapState = 1) : effHbmRemapDone d = (restoredDev d).raise
    { code := Rc.hbmRemapDone, detail := d.rd Reg.lostStack, source := 38 + d.rd Reg.lostStack, unitKind := 4, unit := d.rd Reg.lostStack } :=
  if_neg (Classical.not_not.2 h)

end

/-- Settles O38: scrubs, the two losses of a stack, the end of a remap, and telemetry. -/
theorem memoryUpkeep : Obligations.MemoryUpkeep := by
  unfold Obligations.MemoryUpkeep
  intro s
  dsimp only
  refine ⟨fun site page found hpage hst hp h0 => ⟨fun h => congrArg s.next ((memoryTierScrub_next hpage hst hp h0).1 h),
      fun m col h => congrArg s.next ((memoryTierScrub_next hpage hst hp h0).2 m col h)⟩, fun site found h => ?_,
    fun k raw other hk hst hp hs hc => congrArg s.next (patrolScrub_clean hk hst hp hs hc), fun k cause h => ?_, fun k cause hk hs hl => ?_,
    fun k cause hk hs hl => ?_, fun h => congrArg s.next (if_pos h), fun h => ?_, fun hst hp hb => ?_⟩
  · exact congrArg s.next (if_pos (by rcases h with h | h <;> simp [h]))
  · exact congrArg s.next (if_pos (by rcases h with h | h <;> simp [h]))
  · refine answers_of_eff (congrArg s.next ((stackLost_falls hk hs).trans (if_neg hl))) fun u hu => ?_
    rw [hu.regs _ (plain_lasting (firm_stack hk).2), hu.regs _ (plain_lasting firm_remapState.2), hu.regs _ (plain_lasting firm_lostStack.2),
      hu.regs Reg.errDouble (plain_of _ (by decide) (by decide))]
    obtain ⟨h1, h2, h3, h4⟩ := secondStack_regs (d := trainFailed s.dev k cause) hk cause
    exact ⟨h1, h2, h3, h4.trans (trainFailed_lostStack cause)⟩
  · refine answers_of_eff (congrArg s.next ((stackLost_falls hk hs).trans (if_pos hl))) fun u hu => ?_
    rw [hu.regs _ (plain_lasting (firm_stack hk).2), hu.regs _ (plain_lasting firm_remapState.2), hu.regs _ (plain_lasting firm_lostStack.2)]
    exact loseStack_regs hk
  · refine answers_of_eff (congrArg s.next (remapDone_restores h)) fun u hu => ?_
    rw [hu.regs _ (plain_lasting firm_remapState.2), hu.serve, hu.wafer, rd_raise, restoredDev_frame]
    exact ⟨rd_wr _ _ 2, rfl, rfl⟩
  · exact congrArg s.next (if_neg (by simp [hb]; omega))

end Sys2Proof.Proofs
end

section
/-! PROOFS. Which image is loaded, placed and active through all that an activation does on the tiles and at its first beat (08 R202). -/
namespace Sys2Proof.Proofs
open Sys2Proof.Machine Sys2Proof.Laws

/-- A tile's logical place moved to a spare, its links back in service where it was lost (01 R22, 20 R436). -/
def spareLinked (d : Dev) (t s : Nat) : Dev :=
  let rebuilds := (d.stripesOf t).any fun e =>
    ((d.stripe e.1).lost == some e.2 && (d.stripe e.1).target == 1) || (d.stripe e.1).out.contains e.2
  let d2 := { d with wafer := { d.wafer with quarantined := d.wafer.quarantined.filter (· != t),
                                             lostTiles := d.wafer.lostTiles.filter (· != t),
                                             rebuilding := if rebuilds then d.wafer.rebuilding ++ [t] else d.wafer.rebuilding } }
  let d3 := d2.raise (d2.atTile { code := Rc.tileSubstituted, detail := posOf t + 32 * (s % 256 % 32), source := 1, unitKind := 1,
                                  unit := d2.ptileOf t } t)
  if d.wafer.lostTiles.contains t then d3.relink t else d3

/-- The weights and program of an embedding tile, on the spare that stands in for it. -/
def spareLoaded (d : Dev) (t : Nat) : Dev :=
  match d.image.rec? t with
  | some r => if d.isEmbedding t then ((d.unserveTile t).onTile t fun x => { x with weights := d.image.tileWeights r }).loadProgram t t else d
  | none => d

theorem substitute_eq (d : Dev) (t s : Nat) : d.substitute t s = if d.pwr.packages = [] then d else
    spareLoaded (spareLinked (d.changeTable (segOf t)
      (withSubst (d.table (segOf t)) (if (substSlot (d.table (segOf t)) 0).isNone then 0 else 1) (posOf t) (s % 256 % 32))) t s) t := rfl

/-! The pages of a placement. An equation of `givePages` for a list that begins with a need makes the kernel evaluate the pool's search for a
frame, which counts in unary up to 2^30; so its body is taken apart for a list that is a variable, and the recursion by `List.brecOn`. -/

/-- What holds of a recursion's body at every list, from its values at shorter ones, holds of the recursion. -/
theorem brecOn_of_step {α : Type} {C : List α → Type} {F : (l : List α) → List.below (motive := C) l → C l} {P : (l : List α) → C l → Prop}
    (hnil : ∀ B, P [] (F [] B)) (hcons : ∀ x l (B : List.below (motive := C) (x :: l)), P l B.1 → P (x :: l) (F (x :: l) B)) (l : List α) :
    P l (List.brecOn l F) := by
  induction l with
  | nil => exact hnil _
  | cons x l ih => exact hcons x l ⟨List.brecOn l F, _⟩ ih

/-- The branch of a match on a list of pairs that is known not to be empty. -/
theorem branch_cons {C : List (KvGeom × Nat) → Type} {M : C [] → Option Dev}
    {N : (k : KvGeom) → (b : Nat) → (l : List (KvGeom × Nat)) → C ((k, b) :: l) → Option Dev} {y : List (KvGeom × Nat)} {B : C y} {k : KvGeom} {b : Nat}
    {l : List (KvGeom × Nat)} {o : Option Dev} (hy : y = (k, b) :: l) (h : (match (motive := (x : _) → C x → Option Dev) y with
      | [] => M
      | (k, b) :: l => N k b l) B = o) : N k b l (hy ▸ B) = o := by
  subst hy
  exact h

/-- A need is met with a new page, then the rest. -/
theorem givePages_branch {owner : Nat} {y : List (KvGeom × Nat)} {d e : Dev} {B : List.below (motive := fun _ => Dev → Option Dev) y}
    (h : Dev.givePages._f owner y B d = some e) {k : KvGeom} {b : Nat} {l : List (KvGeom × Nat)} (hy : y = (k, b) :: l) :
    ∃ state g, d.newPage owner k b state (d.pte owner k.layer b).fill = some g ∧
      (hy ▸ B : List.below (motive := fun _ => Dev → Option Dev) ((k, b) :: l)).1 g = some e := by
  delta Dev.givePages._f at h
  replace h := branch_cons (C := List.below (motive := fun _ => Dev → Option Dev)) hy h
  dsimp -proj -iota only at h
  generalize hp : d.newPage owner k b _ _ = o at h
  cases o with
  | none => cases h
  | some g => exact ⟨_, g, hp, h⟩

namespace ImgKept
variable {d e g : Dev}

theorem foldl {α : Type} {f : Dev → α → Dev} (hf : ∀ d a, ImgKept d (f d a)) (l : List α) (d : Dev) : ImgKept d (l.foldl f d) :=
  foldl_of_step refl trans hf l d

/-! What a pending boundary puts into force. -/

theorem relink (d : Dev) (t : Nat) : ImgKept d (d.relink t) := by
  refine foldl (fun d dir => ?_) _ d
  split
  · exact ite (refl d) (of_img (by rfl))
  · exact refl d

theorem ofTile (d : Dev) (t : Nat) (f : Site → Site) : ImgKept d (d.onTile t f) := (Steady.onTile d t f).img

theorem ofProgram (d : Dev) (g h : Nat) : ImgKept d (d.loadProgram g h) := (Steady.loadProgram d g h).img

theorem unserveTile (d : Dev) (t : Nat) : ImgKept d (d.unserveTile t) := of_img (by rfl)

theorem spareLinked (d : Dev) (t s : Nat) : ImgKept d (spareLinked d t s) := ite (trans (of_img (by rfl)) (relink _ t)) (of_img (by rfl))

theorem spareLoaded (d : Dev) (t : Nat) : ImgKept d (spareLoaded d t) := by
  unfold Proofs.spareLoaded
  split
  · exact ite (((unserveTile d t).trans (ofTile _ t _)).trans (ofProgram _ t t)) (refl d)
  · exact refl d

theorem substitute (d : Dev) (t s : Nat) : ImgKept d (d.substitute t s) := by
  rw [substitute_eq]
  exact ite (refl d) (((Steady.changeTable d _ _).img.trans (spareLinked _ t s)).trans (spareLoaded _ t))

theorem applySubst (d : Dev) : ImgKept d d.applySubst := by
  unfold Dev.applySubst
  refine trans (e := { d with wafer := { d.wafer with subst := [] } }) (of_img (by rfl))
    (foldl (f := fun (d : Dev) (p : Nat × Nat) => d.substitute p.1 p.2) (fun d p => substitute d p.1 p.2) _ _)

theorem applyReserve (d : Dev) : ImgKept d d.applyReserve := trans (of_img (by rfl)) (foldl (fun _ _ => trans (of_img (by rfl)) (ofProgram _ _ _)) _ _)

theorem resumeLost (d : Dev) : ImgKept d d.resumeLost :=
  ite (refl d) (foldl (fun d _ => ((Steady.putStripe d _ _).trans (Steady.nextRebuild _ _)).img) _ _)

theorem syncBoundary (d : Dev) : ImgKept d d.syncBoundary := ite (of_img (by rfl)) (ite (of_img (by rfl)) (of_img (by rfl)))

theorem syncOut (d : Dev) : ImgKept d d.syncOut := ite (refl d) (ite (of_img (by rfl)) (of_img (by rfl)))

/-! The waves that enter at a beat. -/

theorem refill (d : Dev) : ImgKept d d.refill := of_img (by rfl)

theorem enterReplays (d : Dev) : ImgKept d d.enterReplays := of_img (by rfl)

theorem takeFrame (d : Dev) (n owner frame : Nat) : ImgKept d (d.takeFrame n owner frame) := of_img rfl

theorem newPage {owner block state fill : Nat} {k : KvGeom} (h : d.newPage owner k block state fill = some e) : ImgKept d e := by
  unfold Dev.newPage at h
  obtain ⟨f, -, he⟩ := Option.map_eq_some_iff.1 h
  rw [← he]
  exact (takeFrame d _ _ f).trans (Firm.setPte _ _).img

theorem givePages {owner : Nat} (l : List (KvGeom × Nat)) {d e : Dev} (h : d.givePages owner l = some e) : ImgKept d e := by
  delta Dev.givePages at h
  refine brecOn_of_step (F := Dev.givePages._f owner) (P := fun _ (f : Dev → Option Dev) => ∀ d e, f d = some e → ImgKept d e)
    (fun B d e h => ?_) (fun x l B ih d e h => ?_) l d e h
  · obtain rfl : d = e := Option.some.inj h
    exact refl d
  · obtain ⟨_, g, hg, hge⟩ := givePages_branch h (k := x.1) (b := x.2) rfl
    exact (newPage hg).trans (ih g e hge)

theorem dropUntil {owner : Nat} {needs : List (KvGeom × Nat)} (us : List (Nat × Nat)) : ∀ (d : Dev) (gone : List Nat),
    ImgKept d (d.dropUntil owner needs us gone).1 := by
  induction us with
  | nil => exact fun d _ => refl d
  | cons u us ih =>
    intro d gone
    unfold Dev.dropUntil
    split
    · exact refl d
    · exact (Firm.dropUnit d u.1 u.2).img.trans (ih _ _)

theorem withPages (p : Picks) (owner : Nat) (ps : List Nat) : ImgKept p.d (p.withPages owner ps).1.d := by
  unfold Picks.withPages
  dsimp only
  split
  · next h => exact givePages _ h
  · generalize hq : p.d.dropUntil owner (p.d.pageNeeds owner ps) (if p.d.hostMode 6 = true then []
      else p.d.dropOrder (p.d.tenant (p.d.ownerKey owner).1).priority ((p.main ++ p.draft).map (·.stream))) [] = q
    have hd : ImgKept p.d (if q.2.1.isEmpty = true then q.1
        else q.1.raise { code := Rc.kvDropped, detail := q.2.1.length, source := 78 }) := by
      have h1 : ImgKept p.d q.1 := hq ▸ dropUntil _ p.d []
      exact ite h1 (h1.trans (of_img (by rfl)))
    split
    · exact hd.trans (of_img (by rfl))
    · split
      · exact hd
      · split
        · next h => exact hd.trans (givePages _ h)
        · exact hd

theorem onTenant (d : Dev) (t : Nat) (f : Tenant → Tenant) : ImgKept d (d.onTenant t f) := of_img (by rfl)

theorem place (p : Picks) (owner kind : Nat) (ps : List (Nat × Nat)) (paired : Bool) (charge : Option Nat) :
    ImgKept p.d (p.place owner kind ps paired charge).1.d := by
  unfold Picks.place
  dsimp only
  split
  · exact refl _
  · split
    · exact ite (of_img (by rfl)) (refl _)
    · split
      · exact withPages p owner _
      · exact (withPages p owner _).trans (ite (refl _) (of_img (by rfl)))

/-- A choice that may come to nothing. -/
theorem stay {p : Picks} {c : Prop} [Decidable c] {r : Option Nat} {q : Picks × Option Nat} (h : ImgKept p.d q.1.d) :
    ImgKept p.d (if c then (p, r) else q).1.d := by
  split
  · exact refl _
  · exact h

theorem takeGen (p : Picks) (i : Nat) : ImgKept p.d (p.takeGen i).1.d := by
  unfold Picks.takeGen
  split
  · exact refl _
  · dsimp only
    exact stay (place p _ _ _ _ _)

theorem takePrefill (p : Picks) (i limit : Nat) : ImgKept p.d (p.takePrefill i limit).1.d := by
  unfold Picks.takePrefill
  split
  · exact refl _
  · dsimp only
    exact stay (place p _ _ _ _ _)

theorem takeDraft (p : Picks) (i : Nat) : ImgKept p.d (p.takeDraft i).1.d := by
  unfold Picks.takeDraft
  split
  · exact refl _
  · dsimp only
    refine stay ?_
    split
    · exact place p _ _ _ _ _
    · exact (place p _ _ _ _ _).trans (Firm.onStream _ _ _).img

theorem startRec (d : Dev) (owner b : Nat) : ImgKept d (d.startRec owner b) := by
  unfold Dev.startRec
  split
  · exact (Firm.onStream d _ _).img
  · dsimp only
    split
    · exact ite (refl d) (((Firm.onPrefix d _ _).trans (Firm.pinBlocks _ _ _ _)).trans (Firm.raise _ _)).img
    · exact refl d

theorem takeRec (p : Picks) (owner limit : Nat) : ImgKept p.d (p.takeRec owner limit).1.d := by
  unfold Picks.takeRec
  split
  · exact refl _
  · next b next _ =>
    dsimp only
    generalize min (min p.free limit) (if p.d.hasDraft = true then p.freeDraft else 4) = room
    refine stay ?_
    split
    · have hp (kind : Nat) (ps : List (Nat × Nat)) (paired : Bool) :=
        (startRec p.d owner b).trans (place { p with d := p.d.startRec owner b } owner kind ps paired none)
      split
      · exact hp _ _ _
      · exact (hp _ _ _).trans (of_img (by rfl))
    · split
      · exact place p _ _ _ _ _
      · exact (place p _ _ _ _ _).trans (of_img (by rfl))

/-- Choices made one after the other. -/
theorem picks {α : Type} {f : Picks → α → Picks} (hf : ∀ p a, ImgKept p.d (f p a).d) (l : List α) : ∀ p : Picks, ImgKept p.d (l.foldl f p).d := by
  induction l with
  | nil => exact fun p => refl p.d
  | cons a l ih => exact fun p => (hf p a).trans (ih _)

theorem classes (p : Picks) : ImgKept p.d p.classes.d :=
  (((picks (fun p i => takeGen p i) _ p).trans (picks (fun p i => takeDraft p i) _ _)).trans (picks (fun p o => takeRec p o 4) _ _)).trans
    (picks (fun p i => takePrefill p i 4) _ _)

theorem entry (p : Picks) (draft : Bool) (x : Nat × Nat × Nat) : ImgKept p.d (p.entry draft x).1.d := by
  unfold Picks.entry
  dsimp only
  refine stay ?_
  split
  · exact refl _
  · split
    · exact stay (stay (takeDraft p _))
    · split
      · exact stay (stay (takeGen p _))
      · split
        · exact stay (stay (takePrefill p _ _))
        · split
          · exact refl _
          · exact stay (stay (takeRec p _ _))

theorem entries (draft : Bool) (l : List (Nat × (Nat × Nat × Nat))) : ∀ p : Picks, ImgKept p.d (p.entries draft l).1.d := by
  induction l with
  | nil => exact fun p => refl p.d
  | cons x l ih =>
    intro p
    unfold Picks.entries
    split
    · exact ih p
    · have hx := entry p draft x.2
      split
      · next q h => rw [h] at hx; exact hx.trans (ih q)
      · next q r h => rw [h] at hx; exact hx

theorem hostWave (p : Picks) (draft : Bool) : ImgKept p.d (p.hostWave draft).d := by
  unfold Picks.hostWave
  split
  · exact refl _
  · next j _ =>
    have he := entries draft ((List.range 4).map fun k => (k, schedEntry j.req k)) p
    split
    · next q h => rw [h] at he; exact he.trans (Firm.finishJob _ _ _).img
    · exact trans (of_img (by rfl)) (Firm.finishJob _ _ _).img

theorem enterWaves (d : Dev) : ImgKept d d.enterWaves := by
  unfold Dev.enterWaves
  refine ite (enterReplays d) (ite (refl d) ?_)
  have hp : ImgKept d (if d.hostMode 2 = true then (Picks.hostWave { d := d } false).hostWave true else Picks.classes { d := d }).d := by
    split
    · exact (hostWave { d := d } false).trans (hostWave (Picks.hostWave { d := d } false) true)
    · exact classes { d := d }
  exact hp.trans (of_img (by rfl))

theorem fillTo (d : Dev) (f : Nat → Bool) (owner lo hi : Nat) : ImgKept d (d.fillTo f owner lo hi) :=
  foldl (fun d _ => foldl (fun d _ => ite (of_img (by rfl)) (refl d)) _ d) _ d

theorem segmentPages {cols : List WCol} (l : List Nat) : ∀ {d e : Dev}, d.segmentPages cols l = some e → ImgKept d e := by
  induction l with
  | nil => intro d e h; cases h; exact refl d
  | cons i l ih =>
    intro d e h
    unfold Dev.segmentPages at h
    dsimp only at h
    split at h
    · next g hg =>
      have hp := givePages _ hg
      exact (((foldl (fun d p => (Firm.setPte d _).img) _ d).trans (fillTo _ _ _ _ _)).trans hp).trans (ih h)
    · cases h

theorem enterHandoff (d : Dev) : ImgKept d d.enterHandoff := by
  unfold Dev.enterHandoff
  split
  · exact ite (of_img (by rfl)) (refl d)
  · dsimp only
    split
    · exact of_img (by rfl)
    · next h => exact ((segmentPages _ h).trans (of_img (by rfl))).trans (foldl (fun _ _ => (of_img (by rfl))) _ _)

theorem feedRim (d : Dev) (w : Wave) : ImgKept d (d.feedRim w) := by
  refine foldl (fun d c => ?_) _ d
  split
  · exact ite (of_img (by rfl)) (refl d)
  · exact refl d

theorem nextSection (d : Dev) (t : Nat) : ImgKept d (d.nextSection t) := by
  unfold Dev.nextSection
  dsimp only
  split
  · exact ofTile d t _
  · exact ofTile d t _

theorem startSections (d : Dev) : ImgKept d d.startSections :=
  foldl (fun d t => ite (refl d) ((ofTile d t _).trans (nextSection _ t))) _ d

theorem beatBegun (d : Dev) (cycle : Nat) :
    ImgKept d { d with serve := { d.serve with beatStart := cycle, beatDelay := 0, between := false } } := of_img (by rfl)

/-- The waves that enter at a boundary: new ones at the first segment, else replays or what the segment before hands off. -/
theorem entering (d : Dev) : ImgKept d (if d.rd Reg.segment = 0 then d.enterWaves else if !d.serve.replays.isEmpty then d.enterReplays
    else if d.serve.holds.isEmpty then d.enterHandoff else d) :=
  ite (enterWaves d) (ite (enterReplays d) (ite (enterHandoff d) (refl d)))

theorem openBeat (d : Dev) (cycle : Nat) (first : Bool) : ImgKept d (d.openBeat cycle first) := by
  have h1 : ImgKept d (if first then d.wr Reg.beatNumber 0 else d.wr Reg.beatNumber ((d.beat + 1) % 2 ^ 64)).refill :=
    (ite (of_img (by rfl)) (of_img (by rfl)) : ImgKept d (if first then d.wr Reg.beatNumber 0 else d.wr Reg.beatNumber ((d.beat + 1) % 2 ^ 64))).trans (refill _)
  unfold Dev.openBeat
  dsimp only
  generalize (if first = true then d.wr Reg.beatNumber 0 else d.wr Reg.beatNumber ((d.beat + 1) % 2 ^ 64)).refill = d1 at h1 ⊢
  have h2 := h1.trans (entering d1)
  generalize (if d1.rd Reg.segment = 0 then d1.enterWaves else _) = d2 at h2 ⊢
  have h3 (ws : List Wave) : ImgKept d (if d2.rd Reg.segment = 0 then ws.foldl (fun d w => d.feedRim w) d2 else d2) :=
    h2.trans (ite (foldl (fun d w => feedRim d w) _ _) (refl _))
  exact ((h3 (d2.serve.waves.filter fun w => !d1.serve.waves.contains w)).trans (beatBegun _ cycle)).trans ((syncOut _).trans (startSections _))

end ImgKept

end Sys2Proof.Proofs
end

section
/-! PROOFS. An image comes onto the tiles, and its first beat starts (08 R195-R202). -/
namespace Sys2Proof.Proofs
open Sys2Proof.Machine Sys2Proof.Laws

namespace ImgKept
variable {d e : Dev}

theorem of_memMoved (h : MemMoved d e) : ImgKept d e := by
  rw [show e = _ from h]
  exact of_img (by rfl)

/-! The streams of the image before (11 R283). -/

theorem takeEpoch (d : Dev) (hash : List Byte) : ImgKept d (d.takeEpoch hash).2 := by
  unfold Dev.takeEpoch
  split
  · exact refl d
  · split
    · exact ⟨rfl, rfl, rfl, rfl, rfl, rfl⟩
    · exact (Steady.dropPages d _).img.trans ⟨rfl, rfl, rfl, rfl, rfl, rfl⟩

theorem endStrict (d : Dev) : ImgKept d d.endStrict := by
  refine foldl (fun d i => ?_) _ d
  extract_lets d1
  have h1 : ImgKept d d1 := by
    unfold d1
    split
    · exact ite (Firm.applyCancel d i).img (refl d)
    · exact refl d
  split
  · exact ite (h1.trans (Firm.endStream d1 i 4 0).img) h1
  · exact h1

theorem rebuildTable (d : Dev) (owner committed : Nat) (pfx : Option Nat) : ImgKept d (d.rebuildTable owner committed pfx) := of_img (by rfl)

theorem dropRanges (d : Dev) (owner : Nat) : ImgKept d (d.dropRanges owner) := of_img (by rfl)

theorem restorePrefix (d : Dev) (p : Nat) : ImgKept d (d.restorePrefix p) := by
  unfold Dev.restorePrefix
  split
  · refine ite (refl d) ?_
    split
    · next h => exact (((dropRanges d _).trans (of_memMoved (pfxRoom_memMoved h))).trans (Firm.onPrefix _ _ _).img).trans (rebuildTable _ _ _ _)
    · exact refl d
  · exact refl d

theorem restoreStream (d : Dev) (i : Nat) : ImgKept d (d.restoreStream i) := by
  unfold Dev.restoreStream
  split
  · refine ite (refl d) ?_
    split
    · next h => exact (((dropRanges d _).trans (of_memMoved (streamRoom_memMoved h))).trans (Firm.onStream _ _ _).img).trans (rebuildTable _ _ _ _)
    · exact refl d
  · exact refl d

theorem restoreRooms (d : Dev) : ImgKept d d.restoreRooms :=
  (foldl (fun d p => restorePrefix d p) _ d).trans (foldl (fun d i => restoreStream d i) _ _)

theorem resumeStreams (d : Dev) (im : Image) (epoch : Nat) : ImgKept d (d.resumeStreams im epoch) := by
  unfold Dev.resumeStreams
  dsimp only
  have hend (e : Dev) (h : ImgKept d e) (f : Pte → Bool) (g : Machine.Stream → Machine.Stream) :
      ImgKept d ((e.restoreRooms.dropPages f).mapStreams g) :=
    h.trans (((restoreRooms e).trans (Steady.dropPages _ f).img).trans (Firm.mapStreams _ g).img)
  refine hend _ ?_ _ _
  split
  · exact ite (foldl (fun d i => (Firm.endStream d i 5 0).img) _ d) (ite (endStrict d) (refl d))
  · exact refl d

theorem clearStage (d : Dev) : ImgKept d d.clearStage := of_img (by rfl)

theorem checkStaged (d : Dev) : ImgKept d d.checkStaged := by
  unfold Dev.checkStaged
  extract_lets _ d0 _ _ d1
  have h1 : ImgKept d d1 := trans (e := d0) (of_img (by rfl)) (ite (of_img (by rfl)) (refl d0))
  split
  · exact ite (h1.trans (clearStage d1)) h1
  · exact h1

theorem startAudit (d : Dev) : ImgKept d d.startAudit := ⟨rfl, rfl, rfl, rfl, rfl, rfl⟩

/-! The tiles (08 R202). -/

theorem placeSpares (d : Dev) (im : Image) : ImgKept d (d.placeSpares im) := by
  refine (applySubst d).trans (foldl (fun d r => ite (refl d) ?_) _ _)
  split
  · exact substitute d _ _
  · exact refl d

theorem writeTile (d : Dev) (im : Image) (r : TileRec) : ImgKept d (d.writeTile im r) := ite (refl d) ((ofTile d _ _).trans (ofProgram _ _ _))

theorem putStripe (d : Dev) (n : Nat) (x : Stripe) : ImgKept d (d.putStripe n x) := (Steady.putStripe d n x).img

/-- The tiles of a stripe, written where the image has them. -/
theorem writeHalf (im : Image) (tile : Nat → Nat) (l : List Nat) (d : Dev) : ImgKept d (l.foldl (fun (d : Dev) i => match im.rec? (tile i) with
    | some t => d.writeDirect t
    | none => d) d) := by
  refine foldl (fun d i => ?_) l d
  split
  · exact (Steady.writeDirect d _).img
  · exact refl d

theorem placeStripe (d : Dev) (im : Image) (r : StripeRec) : ImgKept d (d.placeStripe im r) := by
  unfold Dev.placeStripe
  dsimp only
  split
  · exact putStripe d _ _
  · exact ite ((writeHalf im _ _ d).trans (Steady.enterRecovery _ _ _ _ _ _ _).img) ((writeHalf im _ _ d).trans (putStripe _ _ _))
  · refine trans ?_ (foldl (fun d j => (Steady.stripeLoss d _ j _ _).img) _ _)
    refine ite ?_ ((writeHalf im _ _ d).trans (putStripe _ _ _))
    split
    · exact ((writeHalf im _ _ d).trans (ofTile _ _ _)).trans (putStripe _ _ _)
    · exact writeHalf im _ _ d

theorem placeLoose (d : Dev) (im : Image) : ImgKept d (d.placeLoose im) := by
  refine trans (trans (foldl (fun d p => ite (of_img (by rfl)) (refl d)) _ d) (foldl (fun d r => ?_) _ _)) (applyReserve _)
  exact ite (refl d) (ite (Steady.serveTile d _).img (ite (Steady.assignReserve d _ _).img (refl d)))

theorem setDetours (d : Dev) : ImgKept d d.setDetours := by
  refine trans (foldl (fun d c => ?_) d.mesh.detourPending d) (of_img (by rfl))
  split
  · split
    · exact of_img (by rfl)
    · exact refl d
  · exact refl d

theorem applyDetours (d : Dev) : ImgKept d d.applyDetours :=
  ite (setDetours d) ((trans (of_img (by rfl)) (setDetours _)).trans (foldl (fun d t => (Steady.quarantine d t _).img) _ _))

theorem placeDetours (d : Dev) : ImgKept d d.placeDetours := (Steady.detourFor d _).img.trans (applyDetours _)

end ImgKept

section
variable {d : Dev} {im : Image} {r : Rhoic}

/-! Loading. -/

theorem loadImage_of_read {keys : List (List Byte)} {x : Nat} {bs : List Byte} {e : Dev} (ha : arg r 8 8 + arg r 16 8 ≤ d.dramTop)
    (hr : d.cmdRead r.qp (arg r 8 8) (arg r 16 8) = (St.success, x, bs, e)) :
    (∀ f, e.loadSteps keys bs (arg r 16 8) = .inl f →
      startLoadImage keys r d = .done { st := St.imageRefused, detail := f.code, result := f.result } (e.loadRefused f)) ∧
    (∀ i g, e.loadSteps keys bs (arg r 16 8) = .inr (i, g) → startLoadImage keys r d = .done { result := i.modelId }
      ({ g with img := { g.img with loaded := some i } }.raise { code := Rc.imageLoaded, detail := i.modelId, source := 76 })) := by
  have hgo : ¬ d.dramTop < arg r 8 8 + arg r 16 8 := by omega
  have hs : ¬ St.success = St.uncorrectable := by decide
  unfold startLoadImage
  dsimp only
  rw [if_neg hgo, hr]
  dsimp only
  rw [if_neg hs, if_neg (Classical.not_not.2 rfl)]
  exact ⟨fun f hf => by rw [hf], fun i g hi => by rw [hi]⟩

/-! Onto the tiles. -/

/-- The device with the image that comes in taken for active, before anything is written. -/
def imageIn (d : Dev) (im : Image) : Dev :=
  { d with img := { d.img with active := some im, loaded := none, placed := true },
           serve := { d.serve with faulted := [], sampled := [], between := true, beatExtra := 0 } }

theorem imageIn_written (d : Dev) (im : Image) : ImgKept (imageIn (d.clearOld.placeSpares im) im) (d.placeOnTiles im) := by
  unfold Dev.placeOnTiles
  refine .trans (.trans (.trans (.trans (.trans (e := (((imageIn (d.clearOld.placeSpares im) im).wr Reg.imageState 0).wr Reg.stripeStateBase
      ((imageIn (d.clearOld.placeSpares im) im).structBase 3)).wr Reg.reserveMapBase ((imageIn (d.clearOld.placeSpares im) im).structBase 4)) (.of_img (by rfl))
    (.foldl (fun d r => ImgKept.writeTile d im r) _ _)) (.foldl (fun d r => ImgKept.placeStripe d im r) _ _)) (ImgKept.placeLoose _ im))
      (Steady.countStripes _).img) (ImgKept.placeDetours _)

/-! The first beat. -/

/-- The active image serves from here on: its activation is over. -/
def servedFrom (d : Dev) : Dev := { d with img := { d.img with activating := false, placed := false, everActive := true } }

/-- What the image before left to its streams and packages, settled for the one that serves now. -/
def carriedOver (d : Dev) (im : Image) (epoch : Nat) : Dev :=
  ((((((d.wr Reg.imageState 1).wr Reg.imageEpoch epoch).wr Reg.imageModelId im.modelId).wr Reg.activeVersion im.weightVersion).resumeStreams im epoch).checkStaged).startAudit

/-- The image part names the model that serves. -/
def modelNamed (d : Dev) (im : Image) : Dev := { d with img := { d.img with model := some (im.modelId, im.weightVersion) } }

/-- The holds of the activation end, its commands complete, and the first beat opens. -/
def firstOpened (d : Dev) (epoch : Nat) : Dev :=
  let d6 := (((d.release 0).release 1).release 7).raise { code := Rc.imageActivated, detail := epoch, source := 76 }
  (((d6.jobs 0x12).foldl (fun d j => d.finishJob j { result := epoch }) d6).applySubst.applyReserve.resumeLost.syncBoundary).openBeat 0 true

theorem firstBeat_eq (d : Dev) (im : Image) : d.firstBeat im =
    firstOpened (modelNamed (carriedOver (servedFrom (d.takeEpoch im.hash).2) im (d.takeEpoch im.hash).1) im) (d.takeEpoch im.hash).1 := rfl

theorem carriedOver_kept (d : Dev) (im : Image) (epoch : Nat) : ImgKept d (carriedOver d im epoch) :=
  .trans (e := (((d.wr Reg.imageState 1).wr Reg.imageEpoch epoch).wr Reg.imageModelId im.modelId).wr Reg.activeVersion im.weightVersion) (.of_img (by rfl))
    (((ImgKept.resumeStreams _ im epoch).trans (ImgKept.checkStaged _)).trans (ImgKept.startAudit _))

theorem firstOpened_kept (d : Dev) (epoch : Nat) : ImgKept d (firstOpened d epoch) :=
  .trans (e := (((d.release 0).release 1).release 7).raise { code := Rc.imageActivated, detail := epoch, source := 76 }) (.of_img (by rfl))
    ((Firm.finishJobs _ _ _).img.trans ((((ImgKept.applySubst _).trans (ImgKept.applyReserve _)).trans (ImgKept.resumeLost _)).trans
      ((ImgKept.syncBoundary _).trans (ImgKept.openBeat _ _ _))))

/-- The image part after the first beat of an image. -/
theorem firstBeat_img (d : Dev) (im : Image) : (d.firstBeat im).img.loaded = d.img.loaded ∧ (d.firstBeat im).img.everActive = true ∧
    (d.firstBeat im).img.activating = false ∧ (d.firstBeat im).img.placed = false ∧
    (d.firstBeat im).img.model = some (im.modelId, im.weightVersion) := by
  have h1 := ImgKept.takeEpoch d im.hash
  have h2 := carriedOver_kept (servedFrom (d.takeEpoch im.hash).2) im (d.takeEpoch im.hash).1
  rw [firstBeat_eq]
  generalize carriedOver _ im _ = e at h2 ⊢
  have h3 := firstOpened_kept (modelNamed e im) (d.takeEpoch im.hash).1
  exact ⟨h3.loaded.trans (h2.loaded.trans h1.loaded), h3.everActive.trans h2.everActive, h3.activating.trans h2.activating, h3.placed.trans h2.placed, h3.model⟩

/-! The command. -/

theorem imageActivated_of_ready (ha : d.img.active = some im) (hp : d.img.placed = true) (hr : d.firstBeatReady im = true) :
    effImageActivated d = d.firstBeat im := by
  have hn : d.activationReady = false := by simp [Dev.activationReady, hp]
  unfold effImageActivated
  cases hl : d.img.loaded with
  | none => simp [ha, hr]
  | some i => simp [hn, ha, hr]

theorem imageActivated_of_loaded (hl : d.img.loaded = some im) (hn : d.activationReady = true) :
    effImageActivated d = if (d.placeOnTiles im).firstBeatReady im = true then (d.placeOnTiles im).firstBeat im else d.placeOnTiles im := by
  have ha : (d.placeOnTiles im).img.active = some im := (imageIn_written d im).active
  unfold effImageActivated
  simp [hl, hn, ha]

theorem imageActivated_of_nothing (hp : d.img.placed = false) (h : d.img.loaded = none ∨ d.activationReady = false) : effImageActivated d = d := by
  have hr (i : Image) : d.firstBeatReady i = false := by simp [Dev.firstBeatReady, hp]
  unfold effImageActivated
  rcases h with h | h
  · cases ha : d.img.active with
    | none => simp [h, ha]
    | some i => simp [h, ha, hr]
  · cases hl : d.img.loaded with
    | none => cases ha : d.img.active <;> simp [ha, hr]
    | some i => cases ha : d.img.active <;> simp [h, ha, hr]

end

/-- Settles O14: LOAD_IMAGE, ACTIVATE_IMAGE, and an image that comes onto the tiles and starts its first beat. -/
theorem imagesLoadAndActivate : Obligations.ImagesLoadAndActivate := by
  unfold Obligations.ImagesLoadAndActivate
  refine ⟨fun s r => ⟨fun x bs e h ha hr => ⟨fun f hf => next_of_done h ((loadImage_of_read ha hr).1 f hf),
      fun im g hi => next_of_done h ((loadImage_of_read ha hr).2 im g hi)⟩, fun h hl => next_of_done h (if_pos (by simp [hl])), fun h hl h1 h2 h3 h4 => ?_⟩,
    fun s => ⟨fun hp h => congrArg s.next (imageActivated_of_nothing hp h), fun im hl hn => ⟨fun hb => ⟨?_, ?_, ?_⟩, fun hb => ?_⟩, fun im ha hp hr => ?_⟩⟩
  · refine next_of_run h ((if_neg (by simpa using hl)).trans (if_neg ?_))
    simp [h1, h2, h3, h4]
  · exact congrArg s.next ((imageActivated_of_loaded hl hn).trans (if_neg (by simp [hb])))
  · exact (imageIn_written _ im).active
  · exact (imageIn_written _ im).placed
  · refine answers_of_eff (congrArg s.next ((imageActivated_of_loaded hl hn).trans (if_pos hb))) fun u hu => ?_
    obtain ⟨h1, h2, h3, h4, h5⟩ := firstBeat_img (s.dev.placeOnTiles im) im
    rw [hu.img]
    exact ⟨h1.trans (imageIn_written _ im).loaded, h2, h3, h4, h5⟩
  · refine answers_of_eff (congrArg s.next (imageActivated_of_ready ha hp hr)) fun u hu => ?_
    rw [hu.img]
    obtain ⟨-, h2, h3, h4, h5⟩ := firstBeat_img s.dev im
    exact ⟨h2, h3, h4, h5⟩

end Sys2Proof.Proofs
end

section
/-! PROOFS. Power-on and bring-up (19 R419-R423): what the work of a stage leaves of `STAGE`, and what its end writes. -/
namespace Sys2Proof.Proofs
open Sys2Proof.Machine Sys2Proof.Laws

/-- `e` is at the stage of bring-up that `d` is at. -/
def StageKept (d e : Dev) : Prop := e.rd Reg.stage = d.rd Reg.stage

namespace StageKept
variable {d e g : Dev}

theorem of_regs (h : e.regs = d.regs) : StageKept d e := by rw [StageKept, Dev.rd, Dev.rd, h]

theorem refl (d : Dev) : StageKept d d := of_regs (by rfl)

theorem trans (h : StageKept d e) (k : StageKept e g) : StageKept d g := Eq.trans k h

theorem ite {c : Prop} [Decidable c] (h : StageKept d e) (k : StageKept d g) : StageKept d (if c then e else g) := by
  split
  · exact h
  · exact k

theorem foldl {α : Type} {f : Dev → α → Dev} (hf : ∀ d a, StageKept d (f d a)) (l : List α) (d : Dev) : StageKept d (l.foldl f d) :=
  foldl_of_step refl trans hf l d

theorem wr (d : Dev) (f : Fld) (v : Nat) (h : fldKey Reg.stage ≠ fldKey f) : StageKept d (d.wr f v) := rd_wr_of_ne _ _ _ _ h

/-- A write of a register of another word. -/
theorem wr_word (d : Dev) (f : Fld) (v : Nat) (h : f.off ≠ 0x1000) (hlo : f.lo < 64) : StageKept d (d.wr f v) := by
  refine wr d f v ?_
  show 64 * 0x1000 + 0 ≠ 64 * f.off + f.lo
  omega

theorem setW1c (d : Dev) (f : Fld) (source : Nat) (shared : Bool) (h : f.off ≠ 0x1000) (hlo : f.lo < 64) :
    StageKept d (d.setW1c f source shared) := by
  refine rd_setW1c_of_ne _ _ _ _ _ _ ?_
  show 64 * 0x1000 + 0 ≠ 64 * f.off + f.lo
  omega

theorem raise (d : Dev) (o : Occ) : StageKept d (d.raise o) := of_regs (by rfl)

/-! Stages B0 to B2. -/

theorem seePower (d : Dev) : StageKept d d.seePower :=
  ((wr d _ _ (by decide)).trans (wr _ _ _ (by decide))).trans (wr _ _ _ (by decide))

theorem bringB0 (i : StageInfo) (sec : Sec) (d : Dev) : StageKept d (bringB0 i sec d).2 :=
  (((trans (of_regs (by rfl)) (seePower _)).trans (wr _ _ _ (by decide))).trans (wr _ _ _ (by decide)))

theorem clearLatch (d : Dev) (bits : Nat) : StageKept d (d.clearLatch bits) := by
  unfold Dev.clearLatch
  refine foldl (fun d i => ite (((wr d _ _ (by decide)).trans (wr _ _ _ (by decide))).trans (wr_word _ _ _ ?_ (show 0 < 64 by decide))) (refl d)) _ d
  show 0x10040 + 8 * i ≠ 0x1000
  omega

theorem reportLatches (d : Dev) : StageKept d d.reportLatches :=
  (foldl (fun d _ => ite (raise d _) (refl d)) _ d).trans (clearLatch _ _)

theorem challengeHum (d : Dev) : StageKept d d.challengeHum := by
  unfold Dev.challengeHum
  cases d.pwr.hum with
  | none => exact refl d
  | some h =>
    exact ite ((((wr d _ _ (by decide)).trans (wr _ _ _ (by decide))).trans (wr _ _ _ (by decide))).trans (raise _ _))
      ((((wr d _ _ (by decide)).trans (wr _ _ _ (by decide))).trans (raise _ _)).trans
        ((setW1c _ _ _ _ (by decide) (by decide)).trans (setW1c _ _ _ _ (by decide) (by decide))))

theorem updateRide (d : Dev) : StageKept d d.updateRide := (wr d _ _ (by decide)).trans (wr _ _ _ (by decide))

theorem bringB1 (i : StageInfo) (slot : Nat) (sec : Sec) (d : Dev) : StageKept d (bringB1 i slot sec d).2 := by
  have h1 (v a b c : Nat) : StageKept d ((((d.wr Reg.rimCoresUp v).wr Reg.fwSlot a).wr Reg.fwFallback b).wr Reg.fwSvn c) :=
    (((wr d _ _ (by decide)).trans (wr _ _ _ (by decide))).trans (wr _ _ _ (by decide))).trans (wr _ _ _ (by decide))
  exact (((ite ((h1 _ _ _ _).trans (raise _ _)) (h1 _ _ _ _)).trans (reportLatches _)).trans (challengeHum _)).trans (updateRide _)

/-! Stages B3 and B4. -/

theorem appendRecord (d : Dev) (type : Nat) (body : List Byte) : StageKept d (d.appendRecord type body) := ite (refl d) (of_regs (by rfl))

theorem noteTrip (d : Dev) (n : Nat) : StageKept d (d.noteTrip n) :=
  ite (ite (trans (of_regs (by rfl)) (appendRecord _ _ _)) (of_regs (by rfl))) (refl d)

theorem cutField (d : Dev) (n : Nat) : StageKept d (d.cutField n) := foldl (fun _ _ => (of_regs (by rfl))) _ d

/-- A write of a register of a field, of its first word. -/
theorem wrField (d : Dev) (f : Nat → Fld) (n v : Nat) (h : (f n).off = 0x00200100 + 16 * n) (hlo : (f n).lo < 64) : StageKept d (d.wr (f n) v) :=
  wr_word d _ _ (by omega) hlo

theorem startField (d : Dev) (out : List Nat) (n : Nat) : StageKept d (d.startField out n) := by
  have hlock (e : Dev) (v : Nat) : StageKept e (e.wr (Reg.lockState n) v) :=
    wr_word e _ _ (show 0x00201100 + 16 * n ≠ 0x1000 by omega) (show 0 < 64 by decide)
  have hstate (e : Dev) (v w : Nat) : StageKept e ((e.wr (Reg.fieldState n) v).wr (Reg.lockState n) w) :=
    (wrField e Reg.fieldState n v rfl (show 0 < 64 by decide)).trans (hlock _ _)
  unfold Dev.startField
  extract_lets d1 d2
  have h1 : StageKept d d1 := (wrField d Reg.vlPhases n _ rfl (show 2 < 64 by decide)).trans (wrField _ Reg.vmPhases n _ rfl (show 7 < 64 by decide))
  have h2 : StageKept d d2 := ((h1.trans (hstate _ _ _)).trans (noteTrip _ _)).trans (cutField _ _)
  exact ite ((h1.trans (hstate _ _ _)).trans (cutField _ _)) (ite (h2.trans (of_regs (by rfl))) (h1.trans (hstate _ _ _)))

theorem setVmin (d : Dev) (step : Nat) : StageKept d (d.setVmin step) :=
  foldl (fun d n => wr_word d _ _ (show 0x00200108 + 16 * n ≠ 0x1000 by omega) (show 0 < 64 by decide)) _ d

theorem bringB3 (i : StageInfo) (d : Dev) : StageKept d (bringB3 i d) := by
  refine trans (e := (((List.range 36).foldl (fun (d : Dev) n => d.startField i.fieldsOut n) d).wr Reg.freqNow
    (((List.range 36).foldl (fun (d : Dev) n => d.startField i.fieldsOut n) d).rd Reg.freqStep)).setVmin
    (((List.range 36).foldl (fun (d : Dev) n => d.startField i.fieldsOut n) d).rd Reg.freqStep)) ?_ (of_regs (by rfl))
  exact ((foldl (fun d n => startField d _ n) _ d).trans (wr _ _ _ (by decide))).trans (setVmin _ _)

theorem changeTable (d : Dev) (seg : Nat) (b : BitVec 128) : StageKept d (d.changeTable seg b) :=
  ite (refl d) ((appendRecord d _ _).trans (of_regs (by rfl)))

theorem moveOrRetire (d : Dev) (t : Nat) : StageKept d (d.moveOrRetire t) := by
  unfold Dev.moveOrRetire
  refine ite (refl d) ?_
  split
  · exact ite (refl d) (of_regs (by rfl))
  · exact ite (refl d) (((raise d _).trans (changeTable _ _ _)).trans (of_regs (by rfl)))

theorem of_arranged (h : Arranged d e) : StageKept d e := by
  rw [show e = _ from h]
  exact of_regs (by rfl)

theorem onTile (d : Dev) (t : Nat) (f : Site → Site) : StageKept d (d.onTile t f) := of_arranged (Arranged.onTile d t f)

theorem loadProgram (d : Dev) (g h : Nat) : StageKept d (d.loadProgram g h) := of_arranged (Arranged.loadProgram d g h)

theorem relink (d : Dev) (t : Nat) : StageKept d (d.relink t) := by
  refine foldl (fun d dir => ?_) _ d
  split
  · exact ite (refl d) (of_regs (by rfl))
  · exact refl d

theorem unserveTile (d : Dev) (t : Nat) : StageKept d (d.unserveTile t) := of_regs (by rfl)

theorem spareLinked (d : Dev) (t s : Nat) : StageKept d (spareLinked d t s) := ite (trans (of_regs (by rfl)) (relink _ t)) (of_regs (by rfl))

theorem spareLoaded (d : Dev) (t : Nat) : StageKept d (spareLoaded d t) := by
  unfold Proofs.spareLoaded
  split
  · exact ite (((unserveTile d t).trans (onTile _ t _)).trans (loadProgram _ t t)) (refl d)
  · exact refl d

theorem substitute (d : Dev) (t s : Nat) : StageKept d (d.substitute t s) := by
  rw [substitute_eq]
  exact ite (refl d) (((changeTable d _ _).trans (spareLinked _ t s)).trans (spareLoaded _ t))

theorem applySubst (d : Dev) : StageKept d d.applySubst := by
  unfold Dev.applySubst
  refine trans (e := { d with wafer := { d.wafer with subst := [] } }) (of_regs (by rfl))
    (foldl (f := fun (d : Dev) (p : Nat × Nat) => d.substitute p.1 p.2) (fun d p => substitute d p.1 p.2) _ _)

theorem assignBonds (d : Dev) (found : List (Nat × Nat)) : StageKept d (d.assignBonds found) :=
  trans (foldl (fun d _ => appendRecord d _ _) _ d) (of_regs (by rfl))

theorem recordColumn (d : Dev) (c : Nat × Nat × Nat) : StageKept d (d.recordColumn c) := ite (refl d) (trans (appendRecord d _ _) (of_regs (by rfl)))

theorem assignColumns (d : Dev) (found : List (Nat × Nat × Nat)) : StageKept d (d.assignColumns found) := by
  unfold Dev.assignColumns
  extract_lets _ d1 d2
  have h2 : StageKept d d2 := trans (e := d1) (of_regs (by rfl)) (foldl (fun d c => recordColumn d c) _ _)
  exact h2.trans (of_regs (by rfl))

theorem wrThermal (d : Dev) (f : Nat → Fld) (n v : Nat) (h : (f n).off = 0x00201100 + 16 * n) (hlo : (f n).lo < 64) : StageKept d (d.wr (f n) v) :=
  wr_word d _ _ (by omega) hlo

theorem bringB4 (i : StageInfo) (d : Dev) : StageKept d (bringB4 i d) := by
  unfold Machine.bringB4
  extract_lets noBonds bad d0 d1 d2 _ d3
  have h0 : StageKept d d0 := (assignBonds d _).trans (of_regs (by rfl))
  have h1 : StageKept d d1 := (h0.trans (foldl (fun d t => moveOrRetire d t) bad d0)).trans (applySubst _)
  have h3 : StageKept d d3 := (h1.trans (assignColumns d1 _)).trans (of_regs (by rfl))
  refine h3.trans (foldl (fun d n => ?_) _ _)
  extract_lets e
  have he : StageKept d e := by
    unfold e
    split
    · exact wrThermal d Reg.rth n _ rfl (show 32 < 64 by decide)
    · exact refl d
  exact ite (he.trans (wrThermal e Reg.capW n _ rfl (show 48 < 64 by decide))) he

/-! Stages B5 and B6. -/

theorem of_memMoved (h : MemMoved d e) : StageKept d e := by
  rw [show e = _ from h]
  exact of_regs (by rfl)

theorem structAt (d : Dev) (want size lo hi owner : Nat) : StageKept d (d.structAt want size lo hi owner) := by
  unfold Dev.structAt
  dsimp only
  split
  · exact of_regs (by rfl)
  · exact refl d

theorem buffer (d : Dev) (n kind owner : Nat) : StageKept d (((d.allocLow false n kind owner).map (·.2)).getD d) := by
  cases h : d.allocLow false n kind owner with
  | none => exact refl d
  | some x => exact of_memMoved (allocLow_memMoved (b := x.1) h)

theorem placeStructures (d : Dev) : StageKept d d.placeStructures := by
  unfold Dev.placeStructures
  extract_lets p m d1 d2 d3
  have h2 : StageKept d d2 := ((((structAt d _ _ _ _ _).trans (structAt _ _ _ _ _ _)).trans (structAt _ _ _ _ _ _)).trans
    (structAt _ _ _ _ _ _)).trans (structAt _ _ _ _ _ _)
  have h3 : StageKept d d3 := h2.trans (foldl (fun d k => buffer d 0x200000 4 k) _ d2)
  exact ((h3.trans (wr _ _ _ (by decide))).trans (wr _ _ _ (by decide))).trans (wr _ _ _ (by decide))

theorem showFaultLog (d : Dev) : StageKept d d.showFaultLog := by
  unfold Dev.showFaultLog
  split
  · exact (wr d _ _ (by decide)).trans (wr _ _ _ (by decide))
  · exact refl d

theorem remap (d : Dev) (k : Nat) : StageKept d (d.remap k) := by
  have hs : fldKey Reg.stage ≠ fldKey (Reg.stackState k) := by
    show 64 * 0x1000 + 0 ≠ 64 * (0x501000 + 256 * k) + 0
    omega
  refine (remap_rd _ (by decide) (by decide)).trans ?_
  exact ((wr d _ _ hs).trans (wr _ _ _ (by decide))).trans (wr _ _ _ (by decide))

theorem bringB5 (i : StageInfo) (d : Dev) : StageKept d (bringB5 i d) := by
  unfold Machine.bringB5
  extract_lets out d1 d2 _ d3
  have h1 : StageKept d d1 := foldl (fun d k => wr_word d _ _ (show 0x501000 + 256 * k ≠ 0x1000 by omega) (show 0 < 64 by decide)) _ d
  have h2 : StageKept d d2 := by
    unfold d2
    clear_value out d1
    cases out with
    | some k => exact (((h1.trans (raise _ _)).trans (remap _ _)).trans (of_regs (by rfl))).trans (wr _ _ _ (by decide))
    | none => exact h1
  have h3 : StageKept d d3 := h2.trans (of_regs (by rfl))
  exact (h3.trans (placeStructures _)).trans (showFaultLog _)

theorem of_paths (h : PathsMoved d e) : StageKept d e := by
  refine h.regs Reg.stage fun p => ?_
  show 64 * 0x1000 + 0 ≠ 64 * (0x401000 + 8 * p) + 5
  omega

/-- A write of a register of a port's word. -/
theorem wrPort (d : Dev) (f : Nat → Fld) (p v : Nat) (h : (f p).off = 0x00400108 + 16 * p) (hlo : (f p).lo < 64) : StageKept d (d.wr (f p) v) :=
  wr_word d _ _ (by omega) hlo

theorem portUp (port : Nat) (d : Dev) : StageKept d (effPortUp port d) := by
  unfold effPortUp
  extract_lets p _ d1 d2
  refine ite (refl d) ?_
  have h1 : StageKept d d1 := ite (of_regs (by rfl)) (refl d)
  have h2 : StageKept d d2 := ((h1.trans (wrPort _ Reg.linkUp p 1 rfl (show 0 < 64 by decide))).trans
    (wrPort _ Reg.portLost p 0 rfl (show 3 < 64 by decide))).trans (raise _ _)
  exact h2.trans (of_paths (PathsMoved.foldl (fun d peer => (PathsMoved.of_sent (SentFrom.pump d peer)).trans (PathsMoved.showPaths _ _)) _ _))

theorem startPort (d : Dev) (up : List (Nat × Nat)) (p : Nat) : StageKept d (d.startPort up p) := by
  have hd : StageKept d (d.setW1c (Reg.errDown p) (50 + p)) :=
    setW1c d _ _ _ (show 0x00400108 + 16 * p ≠ 0x1000 by omega) (show 2 < 64 by decide)
  unfold Dev.startPort
  split
  · exact ite ((wrPort d Reg.portPhy p _ rfl (show 1 < 64 by decide)).trans (portUp _ _)) hd
  · exact hd

theorem bringB6 (i : StageInfo) (d : Dev) : StageKept d (bringB6 i d) :=
  trans (foldl (fun d p => startPort d i.portsUp p) _ d) (of_regs (by rfl))

end StageKept

section
variable {d : Dev} {i : StageInfo} {sec : Sec}

/-! The end of a stage. -/

/-- A device whose stage `n` is done, before what B7 itself does. -/
def stageNoted (d : Dev) (n ms : Nat) : Dev :=
  ((d.wr (Reg.stageMs n) ms).wr Reg.stage (n + 1)).raise { code := Rc.stageReached, detail := n + 1, source := 75 }

/-- What the journal holds, back in place, before its records go to their rings. -/
def servingBack (d : Dev) : Dev :=
  let k := d.pwr.sealed.getD d.pwr.journal
  let d1 := { d with
    serve := { d.serve with
      streams := k.streams.map fun (e : Nat × Machine.Stream) => (e.1, restored e.2)
      prefixes := k.prefixes.map fun (e : Nat × Pfx) => (e.1, { e.2 with recomputing := false })
      tenants := k.tenants.map fun (e : Nat × Tenant) => (e.1, { e.2 with reserved := 0 }) }
    img := { d.img with model := k.model, epochs := k.epochs, nextEpoch := k.nextEpoch, everActive := k.model.isSome } }
  let d2 := d1.raise { code := Rc.preserveResumed, detail := b2n d.pwr.sealed.isNone, source := 69, unitKind := 9, unit := 0 }
  { d2 with pwr := { d2.pwr with sealed := none, journal := d2.servingState } }

theorem restoreServing_replied (d : Dev) : Replied (servingBack d) d.restoreServing :=
  Replied.foldl (fun d (e : Nat × Machine.Stream) => Replied.foldl (fun d g => Replied.postGroup d e.2.queue g) _ d) _ _

theorem enterB7_rd {f : Fld} (hf : f.off < 0x2000) (hlo : f.lo < 64) : d.enterB7.rd f = d.rd f := by
  have hw (e : Dev) (g : Fld) (v : Nat) (hg : 0x2000 ≤ g.off) : (e.wr g v).rd f = e.rd f := by
    refine rd_wr_of_ne _ _ _ _ ?_
    unfold fldKey
    omega
  refine ((hw _ _ _ (by decide)).trans (hw _ _ _ (by decide))).trans ?_
  exact (restoreServing_replied _).regs f (replyLeaves_of_low (by omega) hlo)

theorem stageNoted_rd {n : Nat} (hn : n < 7) (ms : Nat) : (stageNoted d n ms).rd Reg.stage = n + 1 ∧ (stageNoted d n ms).rd (Reg.stageMs n) = ms % 2 ^ 32 := by
  have hne : fldKey (Reg.stageMs n) ≠ fldKey Reg.stage := by
    show 64 * (0x1020 + 8 * n) + 0 ≠ 64 * 0x1000 + 0
    omega
  refine ⟨(rd_wr _ _ _).trans (Nat.mod_eq_of_lt (show n + 1 < 2 ^ 3 by omega)), ?_⟩
  exact (rd_wr_of_ne _ _ _ _ hne).trans (rd_wr _ _ _)

theorem nextStage_rd {n : Nat} (hs : d.rd Reg.stage = n) (hn : n < 7) (ms : Nat) :
    (d.nextStage ms).rd Reg.stage = n + 1 ∧ (d.nextStage ms).rd (Reg.stageMs n) = ms % 2 ^ 32 := by
  have h : d.nextStage ms = if n + 1 = 7 then (stageNoted d n ms).enterB7 else stageNoted d n ms := by
    subst hs
    rfl
  rw [h]
  split
  · rw [enterB7_rd (by decide) (by decide), enterB7_rd (show 0x1020 + 8 * n < 0x2000 by omega) (show 0 < 64 by decide)]
    exact stageNoted_rd hn ms
  · exact stageNoted_rd hn ms

/-! A stage. -/

/-- A stage that completes does its work, then ends. -/
theorem runStage_ends (sec : Sec) (h : d.rd Reg.stage = 2 → d.belowFloor i.recordsOut = false ∧ coolEnough i = true) :
    ∃ e, StageKept d e ∧ (d.runStage i sec).2 = e.nextStage i.ms := by
  unfold Dev.runStage
  split
  case h_3 h2 =>
    obtain ⟨hf, hc⟩ := h h2
    dsimp only
    rw [hf, hc]
    exact ⟨_, (bringB2_stage i (d.keysAtB2 i.recordsOut sec) _).trans (readCoolant_stage _ _ _ _ _), rfl⟩
  · exact ⟨_, StageKept.bringB0 i sec d, rfl⟩
  · exact ⟨_, StageKept.bringB1 i _ sec d, rfl⟩
  · exact ⟨_, StageKept.bringB3 i d, rfl⟩
  · exact ⟨Machine.bringB4 i d, StageKept.bringB4 i d, by dsimp only⟩
  · exact ⟨Machine.bringB5 i d, StageKept.bringB5 i d, by dsimp only⟩
  · exact ⟨_, StageKept.bringB6 i d, rfl⟩

theorem stageReached_of_off (h : d.pwr.aonOn = false ∨ d.rd Reg.pstate ≠ 0 ∨ d.bit Reg.stalled = true ∨ 7 ≤ d.rd Reg.stage) :
    stageReached i sec d = (sec, d) := by
  refine if_pos ?_
  rcases h with h | h | h | h <;> simp [h]

theorem stageReached_of_on (ha : d.pwr.aonOn = true) (hp : d.rd Reg.pstate = 0) (hs : d.bit Reg.stalled = false) (hn : d.rd Reg.stage < 7) :
    (∀ c, d.stallOf i sec = some c → stageReached i sec d = (sec, d.stallAt c)) ∧
    (d.stallOf i sec = none → stageReached i sec d = d.runStage i sec) := by
  have hgo : ¬ (!d.pwr.aonOn || d.rd Reg.pstate != 0 || d.bit Reg.stalled || decide (7 ≤ d.rd Reg.stage)) = true := by simp [ha, hp, hs]; omega
  unfold stageReached
  rw [if_neg hgo]
  exact ⟨fun c h => by rw [h], fun h => by rw [h]⟩

/-- A stall shows its cause, and keeps `STAGE` (19 R419). -/
theorem stallAt_rd {c : Nat} (hc : c < 256) : (d.stallAt c).rd Reg.stage = d.rd Reg.stage ∧ (d.stallAt c).rd Reg.stalled = 1 ∧
    (d.stallAt c).rd Reg.stallCause = c ∧ (d.stallAt c).rd Reg.errStall = 1 := by
  have hr (f : Fld) (h : fldKey f ≠ fldKey Reg.errStall) : (d.stallAt c).rd f = ((d.wr Reg.stalled 1).wr Reg.stallCause c).rd f :=
    (rd_setW1c_of_ne _ _ _ _ _ _ h).trans (rd_raise _ _ _)
  refine ⟨?_, ?_, ?_, rd_setW1c_bit _ rfl⟩
  · rw [hr _ (by decide), rd_wr_of_ne _ _ _ _ (by decide), rd_wr_of_ne _ _ _ _ (by decide)]
  · rw [hr _ (by decide), rd_wr_of_ne _ _ _ _ (by decide)]
    exact rd_wr _ _ _
  · rw [hr _ (by decide)]
    exact (rd_wr _ _ _).trans (Nat.mod_eq_of_lt hc)

/-! Power-on. -/

/-- The part that a feed finds dark, reset and powered, at stage B0 (19 R423). -/
def poweredOn (d : Dev) (feed : Nat) : Dev :=
  { d.afterReset with pwr := { d.afterReset.pwr with aonOn := true, feeds := AMap.insert (feed % 2) true d.pwr.feeds, feedOpen := d.pwr.feedOpen.filter (· != feed % 2) } }

theorem powerOn_of_dark (h : d.pwr.aonOn = false) (feed : Nat) : effPowerOn feed d = (poweredOn d feed).seePower := if_neg (by simp [h])

theorem poweredOn_rd (d : Dev) (feed : Nat) : (poweredOn d feed).seePower.rd Reg.stage = 0 ∧ (poweredOn d feed).seePower.rd Reg.pstate = 0 ∧
    (poweredOn d feed).seePower.rd Reg.svcRequest = 0 := by
  unfold Dev.seePower
  refine ⟨?_, ?_, ?_⟩ <;> (rw [rd_wr_of_ne _ _ _ _ (by decide), rd_wr_of_ne _ _ _ _ (by decide), rd_wr_of_ne _ _ _ _ (by decide)]; rfl)

/-- A device below stage B7 with nothing to report closes its cycle with its memory as it was. -/
theorem closeCycle_mem (hs : d.rd Reg.stage < 7) (ho : d.occ = []) (hr : d.pwr.humReplace = false) : d.closeCycle.mem = d.mem := by
  have hbits : d.degradedBits = 0 := if_pos hs
  have hocc : d.updateDegraded.occ = [] := by
    have hsvc : svcOf 0 false = 0 := by decide
    unfold Dev.updateDegraded
    dsimp only
    rw [hbits, hr, hsvc, if_neg (fun h => h.2 rfl)]
    exact ho
  have hmem : d.updateDegraded.mem = d.mem := by
    unfold Dev.updateDegraded
    dsimp only
    split <;> simp
  have halert (e : Dev) : e.updateAlert.mem = e.mem := by
    unfold Dev.updateAlert
    split <;> rfl
  unfold Dev.closeCycle
  dsimp only
  rw [hocc]
  exact (halert _).trans hmem

end

/-- Settles O45: power-on of a dark part, and the end, the stall or the standstill of a stage. -/
theorem bringUp : Obligations.BringUp := by
  unfold Obligations.BringUp
  refine ⟨fun s feed => ⟨fun h => congrArg s.next (if_pos h), fun h => ?_⟩, fun s i => ?_⟩
  · have he := powerOn_of_dark h feed
    obtain ⟨h1, h2, -⟩ := poweredOn_rd s.dev feed
    have hu := SameButRecords.closeCycle (poweredOn s.dev feed).seePower
    have hm := closeCycle_mem (d := (poweredOn s.dev feed).seePower) (by omega) rfl rfl
    refine ⟨_, congrArg s.next he, ?_, ?_, ?_, ?_, ?_, ?_, ?_, rfl⟩
    · exact (hu.regs Reg.stage (plain_of _ (by decide) (by decide))).trans h1
    · exact (hu.regs Reg.pstate (plain_of _ (by decide) (by decide))).trans h2
    · exact congrArg Pwr.aonOn hu.pwr
    · exact (congrArg (fun p : Pwr => AMap.find p.feeds (feed % 2)) hu.pwr).trans ((find_insert _ _ _ _).trans (if_pos rfl))
    · exact congrArg Serve.streams hu.serve
    · exact congrArg Img.active hu.img
    · exact congrArg Memory.dram hm
  · dsimp only
    refine ⟨fun h => ?_, fun c ha hp hs hn hc hlt => ?_, fun ha hp hs hn hc h2 => ?_⟩
    · rw [exec_stageReached, execStageReached, stageReached_of_off h]
    · rw [Answers, exec_stageReached, execStageReached, (stageReached_of_on ha hp hs hn).1 c hc]
      have hu := SameButRecords.closeCycle (s.dev.stallAt c)
      obtain ⟨h1, h2, h3, h4⟩ := stallAt_rd (d := s.dev) hlt
      refine ⟨_, rfl, ?_, ?_, ?_, ?_, rfl⟩
      · exact (hu.regs Reg.stage (plain_of _ (by decide) (by decide))).trans h1
      · exact (hu.regs Reg.stalled (plain_of _ (by decide) (by decide))).trans h2
      · exact (hu.regs Reg.stallCause (plain_of _ (by decide) (by decide))).trans h3
      · exact (hu.regs Reg.errStall (plain_of _ (by decide) (by decide))).trans h4
    · rw [Answers, exec_stageReached, execStageReached, (stageReached_of_on ha hp hs hn).2 hc]
      obtain ⟨e, hkept, he⟩ := runStage_ends (d := s.dev) s.sec h2
      rw [he]
      have hu := SameButRecords.closeCycle (e.nextStage i.ms)
      obtain ⟨h1, h3⟩ := nextStage_rd hkept hn i.ms
      refine ⟨_, rfl, ?_, ?_⟩
      · exact (hu.regs Reg.stage (plain_of _ (by decide) (by decide))).trans h1
      · exact (hu.regs _ (plain_of _ (show 0 < 64 by decide) (by simp [Reg.stageMs]; omega))).trans h3

end Sys2Proof.Proofs
end
